-- ==== Sys2Proof/Word.lean ====
section
/-! DEFINITION. The word types of the block: registers, counters and payloads are 64 bits wide (R8 of
00_scope.md, R48 of 02_tide.md). -/

namespace Sys2Proof

/-- A register, a counter, a payload: 64 bits (R8). -/
abbrev Word := BitVec 64

/-- A byte of memory. -/
abbrev Byte := BitVec 8

/-- A virtual address, 56 bits (R320). -/
abbrev VA := BitVec 56

/-- A physical address, 48 bits (R353), held as a number. -/
abbrev PA := Nat

end Sys2Proof
end

