-- ==== Sys2Proof/Config.lean ====
section
/-! DEFINITION. What the spec leaves open. Each constant here is opaque: it has no body, so nothing in Lean can
evaluate it or prove a value of it. `Config.freeWord` is applied to a counter of State, which every use advances. -/

namespace Sys2Proof

/-- The free value number `n`: an unspecified value of R3, truncated to the width needed. Log entry 6. -/
opaque Config.freeWord : Nat → BitVec 64

/-- The byte at place `a` of free value number `n`: contents of memory that the device has lost (R173, R179, R259, R381).
Log entry 76. -/
opaque Config.freeByte : Nat → Nat → BitVec 8

/-- Whether an access to a page whose entry has been cleared and is still being invalidated uses the old entry: R344 allows
either. Free value number `n`, virtual address `va`. Log entry 32. -/
opaque Config.staleEntry (n va : Nat) : Bool

/-- The free value of a vector register, as `freeWord`. Log entry 6. -/
opaque Config.freeVec : Nat → BitVec 2048

/-- For special function `f` (the FN code of R283) and a finite FP32 input, which of the FP32 numbers within 2 ulp of the
exact function the hardware gives: R235 gives that bound and no value. Log entry 7. -/
opaque Config.specialFn : Nat → BitVec 32 → BitVec 32

/-- Whether 0 × ∞ beside a quiet NaN addend raises NV: IEEE 754, which R278 follows, leaves it to the
implementation. Log entry 12. -/
opaque Config.fmaNanInvalid : Bool

/-- For rake activation `a` (code of R117) and for its derivative (R118), which of the FP32 numbers within 2 ulp of the
exact function the hardware gives; for the derivative at an infinite input, its value. Log entry 7. -/
opaque Config.activation : Nat → BitVec 32 → BitVec 32
opaque Config.activationDeriv : Nat → BitVec 32 → BitVec 32

/-- Channel `c` of a pixel whose palette index `v` has no entry: ISO/IEC 15948 calls it an error and gives no colour. Log
entry 9. -/
opaque Config.noPaletteEntry (v c : Nat) : Byte

/-- The first sample kept of a clip of `n` samples whose START is the NaN `start`: R406 takes the floor of a NaN. Log
entry 104. -/
opaque Config.nanStart (start n : Nat) : Nat

/-- What the fixed-point reference decoder of RFC 6716 makes of the packets of a stream of 1 or 2 channels with an output
gain: for each packet its samples, interleaved, and whether it failed to decode and was concealed. The spec defines the output
by that program and not by a text of its own. Log entry 9. -/
opaque Config.opusDecode (chans gain : Nat) (packets : List (List Byte)) : List (List Int × Bool)

/-- Whether a signature over the bytes verifies under the key (R568, R573 to R575). Log entry 10. -/
opaque Config.verifies : List Byte → List Byte → List Byte → Bool

/-- The vendor key (R568). Log entry 10. -/
opaque Config.vendorKey : List Byte

/-- The I3C device characteristics register, which R619 lists without a value. Log entry 16. -/
opaque Config.i3cDcr : Byte

end Sys2Proof
end

