-- ==== Sys2Proof/Syntax.lean ====
section
/-! DEFINITION. The commands of the block: one constructor for each row of spec/opcode_table.json, with the
operands the spec gives it. No row is only another name of another row's words. An operand is typed so that a value
the spec does not assign to it cannot be written; a word that carries an unassigned code is the row
UNASSIGNED_OPCODE. What the outside supplies to an event (a measurement, a received flit, a verdict of an external
standard) is an operand of the event's row. -/

namespace Sys2Proof

/-- A physical core, 0–127 (R17). -/
abbrev CoreIx := Fin 128
/-- A physical cluster, and its pan, dispatch unit and slice, 0–7 (R17). -/
abbrev ClusterIx := Fin 8
/-- A compute die, 0–3. -/
abbrev DieIx := Fin 4
/-- A crystallizer, 0–7. -/
abbrev XtlIx := Fin 8
/-- A sluice, 0–31. -/
abbrev SluIx := Fin 32
/-- An optical port, 0–63. -/
abbrev PortIx := Fin 64
/-- A partition, 0–3 (R343). -/
abbrev PartIx := Fin 4
/-- A management core, 0–7. -/
abbrev McIx := Fin 8
/-- A scalar or vector register number. -/
abbrev RegIx := Fin 32
/-- A predicate register number. -/
abbrev PredIx := Fin 8
/-- A tensor handle number. -/
abbrev HndIx := Fin 16
/-- A token number. -/
abbrev TokIx := Fin 8

/-- The second scalar operand: a register, or the immediate of the IMM form (R264). -/
inductive SOp where
  | reg (rb : RegIx)
  | imm (v : BitVec 32)
  deriving DecidableEq, Repr

/-- The shift operand: a register, or six immediate bits (IMM[31:6] are reserved, R264). -/
inductive ShOp where
  | reg (rb : RegIx)
  | imm (v : BitVec 6)
  deriving DecidableEq, Repr

/-- SZ of LD and ST (R270). -/
inductive MemSz where
  | b | h | w | d
  deriving DecidableEq, Repr

/-- Vector element types of R277. -/
inductive VTy where
  | f32 | bf16 | f16 | i32 | i16 | i8 | e4m3 | e5m2
  deriving DecidableEq, Repr

/-- The floating-point types of R278. -/
inductive FTy where
  | f32 | bf16 | f16
  deriving DecidableEq, Repr

/-- The integer types of R279. -/
inductive ITy where
  | i32 | i16 | i8
  deriving DecidableEq, Repr

/-- The types an arithmetic, compare or reduction instruction may name (R277): not 6 or 7. -/
inductive ATy where
  | f (t : FTy)
  | i (t : ITy)
  deriving DecidableEq, Repr

/-- Operand B of VEC form: a vector register (BC 0) or a broadcast scalar (BC 1), R277. -/
inductive VB where
  | vec (vb : RegIx)
  | bc (sr : RegIx)
  deriving DecidableEq, Repr

/-- The comparisons of R281 that every type has. -/
inductive Cmp where
  | eq | ne | lt | le | gt | ge
  deriving DecidableEq, Repr

/-- A comparison with its type: UN is floating point only, LTU and LEU integer only (R281). -/
inductive CmpSel where
  | f (t : FTy) (k : Cmp)
  | un (t : FTy)
  | i (t : ITy) (k : Cmp)
  | ltu (t : ITy)
  | leu (t : ITy)
  deriving DecidableEq, Repr

/-- SZ of an AMO (R284). -/
inductive AmoSz where
  | w | d | f
  deriving DecidableEq, Repr

/-- Unit targets 3 to 6 of R246. -/
inductive Target where
  | pan | slu | brn | xtl
  deriving DecidableEq, Repr

/-- The target of TIDE.WAIT (R286): a register, or a distance from the tide number at issue. -/
inductive TideTarget where
  | abs (ra : RegIx)
  | rel (n : BitVec 31)
  deriving DecidableEq, Repr

/-- The source THL reads (R273). -/
inductive HndKind where
  | weave | window
  deriving DecidableEq, Repr

/-- A rake slot, or RAW (R295). -/
inductive Slot where
  | slot (i : Fin 4)
  | raw
  deriving DecidableEq, Repr

/-- FOLD of a pan command (R295). -/
inductive FoldSel where
  | auto | fold1 | fold4 | fold16
  deriving DecidableEq, Repr

/-- SL of a sluice command: logical sluice 0–3 of the cluster, or any. -/
inductive SlSel where
  | sl (i : Fin 4)
  | any
  deriving DecidableEq, Repr

/-- PRESS of SLU.COPY. -/
inductive Press where
  | none | half | fiveEighths
  deriving DecidableEq, Repr

/-- OP of an add-on-write or a collective (R315). -/
inductive RedOp where
  | sum | min | max
  deriving DecidableEq, Repr

/-- What a register or local-memory word that failed parity after four attempts was (cause 0x0B, R255). -/
inductive ParityFail where
  | localAddr (a : BitVec 20)
  | register (n : BitVec 8)
  deriving DecidableEq, Repr

/-- How the words of one memory access fared (R350, R351, R505): failed attempts at the stack, and on the slice
path; four failures poison the line. -/
structure Tries where
  stack : Fin 5
  path : Fin 5
  deriving DecidableEq, Repr

/-- What a flit carries (R466, R468): units of one VC, nothing, or a link-management message. -/
inductive FlitBody where
  | data (vc : Fin 4) (units : List Byte)
  | idle
  /-- the sender's receive lane that it has retired (R475) -/
  | retire (lane : Fin 8)
  /-- the sender's device id and port (R463) -/
  | ident (dev : BitVec 16) (port : PortIx)
  deriving DecidableEq, Repr

/-- A flit as it arrives (R465, R466). -/
structure Flit where
  seq : BitVec 16
  ack : BitVec 16
  nak : Bool
  lsw : Bool
  crVc : Fin 4
  crCnt : BitVec 10
  body : FlitBody
  deriving DecidableEq, Repr

/-- What training found (R462): lanes locked in each direction, the peer, the median round trip in ns and the two
ports' turnaround in 1/16 ns. -/
structure Training where
  rx : BitVec 8
  tx : BitVec 8
  dev : BitVec 16
  port : PortIx
  rtt : BitVec 32
  turn : BitVec 32
  deriving DecidableEq, Repr

/-- Why training failed (R463). -/
inductive TrainFail where
  | severalPorts
  | fewLanes
  | badPeer
  deriving DecidableEq, Repr

/-- Which window of R457 ends: an engine stops setting LSW, or a receiving port's mask ends. -/
inductive LswEnd where
  | engine (o : Fin 8)
  | port (p : PortIx)
  deriving DecidableEq, Repr

/-- An Ethernet frame as it arrives at a port in the Ethernet personality (R500 to R502). -/
inductive EthFrame where
  /-- ARP, neighbour discovery or ICMP echo, or TCP to destination port 7410 and the port's address -/
  | firmware (data : List Byte)
  | rdmaReadRequest (q : Fin 256)
  | rdmaWrite (q : Fin 256)
  | send (q : Fin 256) (data : List Byte)
  | readResponse (q : Fin 256) (data : List Byte)
  | ack (q : Fin 256)
  | nak (q : Fin 256) (syndrome : BitVec 8)
  | cnp (q : Fin 256)
  | other
  deriving DecidableEq, Repr

/-- A package-fabric flit as its sender forms it (R447): 64 payload bytes, KIND (0 data, 1 acknowledge, 2 credit, 3 idle),
CLASS and SEQ. The parities of its trailer follow from these. -/
structure FabFlit where
  payload : BitVec 512
  kind : Fin 4
  cls : Fin 4
  seq : BitVec 10
  deriving DecidableEq, Repr

/-- A fabric flit as it reaches a port, and the bits that the way changed in the attempts to send it, in turn (R448). -/
structure FabArrival where
  flit : FabFlit
  errs : List (BitVec 544)
  deriving DecidableEq, Repr

/-- A fault of the array during a pass: the raw result at (row, column) of the command comes out as `val` (R503,
R507). -/
structure Upset where
  row : Nat
  col : Nat
  val : BitVec 64
  deriving DecidableEq, Repr

/-- Words of a 64-byte line of fast memory or of a retention page that a unit's next read, or write, of the line in the
window will find mismatching: failed attempts between controller and stack (R350, R351), in the slice array and on the unit's
slice port (R504, R505); the fourth is the last. -/
structure Flaw where
  line : Nat
  write : Bool
  stack : Fin 5
  array : Fin 5
  port : Fin 5
  deriving DecidableEq, Repr

/-- What the sensors and the estimator give the arbiter at an edge for the window that ends (R533, R536, R542, R548,
R549): predicted input power by activity, before the ratio k, of LINK, MEM and each die's COMPUTE at OP0, the total
estimate and the measurement, all in mW; the lowest and the last input voltage in 10 mV; the hottest junction of each die
in °C; and the nanoseconds of collective wait. Also the words that will mismatch in the window that begins. -/
structure EdgeEnv where
  link : BitVec 32
  mem : BitVec 32
  comp : Vector (BitVec 32) 4
  est : BitVec 32
  meas : BitVec 32
  vinMin : BitVec 16
  vin : BitVec 16
  tj : Vector (BitVec 8) 4
  wait : BitVec 32
  flaws : List Flaw
  deriving DecidableEq, Repr

/-- Which input trip of R529: low, or high. -/
inductive VinTrip where
  | low | high
  deriving DecidableEq, Repr

/-- A channel of R506: a stack's pseudo-channel, a fabric port's module, a slow-tier channel, a cache way, a core's
arrays. -/
inductive ChanRef where
  | pc (k : Fin 16) (p : Fin 64)
  | fabric (d : DieIx) (j : Fin 3) (m : Fin 20)
  | slow (x : XtlIx) (ch : Fin 16)
  | way (c : ClusterIx) (w : Fin 32)
  | core (c : CoreIx)
  deriving DecidableEq, Repr

/-- The image of a flash slot (R568): header fields, the image's bytes, and whether the whole header is well formed
(MAGIC, LEN, reserved fields). `head` are header bytes 0 to 207. -/
structure SlotImage where
  headOk : Bool
  head : List Byte
  svn : BitVec 32
  version : BitVec 64
  owner : Bool
  hash : List Byte
  vsig : List Byte
  osig : List Byte
  body : List Byte
  deriving DecidableEq, Repr

/-- One allocation of a manifest's MEMORY (key 9). -/
structure MemReq where
  va : BitVec 56
  frames : BitVec 25
  big : Bool
  shared : Bool
  aff : Fin 8
  pin : Bool
  perm : BitVec 3
  deriving DecidableEq, Repr

/-- One range of a manifest's SLOW_TIER (key 11): virtual address, logical crystallizer, 2 MiB pages, and where in the
crystallizer's slow tier firmware places it, in 2 MiB pages. -/
structure SlowReq where
  va : BitVec 56
  lx : Fin 8
  pages : BitVec 17
  base : BitVec 17
  deriving DecidableEq, Repr

/-- One entry of a manifest's ROUTES (key 15): device id, PRIMARY and ALT ports, none for none. -/
structure RouteReq where
  dev : BitVec 16
  primary : PortIx
  alt : Option PortIx
  deriving DecidableEq, Repr

/-- A job manifest (R586). `bad` says that a key or value of the CBOR map breaks R586 or the checks of the rules it
names. `mask` is the map form of DIES. GROUPS and QUEUES are the bytes of the dies' tables, one after the other in logical
order, with the virtual address at which firmware stores them; `groupCount` is the number of group records of a die.
`softAt` and `grants` are what firmware gives the partition beside the manifest: BRN_SOFT_BASE, and window offsets that
its program may write. -/
structure Manifest where
  bad : Bool
  jobId : BitVec 64
  seed : BitVec 64
  device : BitVec 16
  devices : List (BitVec 16)
  timeMaster : BitVec 16
  periodUs : BitVec 8
  dies : Fin 5
  mask : Option (BitVec 4)
  program : List Byte
  sha : List Byte
  entry : BitVec 56
  memory : List MemReq
  retWays : Fin 17
  retVbase : BitVec 56
  slow : List SlowReq
  groups : List Byte
  groupsAt : BitVec 56
  groupCount : BitVec 16
  queues : List Byte
  queuesAt : BitVec 56
  conns : List (BitVec 16 × Fin 4)
  routes : List RouteReq
  parent : Option PortIx
  children : BitVec 64
  feeders : List (Fin 256 × PortIx)
  balance : Bool
  floorW : BitVec 16
  envelopeW : BitVec 32
  capW : BitVec 16
  serving : Bool
  snapAccess : Bool
  softAt : BitVec 56
  grants : List (BitVec 32)
  deriving DecidableEq, Repr

/-- The header of a controller command (R577): the session it came on, SEQ, EPOCH, whether a reserved field is
non-zero, and LEN. -/
structure CmdHdr where
  ses : Fin 16
  seq : BitVec 64
  epoch : BitVec 64
  rsv : Bool
  len : BitVec 32
  deriving DecidableEq, Repr

/-- The certificate of a session (R576): the key its chain ends at (its hash, or none for the vendor key), the role it
names, and the low 48 bits of the SHA-384 hash of its key. -/
structure Cert where
  anchor : Option (List Byte)
  role : Fin 4
  id : BitVec 48
  deriving DecidableEq, Repr

/-- The path by which a session reaches firmware (R22, R576): MGMT0 or MGMT1, Tuimal transport on an optical port, or a port
in the Ethernet personality. -/
inductive SesPath where
  | mgmt (k : Fin 2)
  | tuimal (p : PortIx)
  | ethernet (p : Fin 8)
  deriving DecidableEq, Repr

/-- A session offered: its path and the certificate shown. -/
structure SesOffer where
  path : SesPath
  cert : Cert
  deriving DecidableEq, Repr

/-- A unit whose fence bit firmware writes (R522). -/
inductive FenceUnit where
  | engine (p : ClusterIx) (e : Fin 16)
  | pan (p : ClusterIx)
  | core (c : CoreIx)
  | way (c : ClusterIx) (w : Fin 32)
  | sluice (i : SluIx)
  | slowChan (x : XtlIx) (ch : Fin 16)
  deriving DecidableEq, Repr

/-- What UCODE_LOAD carries (R596): microcode for the Brine units of a die mask, signed as a slot image is, or one of the
three calibration tables. -/
inductive Ucode where
  | brine (dies : BitVec 4) (image vsig osig : List Byte)
  | calibration (table : Fin 3) (data : List Byte)
  deriving DecidableEq, Repr

/-- What QUERY reads. -/
inductive Query where
  | job (id : BitVec 64)
  | partition (p : PartIx)
  | register (off : BitVec 32)
  | slotId
  deriving DecidableEq, Repr

/-- Why JOB_END is performed (R590): to complete an end that has begun, or because firmware aborts the job. -/
inductive EndWhy where
  | finish
  | coreStopped
  | unreachable
  | recordLost
  deriving DecidableEq, Repr

/-- A region of a checkpoint plan (R593), the sluice whose tap it uses, and for a slow-tier region the crystallizer. -/
structure CkptRegion where
  va : BitVec 56
  len : BitVec 40
  slu : SluIx
  slow : Option XtlIx
  deriving DecidableEq, Repr

/-- The target of a checkpoint: a RoCE queue pair, the port the service binds it to, and a remote address; or a Tuimal
endpoint and remote address. -/
inductive CkptTarget where
  | roce (q : Fin 256) (port : Fin 8) (addr : BitVec 64)
  | tuimal (dev : BitVec 16) (die : Fin 4) (addr : BitVec 64)
  deriving DecidableEq, Repr

/-- One module's part of a round of balancing (R550): its device id, WAIT_NS, cap, floor and class value in 25 W steps,
and whether its schedule write was refused. -/
structure BalPart where
  dev : BitVec 16
  wait : BitVec 32
  cap : BitVec 9
  floor : BitVec 9
  cls : BitVec 9
  refused : Bool
  deriving DecidableEq, Repr

/-- What a boot finds and does (R571): milliseconds to service, whether stage 1 reaches service, faulty cells of the pans
(pan, engine, physical row and column), and the boot self-tests in order with what they found. -/
structure BootEnv where
  ms : BitVec 16
  reaches : Bool
  cells : List (ClusterIx × Fin 16 × BitVec 9 × BitVec 9)
  tests : List (FenceUnit × Bool)
  deriving DecidableEq, Repr

/-- A command of the block. -/
inductive Instr where
  /-- R45: A tide edge falls and the device runs the ordered edge actions of the new tide. -/
  | tideEdge (e : EdgeEnv)
  /-- R49: At the armed target edge every counter copies its live value to its shadow. -/
  | snapshotTaken
  /-- R552: At the armed target edge a partition's energy mark latches PWR_ENERGY_CNT. -/
  | energyMarkLatch (p : PartIx)
  /-- R534: At the scheduled target edge PWR_CAP takes the scheduled value. -/
  | capScheduleApply
  /-- R559: The tide number reaches PWR_ALARM and wakes the module. -/
  | alarmWake
  /-- R133: A fill-gate batch open for TIMEOUT tides fires. -/
  | fillTimeout (p : ClusterIx)
  /-- R204: A step not final HOLD_WARN edges after its first SEAL raises event 0x1404. -/
  | holdWarnReached (p : Fin 4) (i : Fin 8)
  /-- R247: An issue stall reaching STALL_WARN tides raises event 0x1112. -/
  | issueStallWarn (c : CoreIx)
  /-- R312: A fence, TOKEN.WAIT or BAR wait reaching WAIT_WARN raises event 0x1240. -/
  | syncWaitWarn (c : CoreIx)
  /-- R437: A collective without progress for COLL_WARN tides raises event 0x1603. -/
  | collWarn (i : SluIx)
  /-- R489: A forwarded segment waiting STALL_WARN tides for credits raises event 0x1709. -/
  | forwardStallWarn (p : PortIx)
  /-- R364: Every DECAY tides all heat counts are halved. -/
  | heatDecay
  /-- R408: At a batch's deadline edge unresolved slots and reserves become late. -/
  | batchDeadline (d : DieIx)
  /-- R40: No PPS edge for 2 s clears PPS_LOCK and raises event 0x0105. -/
  | ppsAbsent
  /-- R494: Every 64 tides the time master sends TIME on its child ports. -/
  | timeSend (origin : Vector (BitVec 32) 64)
  /-- R549: Every 100 tides the collective wait increase is latched into PWR_BAL_SLACK. -/
  | balSlackLatch
  /-- R594: Every 100,000 tides the metrics service arms a snapshot. -/
  | metricsSnapshotArm (t : BitVec 64)
  /-- R506: A channel error-count window closes and its counts restart. -/
  | errorWindowEnd (k : Fin 6)
  /-- R506: A channel's repeated attempts or failures reach their threshold and it is classified permanent. -/
  | channelPermanent (c : ChanRef)
  /-- R520: A unit's interval elapses and it is self-tested. -/
  | selfTest (u : FenceUnit) (fault : Bool)
  /-- R521: A fence takes effect at the unit's next boundary. -/
  | fenceTakeEffect (u : FenceUnit)
  /-- R543: After 50 disagreeing windows the arbiter enters drift control. -/
  | driftEnter
  /-- R544: After 1000 agreeing windows the arbiter returns to blended control. -/
  | driftExit
  /-- R548: After 1000 cool tides a thermal ceiling lifts one point. -/
  | thermalLift (d : DieIx)
  /-- R547: A droop ceiling lifts after HOLD tides. -/
  | droopCeilingLift (d : DieIx)
  /-- R548: TJ reaching 102 °C puts the die at OP7 with a limited share at once. -/
  | thermalEmergency (d : DieIx) (tj : BitVec 8)
  /-- R548: TJ at 105 °C for 100 µs trips the module. -/
  | thermalTrip (d : DieIx) (tj : BitVec 8)
  /-- R531: VIN out of range for its duration trips the module off. -/
  | inputTrip (k : VinTrip)
  /-- R529: VIN leaves 60-80 V and raises event 0x0201. -/
  | vinExcursion (vin : BitVec 16)
  /-- R545: A supply dip below TH stretches the die clock. -/
  | droopDetect (d : DieIx)
  /-- R546: A dip lasting 64 stretched cycles steps the die one point slower. -/
  | droopEscalate (d : DieIx)
  /-- R610: PWR_EN taken as asserted starts the inrush and power-on. -/
  | pwrEnAssert (vin : BitVec 16) (slot : BitVec 6)
  /-- R610: PWR_EN taken as deasserted removes power from every domain. -/
  | pwrEnDeassert
  /-- R611: RESET_L held low resets every unit. -/
  | resetLAssert
  /-- R611: Release of RESET_L restarts the island and begins boot after 5 ms. -/
  | resetLRelease (slot : BitVec 6)
  /-- R616: REFCLK absent for more than 10 µs resets the module. -/
  | refclkLoss
  /-- R616: REFCLK locks and boot proceeds, releasing FAULT_L. -/
  | refclkLock
  /-- R39: An accepted PPS edge disciplines the tide unit. -/
  | ppsEdge (err : BitVec 32)
  /-- R571: The module boots through its ordered stages to service. -/
  | boot (e : BootEnv)
  /-- R566: A missing primary heartbeat triggers takeover by D1 or a fault. -/
  | heartbeatTimeout
  /-- R559: WAKE_L low wakes the module from M1, M2 or M3. -/
  | wakeLLow
  /-- R559: Light on lane 0 for 5 µs wakes the module. -/
  | lightWake (p : PortIx)
  /-- R560: A watch receiver matches the knock pattern and wakes the module. -/
  | knockMatch (p : PortIx) (bits : BitVec 64)
  /-- R618: Energy on MGMT0 or MGMT1 wakes the module from M3. -/
  | mgmtEnergyWake
  /-- R556: A segment addressed to the module in M1 wakes it. -/
  | segmentWake
  /-- R555: At the first idle edge the module enters M1. -/
  | m1Entry
  /-- R555: M2 entry completes and any pending wake begins exit. -/
  | m2EntryComplete
  /-- R555: M3 entry completes with the watch receivers armed. -/
  | m3EntryComplete
  /-- R558: Clocks ungate at the first edge after the exit cause. -/
  | m1Exit
  /-- R558: Compute domains repower and memory leaves self-refresh. -/
  | m2Exit
  /-- R558: Exit from M3 runs boot from stage 0. -/
  | m3Exit
  /-- R457: A laser source module fails or is pulled and the partner takes full output. -/
  | laserLoss (b : Fin 16) (pulled : Bool)
  /-- R459: A module inserted in an empty bay warms and ramps to its share. -/
  | laserInsert (b : Fin 16) (hours : BitVec 32)
  /-- R459: A warming module ends start-up and reads SHARING or FAULT. -/
  | laserWarmDone (b : Fin 16) (ok : Bool)
  /-- R458: The partner reaches full output and the released module goes dark. -/
  | laserReleaseComplete (b : Fin 16)
  /-- R473: A lane without light or clock for over 1 µs is retired. -/
  | laneSignalLoss (p : PortIx) (k : Fin 8)
  /-- R475: A lane reaching its error threshold is retired and the lane set changes. -/
  | laneRetire (p : PortIx) (k : Fin 8)
  /-- R462: Training completes and the port reads UP. -/
  | portTrainingComplete (p : PortIx) (t : Training)
  /-- R463: Training fails and the port goes DOWN. -/
  | portTrainingFail (p : PortIx) (why : TrainFail)
  /-- R461: A DOWN port retries training every 100 ms. -/
  | portDownRetry (p : PortIx)
  /-- R462: Light seen on a DARK port starts training. -/
  | firstLight (p : PortIx)
  /-- R468: A flit arrives, is parity-checked and accepted or NAKed. -/
  | flitReceive (p : PortIx) (f : Flit) (bad : List (Fin 34))
  /-- R468: A retrain not done in 200 µs puts the port DOWN. -/
  | retrainTimeout (p : PortIx)
  /-- R468: A receiver with nothing to send emits an idle flit every 64 ns. -/
  | idleFlitTimer (p : PortIx)
  /-- R477: An idle port's lanes recalibrate after RECAL_IDLE µs. -/
  | laneRecalibrate (p : PortIx) (k : Fin 8)
  /-- R480: A WRITE segment stores its payload at the remote address. -/
  | segWrite (p : PortIx)
  /-- R480: A READ segment returns data in READ_DATA. -/
  | segRead (p : PortIx)
  /-- R480: READ_DATA is written into the reader's destination. -/
  | segReadData (p : PortIx)
  /-- R480: A RED segment adds its elements at the remote address. -/
  | segRed (p : PortIx)
  /-- R446: A SEND segment is appended to a receive queue ring. -/
  | segSend (p : PortIx)
  /-- R485: An ACK or NAK advances or restarts the sender's unacknowledged segments. -/
  | segAck (p : PortIx) (failed : List (BitVec 32))
  /-- R495: A TIME segment measures the follower's offset and is forwarded. -/
  | segTime (p : PortIx) (ago : BitVec 32) (resid : Vector (BitVec 32) 64)
  /-- R480: A CTRL segment is delivered to firmware on its die. -/
  | segCtrl (p : PortIx)
  /-- R440: A step status arrives and is taken by the matching partition's gate unit. -/
  | segStatus (p : PortIx)
  /-- R487: A segment for another device is forwarded on its route or dropped. -/
  | segmentForward (p : PortIx) (v : Fin 4)
  /-- R485: A segment timer expires and the connection resends its unacknowledged segments. -/
  | segmentRetxTimeout (d : DieIx) (j : Fin 2048)
  /-- R486: An unacknowledged STATUS segment is sent again every RETX_US. -/
  | statusResend
  /-- R484: The receiver sends an ACK within 1 µs of a segment being performed. -/
  | ackTimer (d : DieIx) (j : Fin 2048)
  /-- R501: An Ethernet frame is delivered to RoCE, firmware or dropped. -/
  | ethFrameReceive (p : Fin 8) (f : EthFrame)
  /-- R502: A queue pair enters error and completes its work with error status. -/
  | qpError (q : Fin 256) (syndrome : BitVec 8)
  /-- R499: An Ethernet lane fault takes the port down. -/
  | ethLinkFault (p : Fin 8)
  /-- R448: A package-fabric flit is checked and accepted or NAKed for resend. -/
  | fabricFlitReceive (d : DieIx) (j : Fin 3) (m : Fin 20) (a : FabArrival)
  /-- R367: All lines of a moving page have moved and its leaf entry is rewritten. -/
  | pageMoveComplete (i : Fin 256)
  /-- R368: A die's translation invalidation completes and BUSY clears. -/
  | mmuInvComplete (d : DieIx)
  /-- R379: Evacuation of a retired pseudo-channel ends with a stranded count. -/
  | evacuationEnd (k : Fin 16) (p : Fin 64)
  /-- R264: Scalar add. -/
  | add (c : CoreIx) (rd ra : RegIx) (b : SOp)
  /-- R264: Scalar subtract. -/
  | sub (c : CoreIx) (rd ra : RegIx) (b : SOp)
  /-- R264: Scalar bitwise AND. -/
  | and (c : CoreIx) (rd ra : RegIx) (b : SOp)
  /-- R264: Scalar bitwise OR. -/
  | or (c : CoreIx) (rd ra : RegIx) (b : SOp)
  /-- R264: Scalar bitwise XOR. -/
  | xor (c : CoreIx) (rd ra : RegIx) (b : SOp)
  /-- R264: Scalar shift left logical. -/
  | sll (c : CoreIx) (rd ra : RegIx) (b : ShOp)
  /-- R264: Scalar shift right logical. -/
  | srl (c : CoreIx) (rd ra : RegIx) (b : ShOp)
  /-- R264: Scalar shift right arithmetic. -/
  | sra (c : CoreIx) (rd ra : RegIx) (b : ShOp)
  /-- R264: Scalar set if less than, signed. -/
  | slt (c : CoreIx) (rd ra : RegIx) (b : SOp)
  /-- R264: Scalar set if less than, unsigned. -/
  | sltu (c : CoreIx) (rd ra : RegIx) (b : SOp)
  /-- R264: Scalar signed minimum. -/
  | min (c : CoreIx) (rd ra : RegIx) (b : SOp)
  /-- R264: Scalar signed maximum. -/
  | max (c : CoreIx) (rd ra : RegIx) (b : SOp)
  /-- R264: Scalar unsigned minimum. -/
  | minu (c : CoreIx) (rd ra : RegIx) (b : SOp)
  /-- R264: Scalar unsigned maximum. -/
  | maxu (c : CoreIx) (rd ra : RegIx) (b : SOp)
  /-- R264: Low 64 bits of a scalar product. -/
  | mul (c : CoreIx) (rd ra rb : RegIx)
  /-- R264: High 64 bits of a signed product. -/
  | mulh (c : CoreIx) (rd ra rb : RegIx)
  /-- R264: High 64 bits of an unsigned product. -/
  | mulhu (c : CoreIx) (rd ra rb : RegIx)
  /-- R265: Signed scalar division. -/
  | div (c : CoreIx) (rd ra rb : RegIx)
  /-- R265: Unsigned scalar division. -/
  | divu (c : CoreIx) (rd ra rb : RegIx)
  /-- R265: Signed scalar remainder. -/
  | rem (c : CoreIx) (rd ra rb : RegIx)
  /-- R265: Unsigned scalar remainder. -/
  | remu (c : CoreIx) (rd ra rb : RegIx)
  /-- R266: Load a sign-extended 48-bit immediate. -/
  | li (c : CoreIx) (rd : RegIx) (v : BitVec 48)
  /-- R266: Load 16 bits into bits [63:48] of a register. -/
  | lih (c : CoreIx) (rd : RegIx) (v : BitVec 16)
  /-- R267: Branch if equal. -/
  | beq (c : CoreIx) (ra rb : RegIx) (off : BitVec 32)
  /-- R267: Branch if not equal. -/
  | bne (c : CoreIx) (ra rb : RegIx) (off : BitVec 32)
  /-- R267: Branch if less than, signed. -/
  | blt (c : CoreIx) (ra rb : RegIx) (off : BitVec 32)
  /-- R267: Branch if greater or equal, signed. -/
  | bge (c : CoreIx) (ra rb : RegIx) (off : BitVec 32)
  /-- R267: Branch if less than, unsigned. -/
  | bltu (c : CoreIx) (ra rb : RegIx) (off : BitVec 32)
  /-- R267: Branch if greater or equal, unsigned. -/
  | bgeu (c : CoreIx) (ra rb : RegIx) (off : BitVec 32)
  /-- R267: Jump relative and link. -/
  | jal (c : CoreIx) (rd : RegIx) (off : BitVec 32)
  /-- R267: Jump to register plus offset and link. -/
  | jalr (c : CoreIx) (rd ra : RegIx) (imm : BitVec 32)
  /-- R269: Return from a trap handler to TRAP_EPC. -/
  | tret (c : CoreIx)
  /-- R270: Scalar load from virtual or local memory. -/
  | ld (c : CoreIx) (rd ra : RegIx) (sz : MemSz) (sgn loc : Bool) (imm : BitVec 32)
  /-- R270: Scalar store to virtual or local memory. -/
  | st (c : CoreIx) (rs ra : RegIx) (sz : MemSz) (loc : Bool) (imm : BitVec 32)
  /-- R272: Predicated 256-byte vector load. -/
  | vld (c : CoreIx) (vd ra : RegIx) (p : PredIx) (t : VTy) (loc : Bool) (imm : BitVec 32)
  /-- R272: Predicated 256-byte vector store. -/
  | vst (c : CoreIx) (vd ra : RegIx) (p : PredIx) (t : VTy) (loc : Bool) (imm : BitVec 32)
  /-- R273: Load a tensor handle from a descriptor or window record. -/
  | thl (c : CoreIx) (th : HndIx) (kind : HndKind) (ra rc : RegIx)
  /-- R274: Read elements through a tensor handle. -/
  | tld (c : CoreIx) (vd : RegIx) (th : HndIx) (p : PredIx) (t : VTy) (adv : Bool)
  /-- R274: Write elements through a tensor handle, staging block-scaled blocks. -/
  | tst (c : CoreIx) (vd : RegIx) (th : HndIx) (p : PredIx) (t : VTy) (adv : Bool)
  /-- R276: Read a handle's cursor. -/
  | thcRead (c : CoreIx) (rd : RegIx) (th : HndIx)
  /-- R276: Set a handle's cursor. -/
  | thcSet (c : CoreIx) (th : HndIx) (rc : RegIx)
  /-- R276: Add to a handle's cursor. -/
  | thcAdd (c : CoreIx) (th : HndIx) (rc : RegIx)
  /-- R278: Floating-point vector add. -/
  | vadd (c : CoreIx) (vd va : RegIx) (b : VB) (p : PredIx) (t : FTy)
  /-- R278: Floating-point vector subtract. -/
  | vsub (c : CoreIx) (vd va : RegIx) (b : VB) (p : PredIx) (t : FTy)
  /-- R278: Floating-point vector multiply. -/
  | vmul (c : CoreIx) (vd va : RegIx) (b : VB) (p : PredIx) (t : FTy)
  /-- R278: Fused multiply-add. -/
  | vfma (c : CoreIx) (vd va : RegIx) (b : VB) (vc : RegIx) (p : PredIx) (t : FTy)
  /-- R278: Fused multiply-subtract. -/
  | vfms (c : CoreIx) (vd va : RegIx) (b : VB) (vc : RegIx) (p : PredIx) (t : FTy)
  /-- R278: Negated fused multiply-add. -/
  | vfnma (c : CoreIx) (vd va : RegIx) (b : VB) (vc : RegIx) (p : PredIx) (t : FTy)
  /-- R278: Floating-point vector minimum. -/
  | vmin (c : CoreIx) (vd va : RegIx) (b : VB) (p : PredIx) (t : FTy)
  /-- R278: Floating-point vector maximum. -/
  | vmax (c : CoreIx) (vd va : RegIx) (b : VB) (p : PredIx) (t : FTy)
  /-- R278: Floating-point absolute value. -/
  | vabs (c : CoreIx) (vd va : RegIx) (p : PredIx) (t : FTy)
  /-- R278: Floating-point negation. -/
  | vneg (c : CoreIx) (vd va : RegIx) (p : PredIx) (t : FTy)
  /-- R278: Floating-point vector divide. -/
  | vdiv (c : CoreIx) (vd va : RegIx) (b : VB) (p : PredIx) (t : FTy)
  /-- R278: Floating-point vector square root. -/
  | vsqrt (c : CoreIx) (vd va : RegIx) (p : PredIx) (t : FTy)
  /-- R279: Integer vector add. -/
  | vaddInt (c : CoreIx) (vd va : RegIx) (b : VB) (p : PredIx) (t : ITy)
  /-- R279: Integer vector subtract. -/
  | vsubInt (c : CoreIx) (vd va : RegIx) (b : VB) (p : PredIx) (t : ITy)
  /-- R279: Integer vector multiply, low bits. -/
  | vmulInt (c : CoreIx) (vd va : RegIx) (b : VB) (p : PredIx) (t : ITy)
  /-- R279: Signed integer vector minimum. -/
  | vminInt (c : CoreIx) (vd va : RegIx) (b : VB) (p : PredIx) (t : ITy)
  /-- R279: Signed integer vector maximum. -/
  | vmaxInt (c : CoreIx) (vd va : RegIx) (b : VB) (p : PredIx) (t : ITy)
  /-- R279: Unsigned integer vector minimum. -/
  | vminu (c : CoreIx) (vd va : RegIx) (b : VB) (p : PredIx) (t : ITy)
  /-- R279: Unsigned integer vector maximum. -/
  | vmaxu (c : CoreIx) (vd va : RegIx) (b : VB) (p : PredIx) (t : ITy)
  /-- R279: Vector bitwise AND. -/
  | vand (c : CoreIx) (vd va : RegIx) (b : VB) (p : PredIx) (t : ITy)
  /-- R279: Vector bitwise OR. -/
  | vor (c : CoreIx) (vd va : RegIx) (b : VB) (p : PredIx) (t : ITy)
  /-- R279: Vector bitwise XOR. -/
  | vxor (c : CoreIx) (vd va : RegIx) (b : VB) (p : PredIx) (t : ITy)
  /-- R279: Vector shift left logical. -/
  | vsll (c : CoreIx) (vd va : RegIx) (b : VB) (p : PredIx) (t : ITy)
  /-- R279: Vector shift right logical. -/
  | vsrl (c : CoreIx) (vd va : RegIx) (b : VB) (p : PredIx) (t : ITy)
  /-- R279: Vector shift right arithmetic. -/
  | vsra (c : CoreIx) (vd va : RegIx) (b : VB) (p : PredIx) (t : ITy)
  /-- R281: Vector compare writing a predicate. -/
  | vcmp (c : CoreIx) (pd : PredIx) (va : RegIx) (b : VB) (p : PredIx) (k : CmpSel)
  /-- R280: Vector type conversion. -/
  | vcvt (c : CoreIx) (vd va : RegIx) (p : PredIx) (t t2 : VTy) (part : BitVec 2)
  /-- R282: Broadcast a scalar to a vector. -/
  | vbcast (c : CoreIx) (vd sr : RegIx) (p : PredIx) (t : ATy)
  /-- R282: Extract a vector element to a scalar. -/
  | vext (c : CoreIx) (rd va sr : RegIx) (t : ATy)
  /-- R282: Permute vector elements. -/
  | vperm (c : CoreIx) (vd va : RegIx) (b : VB) (p : PredIx) (t : ATy)
  /-- R282: Slide vector elements up. -/
  | vslideup (c : CoreIx) (vd va sr : RegIx) (p : PredIx) (t : ATy)
  /-- R282: Slide vector elements down. -/
  | vslidedn (c : CoreIx) (vd va sr : RegIx) (p : PredIx) (t : ATy)
  /-- R282: Ordered sum reduction. -/
  | vredAdd (c : CoreIx) (vd va : RegIx) (p : PredIx) (t : ATy)
  /-- R282: Maximum reduction. -/
  | vredMax (c : CoreIx) (vd va : RegIx) (p : PredIx) (t : ATy)
  /-- R282: Minimum reduction. -/
  | vredMin (c : CoreIx) (vd va : RegIx) (p : PredIx) (t : ATy)
  /-- R282: Write element indices. -/
  | viota (c : CoreIx) (vd : RegIx) (p : PredIx) (t : ITy)
  /-- R282: Predicate AND. -/
  | pand (c : CoreIx) (pd pa pb : PredIx)
  /-- R282: Predicate OR. -/
  | por (c : CoreIx) (pd pa pb : PredIx)
  /-- R282: Predicate XOR. -/
  | pxor (c : CoreIx) (pd pa pb : PredIx)
  /-- R282: Predicate AND NOT. -/
  | pandn (c : CoreIx) (pd pa pb : PredIx)
  /-- R282: Predicate NOT. -/
  | pnot (c : CoreIx) (pd pa : PredIx)
  /-- R282: Set a predicate to all ones. -/
  | pset (c : CoreIx) (pd : PredIx)
  /-- R282: Clear a predicate. -/
  | pclr (c : CoreIx) (pd : PredIx)
  /-- R282: Count set predicate bits into a scalar. -/
  | pcnt (c : CoreIx) (rd : RegIx) (pa : PredIx)
  /-- R282: Index of the lowest set predicate bit. -/
  | pfirst (c : CoreIx) (rd : RegIx) (pa : PredIx)
  /-- R283: Special-function exp. -/
  | vsfExp (c : CoreIx) (vd va : RegIx) (p : PredIx)
  /-- R283: Special-function exp2. -/
  | vsfExp2 (c : CoreIx) (vd va : RegIx) (p : PredIx)
  /-- R283: Special-function log. -/
  | vsfLog (c : CoreIx) (vd va : RegIx) (p : PredIx)
  /-- R283: Special-function log2. -/
  | vsfLog2 (c : CoreIx) (vd va : RegIx) (p : PredIx)
  /-- R283: Special-function reciprocal. -/
  | vsfRecip (c : CoreIx) (vd va : RegIx) (p : PredIx)
  /-- R283: Special-function square root. -/
  | vsfSqrt (c : CoreIx) (vd va : RegIx) (p : PredIx)
  /-- R283: Special-function reciprocal square root. -/
  | vsfRsqrt (c : CoreIx) (vd va : RegIx) (p : PredIx)
  /-- R283: Special-function sine. -/
  | vsfSin (c : CoreIx) (vd va : RegIx) (p : PredIx)
  /-- R283: Special-function cosine. -/
  | vsfCos (c : CoreIx) (vd va : RegIx) (p : PredIx)
  /-- R283: Special-function tanh. -/
  | vsfTanh (c : CoreIx) (vd va : RegIx) (p : PredIx)
  /-- R283: Special-function sigmoid. -/
  | vsfSigmoid (c : CoreIx) (vd va : RegIx) (p : PredIx)
  /-- R283: Special-function erf. -/
  | vsfErf (c : CoreIx) (vd va : RegIx) (p : PredIx)
  /-- R313: Atomic add at the home slice. -/
  | amoAdd (c : CoreIx) (rd ra rb : RegIx) (sz : AmoSz)
  /-- R313: Atomic minimum at the home slice. -/
  | amoMin (c : CoreIx) (rd ra rb : RegIx) (sz : AmoSz)
  /-- R313: Atomic maximum at the home slice. -/
  | amoMax (c : CoreIx) (rd ra rb : RegIx) (sz : AmoSz)
  /-- R313: Atomic swap at the home slice. -/
  | amoSwp (c : CoreIx) (rd ra rb : RegIx) (sz : AmoSz)
  /-- R313: Atomic compare-and-swap at the home slice. -/
  | amoCas (c : CoreIx) (rd ra rb rc : RegIx) (sz : AmoSz)
  /-- R307: Wait for earlier local-space stores. -/
  | fenceL (c : CoreIx)
  /-- R307: Wait for earlier virtual-space accesses and staged blocks. -/
  | fenceS (c : CoreIx)
  /-- R307: Wait for all local, virtual and unit work of the core. -/
  | fenceA (c : CoreIx)
  /-- R285: Wait for every command issued to one unit queue. -/
  | fenceUQueue (c : CoreIx) (t : Target)
  /-- R285: Wait until a token reads COUNT 0. -/
  | fenceUToken (c : CoreIx) (k : TokIx)
  /-- R286: Wait until the tide number reaches a target. -/
  | tideWait (c : CoreIx) (rd : RegIx) (target : TideTarget)
  /-- R287: Barrier across the cores of the running granule. -/
  | bar (c : CoreIx) (id : Fin 16)
  /-- R288: Clear a token's ERR bit. -/
  | tokenSet (c : CoreIx) (k : TokIx)
  /-- R288: Wait for a token and read its ERR bit. -/
  | tokenWait (c : CoreIx) (k : TokIx) (rd : RegIx)
  /-- R289: Read one of the core's own registers. -/
  | csrRd (c : CoreIx) (rd : RegIx) (csr : BitVec 12)
  /-- R289: Write one of the core's own registers. -/
  | csrWr (c : CoreIx) (ra : RegIx) (csr : BitVec 12)
  /-- R290: Read a control-window register. -/
  | ctlRd (c : CoreIx) (rd ra : RegIx)
  /-- R290: Write a control-window register. -/
  | ctlWr (c : CoreIx) (ra rb : RegIx)
  /-- R291: Take trap cause 0x0A. -/
  | trap (c : CoreIx) (imm : BitVec 32)
  /-- R310: Act as FENCE.A and halt the core. -/
  | halt (c : CoreIx)
  /-- R256: A deferred trap record reaches the core and is queued or dropped. -/
  | deferredTrapArrive (c : CoreIx)
  /-- R257: At an instruction boundary the core enters its handler or stops. -/
  | trapEntry (c : CoreIx) (parity : Option ParityFail)
  /-- R247: A stalled instruction issues when its buffer has room. -/
  | issueResume (c : CoreIx)
  /-- R629: A unit command leaves its core-side buffer into the unit's queue. -/
  | commandEnqueue (c : CoreIx) (t : Target)
  /-- R242: A command completion or refusal reaches the core's token. -/
  | tokenCompletion (c : CoreIx)
  /-- R253: A granule's cores have halted and its commands completed. -/
  | granuleComplete (cl : ClusterIx) (cost : BitVec 32)
  /-- R136: Load a stationary tile into BACK. -/
  | panLds (c : CoreIx) (tk : TokIx) (rb : RegIx) (loff : BitVec 14) (turn narrow : Bool) (fold : FoldSel)
  /-- R137: Stream rows against FRONT, optionally swapping in BACK. -/
  | panStr (c : CoreIx) (tk : TokIx) (rb : RegIx) (loff : BitVec 14) (swap win : Bool) (slot : Slot)
  /-- R112: Sequence a whole matrix product over passes. -/
  | panMm (c : CoreIx) (tk : TokIx) (rb : RegIx) (loff : BitVec 14) (turn win : Bool) (slot : Slot) (fold : FoldSel)
  /-- R125: Load a rake control block into a slot. -/
  | panRake (c : CoreIx) (tk : TokIx) (rb : RegIx) (loff : BitVec 14) (slot : Fin 4)
  /-- R132: Submit a thin request to the fill gate. -/
  | panFill (c : CoreIx) (tk : TokIx) (rb : RegIx) (loff : BitVec 14) (turn : Bool) (slot : Slot)
  /-- R133: Fire every open fill-gate batch. -/
  | panFillFlush (c : CoreIx) (tk : TokIx)
  /-- R149: Compute dX and dW from one dY over the twin bus. -/
  | panTwin (c : CoreIx) (tk : TokIx) (rb : RegIx) (loff : BitVec 14) (turn xt : Bool) (xslot : Slot) (side acc : Bool) (gslot : Slot) (tw : TokIx)
  /-- R629: A pan command at the head begins, or is refused. -/
  | panCommandBegin (p : ClusterIx)
  /-- R129: A pass finishes with its tally compared and rake writes done. -/
  | panPassComplete (p : ClusterIx) (ups : List Upset)
  /-- R305: A pan command completes and its token is signalled. -/
  | panCommandComplete (p : ClusterIx)
  /-- R114: After IDLE_CYCLES without a pass the pan gates its clocks. -/
  | panClockGate (p : ClusterIx)
  /-- R511: A suspect unit is run again on another pan. -/
  | replayRun (d : DieIx) (i : Fin 16) (ups : List Upset)
  /-- R512: A disagreeing replay triggers a third run. -/
  | thirdRun (d : DieIx) (i : Fin 16) (ups : List Upset)
  /-- R513: A CORRECTED unit's winning result is written back. -/
  | writeBack (d : DieIx) (i : Fin 16) (ups : List Upset)
  /-- R509: A freed replay record lets a held pan continue. -/
  | replayRecordFreed (d : DieIx)
  /-- R427: Copy elements with conversion or pressing. -/
  | sluCopy (c : CoreIx) (tk : TokIx) (rb : RegIx) (loff : BitVec 14) (sl : SlSel) (press : Press)
  /-- R429: Gather table rows by index. -/
  | sluGather (c : CoreIx) (tk : TokIx) (rb : RegIx) (loff : BitVec 14) (sl : SlSel)
  /-- R429: Scatter rows by index, optionally adding. -/
  | sluScatter (c : CoreIx) (tk : TokIx) (rb : RegIx) (loff : BitVec 14) (sl : SlSel) (add : Bool)
  /-- R428: Add-on-write reduce SRC into DST. -/
  | sluReduce (c : CoreIx) (tk : TokIx) (rb : RegIx) (loff : BitVec 14) (sl : SlSel) (op : RedOp)
  /-- R436: All-reduce over a collective group. -/
  | sluAllReduce (c : CoreIx) (tk : TokIx) (rb : RegIx) (loff : BitVec 14) (sl : SlSel) (op : RedOp)
  /-- R436: Reduce-scatter over a collective group. -/
  | sluReduceScatter (c : CoreIx) (tk : TokIx) (rb : RegIx) (loff : BitVec 14) (sl : SlSel) (op : RedOp)
  /-- R436: All-gather over a collective group. -/
  | sluAllGather (c : CoreIx) (tk : TokIx) (rb : RegIx) (loff : BitVec 14) (sl : SlSel) (op : RedOp)
  /-- R441: All-to-all over a group, by position or by row index. -/
  | sluAllToAll (c : CoreIx) (tk : TokIx) (rb : RegIx) (loff : BitVec 14) (sl : SlSel) (op : RedOp)
  /-- R443: Send a Tuimal WRITE. -/
  | sluXmitWrite (c : CoreIx) (tk : TokIx) (rb : RegIx) (loff : BitVec 14) (sl : SlSel)
  /-- R443: Send a Tuimal READ. -/
  | sluXmitRead (c : CoreIx) (tk : TokIx) (rb : RegIx) (loff : BitVec 14) (sl : SlSel)
  /-- R443: Send a Tuimal RED. -/
  | sluXmitRed (c : CoreIx) (tk : TokIx) (rb : RegIx) (loff : BitVec 14) (sl : SlSel)
  /-- R443: Send a Tuimal SEND to a remote queue. -/
  | sluXmitSend (c : CoreIx) (tk : TokIx) (rb : RegIx) (loff : BitVec 14) (sl : SlSel)
  /-- R445: Wait until a receive queue count reaches a threshold. -/
  | sluWait (c : CoreIx) (tk : TokIx) (rb : RegIx) (loff : BitVec 14) (sl : SlSel)
  /-- R445: A receive queue count reaches the threshold and the wait's token is set. -/
  | sluWaitSatisfied (d : DieIx) (n : Fin 64)
  /-- R422: A sluice starts a queued command after checking it. -/
  | sluCommandStart (i : SluIx)
  /-- R305: A sluice command completes with its writes performed. -/
  | sluCommandComplete (i : SluIx) (k : Fin 4)
  /-- R433: A collective chunk arrives and is checked and combined. -/
  | collChunkReceive (d : DieIx)
  /-- R392: Submit a batch specification to the die's Brine unit. -/
  | brnBatch (c : CoreIx) (tk : TokIx) (rb : RegIx) (loff : BitVec 14)
  /-- R388: Brine begins a queued batch and copies its specification. -/
  | batchBegin (d : DieIx)
  /-- R396: A dictionary load finishes and the batch proceeds. -/
  | dictLoadComplete (d : DieIx)
  /-- R387: A fetched record arrives and is checked, accepted or rejected. -/
  | recordArrive (d : DieIx) (k : Fin 2) (res : Bool) (ix : BitVec 14) (array tries : Fin 5)
  /-- R394: A hardware decode finishes into staging. -/
  | decodeComplete (d : DieIx) (k : Fin 4) (ns : BitVec 32)
  /-- R399: A decode exceeding its budget is abandoned to software. -/
  | decodeOverBudget (d : DieIx) (k : Fin 4) (ns : BitVec 32)
  /-- R417: Outputs and manifest are written and the token set. -/
  | batchComplete (d : DieIx)
  /-- R196: Queue a step RUN on a crystallizer's shard slots. -/
  | xtlRun (c : CoreIx) (tk : TokIx) (rb : RegIx) (lx : Fin 8) (first last : BitVec 8)
  /-- R197: A RUN at the head with its step decided applies or skips its shards. -/
  | xtlRunBegin (x : XtlIx) (tries : List (BitVec 8 × Nat × Fin 5 × Fin 5)) (cut : Option (BitVec 8))
  /-- R199: Seal a step at the gate unit. -/
  | xtlSeal (c : CoreIx) (tk : TokIx) (rb : RegIx) (skip : Bool)
  /-- R248: A SEAL leaves the core buffer once its step's granules are dispatched. -/
  | sealDrain (c : CoreIx)
  /-- R199: A step's local status becomes final and is sent in the status exchange. -/
  | localStatusFinal (p : Fin 4) (i : Fin 8)
  /-- R190: Bind a shard record into a slot. -/
  | xtlBind (c : CoreIx) (tk : TokIx) (rb : RegIx) (loff : BitVec 14) (lx : Fin 8) (slot : BitVec 8)
  /-- R190: Free a shard slot. -/
  | xtlUnbind (c : CoreIx) (tk : TokIx) (lx : Fin 8) (slot : BitVec 8)
  /-- R186: Load a coefficient-table entry. -/
  | xtlEntry (c : CoreIx) (tk : TokIx) (rb : RegIx) (loff : BitVec 14) (lx : Fin 8) (group : BitVec 10)
  /-- R194: Initialise a shard's state from a source tensor. -/
  | xtlInit (c : CoreIx) (tk : TokIx) (rb : RegIx) (loff : BitVec 14) (lx : Fin 8) (slot : BitVec 8)
  /-- R193: Return converted weights of a shard range. -/
  | xtlGather (c : CoreIx) (tk : TokIx) (rb : RegIx) (loff : BitVec 14) (lx : Fin 8) (slot : BitVec 8)
  /-- R211: A crystallizer reset ends and READY sets. -/
  | xtlResetComplete (x : XtlIx)
  /-- R11: A write to a register with no behaviour of its own updates its fields. -/
  | registerWrite (m : Fin 8) (off v : BitVec 64)
  /-- R33: Write the tide period, refused under JOB_LOCK. -/
  | tidePeriodWrite (v : BitVec 64)
  /-- R51: Arm a tide snapshot, or refuse it. -/
  | snapReqWrite (t : BitVec 64)
  /-- R251: Append granules to the ring, or refuse the write. -/
  | grqTailWrite (c : ClusterIx) (t : BitVec 6)
  /-- R258: Kill a core's work and halt it. -/
  | coreKill (c : CoreIx)
  /-- R254: Start a halted or stopped core at CORE_PC. -/
  | coreStart (c : CoreIx)
  /-- R211: Request a crystallizer reset. -/
  | xtlCtlReset (x : XtlIx) (force : Bool)
  /-- R143: Program a spare fuse, counted in the ledger. -/
  | panFuseProgWrite (p : ClusterIx) (v : BitVec 16)
  /-- R360: Stacker ALLOC request places pages. -/
  | stkAlloc (v : BitVec 64)
  /-- R363: Stacker FREE request unmaps and returns frames. -/
  | stkFree (v : BitVec 64)
  /-- R371: Stacker MOVE request moves a parked logical die. -/
  | stkMove (v : BitVec 64)
  /-- R371: The MOVE copy completes and event 0x1307 is raised. -/
  | stkMoveComplete
  /-- R368: Start a translation-cache invalidation on a die. -/
  | mmuInvalidate (d : DieIx) (v : BitVec 64)
  /-- R379: Evacuate a stack's stranded pages again. -/
  | evacRetry (k : Fin 16)
  /-- R384: Enable a Brine unit and claim its tap. -/
  | brineEnable (d : DieIx)
  /-- R384: Disable a Brine unit and release its claim. -/
  | brineDisable (d : DieIx)
  /-- R401: Software completes a ring entry through BRN_SOFT_CPL. -/
  | softCompletion (d : DieIx) (entry : BitVec 10) (status : BitVec 2)
  /-- R461: Enable or disable a port. -/
  | linkEnable (p : PortIx) (v : BitVec 64)
  /-- R476: Clear a disabled port's lane retirements. -/
  | linkUnretire (p : PortIx)
  /-- R497: Send the knock pattern on lane 0, or refuse. -/
  | knockSend (p : PortIx)
  /-- R458: Release a laser source module, or refuse. -/
  | laserCtlRelease (b : Fin 16)
  /-- R482: Validate a connection entry and reset its MSNs. -/
  | tuConnValidWrite (d : DieIx) (j : Fin 2048) (die : Fin 4) (dev : BitVec 16)
  /-- R515: Release the held units of a step. -/
  | redoRelease (step : BitVec 48) (p : PartIx)
  /-- R522: Firmware sets a fence bit. -/
  | fenceSet (u : FenceUnit)
  /-- R522: Firmware clears a fence bit, refused in SERVICE. -/
  | fenceClear (u : FenceUnit)
  /-- R519: Switch integrity mode, fencing suspects on SERVICE. -/
  | intModeWrite (v : BitVec 64)
  /-- R525: Enable a check-value unit and claim its tap. -/
  | cvEnable (n : Fin 16) (v : BitVec 64)
  /-- R526: Start a check-value context. -/
  | cvContextStart (n : Fin 16) (k : Fin 16) (v : BitVec 64)
  /-- R527: Write a context's running register between lines. -/
  | cvValWrite (n : Fin 16) (k : Fin 16) (v : BitVec 64)
  /-- R528: Enable trace and claim its tap and buffer. -/
  | traceEnable (d : DieIx) (v : BitVec 64)
  /-- R532: Raise the power class, counted in the ledger. -/
  | pwrClassWrite (c : Fin 4)
  /-- R534: Arm a cap schedule, or refuse it. -/
  | pwrCapSchedWrite (v : BitVec 64)
  /-- R537: Set the grant order, ignored if not a permutation. -/
  | pwrOrderWrite (v : BitVec 64)
  /-- R537: Set domain floors, ignored beyond limits. -/
  | pwrFloorWrite (v : BitVec 64)
  /-- R552: Arm a partition's energy mark, or refuse it. -/
  | energyMarkWrite (p : PartIx) (t : BitVec 64)
  /-- R555: Request M0: wake, latch or cancel as the state requires. -/
  | pwrReqM0
  /-- R555: Request entry to M1. -/
  | pwrReqM1
  /-- R555: Request entry to M2. -/
  | pwrReqM2
  /-- R555: Request entry to M3. -/
  | pwrReqM3
  /-- R566: The primary's heartbeat write feeds the watchdog. -/
  | heartbeatWrite (v : BitVec 64)
  /-- R574: Advance the lifecycle state. -/
  | secLifecycleWrite (st : Fin 4)
  /-- R575: Raise the active owner-key slot. -/
  | secOwnerKeyWrite (k : BitVec 5)
  /-- R573: Open JTAG debug access until cold boot. -/
  | secDebugUnlock
  /-- R598: A firmware owner claims a resource. -/
  | claim (o : BitVec 8) (r : BitVec 16)
  /-- R598: A firmware owner releases a resource. -/
  | claimRelease (o : BitVec 8) (r : BitVec 16)
  /-- R598: Query a resource's holder. -/
  | claimQuery (o : BitVec 8) (r : BitVec 16)
  /-- R591: Mailbox request to end the job. -/
  | mboxEnd (p : PartIx)
  /-- R591: Mailbox request to allocate memory. -/
  | mboxAlloc (p : PartIx)
  /-- R591: Mailbox request to free memory. -/
  | mboxFree (p : PartIx)
  /-- R591: Mailbox request to move a logical die. -/
  | mboxMove (p : PartIx)
  /-- R593: Write a checkpoint plan with CRC-64 index. -/
  | ckptWrite (p : PartIx) (plan : List CkptRegion) (t : CkptTarget)
  /-- R593: Restore and verify a checkpoint. -/
  | ckptRead (p : PartIx) (plan : List CkptRegion) (back : List (List Byte × BitVec 64))
  /-- R591: Mailbox request for a tide snapshot. -/
  | mboxSnapshot (p : PartIx)
  /-- R591: A mailbox write with bit 1 set clears DROPPED. -/
  | mboxClearDropped (p : PartIx)
  /-- R576: A TLS management session is authenticated and its role set. -/
  | sessionOpen (ses : Fin 16) (o : SesOffer)
  /-- R579: Open a controller session and report ring state. -/
  | hello (h : CmdHdr)
  /-- R585: Acknowledge events up to a sequence number. -/
  | evtAck (h : CmdHdr) (n : BitVec 64)
  /-- R578: Read job, partition or register state. -/
  | query (h : CmdHdr) (q : Query)
  /-- R588: Submit a job manifest and start a partition. -/
  | jobSubmit (h : CmdHdr) (bad : Bool) (m : Manifest)
  /-- R590: Abort a job. -/
  | jobAbort (h : CmdHdr) (bad : Bool) (id : BitVec 64)
  /-- R590: Firmware ends a job and frees its partition. -/
  | jobEnd (p : PartIx) (why : EndWhy)
  /-- R578: Set the cap or a cap schedule. -/
  | setCap (h : CmdHdr) (bad : Bool) (cap : BitVec 9) (target : Option (BitVec 48))
  /-- R578: Request a tide snapshot. -/
  | snapshot (h : CmdHdr) (bad : Bool) (t : BitVec 64)
  /-- R578: Request a power state. -/
  | powerState (h : CmdHdr) (bad : Bool) (t : Fin 4)
  /-- R578: Release a laser bay. -/
  | laserRelease (h : CmdHdr) (bad : Bool) (b : Fin 16)
  /-- R578: Reset a crystallizer. -/
  | xtlReset (h : CmdHdr) (bad : Bool) (x : XtlIx) (force : Bool)
  /-- R578: Set or clear a fence bit. -/
  | fence (h : CmdHdr) (bad : Bool) (u : FenceUnit) (set : Bool)
  /-- R578: Write a verified image into the inactive slot. -/
  | fwStage (h : CmdHdr) (bad : Bool) (i : SlotImage)
  /-- R595: Hand over to a staged image at a target tide. -/
  | fwActivate (h : CmdHdr) (bad : Bool) (k : Fin 2) (t : BitVec 64)
  /-- R595: At the target edge the new instance takes the primary role. -/
  | fwHandover (ok : Bool)
  /-- R596: Load Brine microcode or a calibration table. -/
  | ucodeLoad (h : CmdHdr) (bad : Bool) (u : Ucode)
  /-- R578: Raise the power class. -/
  | classRaise (h : CmdHdr) (bad : Bool) (c : Fin 4)
  /-- R575: Rotate the owner key. -/
  | ownerRotate (h : CmdHdr) (bad : Bool) (hash : List Byte)
  /-- R574: Advance the lifecycle. -/
  | lifecycle (h : CmdHdr) (bad : Bool) (st : Fin 4)
  /-- R578: Unlock debug with a signed token. -/
  | debugUnlock (h : CmdHdr) (bad : Bool) (token : List Byte)
  /-- R578: Program a pan spare fuse. -/
  | fuseProg (h : CmdHdr) (bad : Bool) (p : ClusterIx) (v : BitVec 64)
  /-- R584: Firmware moves FIFO records into the event ring. -/
  | eventRingAppend
  /-- R550: The broker redistributes cap among the job's modules. -/
  | balanceRound (p : PartIx) (parts : List BalPart) (t : BitVec 64)
  /-- R594: Answer an HTTPS GET /metrics from snapshot shadows. -/
  | metricsGet
  /-- R620: Set the I3C register index and write from it. -/
  | i3cPrivateWrite (bytes : List Byte)
  /-- R620: Read I3C registers from the index. -/
  | i3cPrivateRead (n : BitVec 8)
  /-- R619: I3C enable events. -/
  | enec (events : BitVec 8)
  /-- R619: I3C disable events. -/
  | disec (events : BitVec 8)
  /-- R619: I3C reset dynamic address. -/
  | rstdaa
  /-- R619: I3C dynamic address assignment by provisioned ID. -/
  | entdaa (a : BitVec 7)
  /-- R619: I3C set dynamic address from static 0x2A. -/
  | setdasa (static_ a : BitVec 7)
  /-- R619: I3C read provisioned ID. -/
  | getpid
  /-- R619: I3C read bus characteristics register. -/
  | getbcr
  /-- R619: I3C read device characteristics register. -/
  | getdcr
  /-- R619: I3C read device status. -/
  | getstatus
  /-- R621: JTAG drive boundary cells while in reset. -/
  | extest (pins cells : BitVec 13)
  /-- R621: JTAG read the identification code. -/
  | idcode
  /-- R621: JTAG sample or preload boundary cells. -/
  | samplePreload (pins cells : BitVec 13)
  /-- R621: JTAG reach the management debug modules when unlocked. -/
  | dbgAccess
  /-- R621: JTAG bypass. -/
  | bypass
  /-- R621: TRST_L low or five TMS-high cycles reset the test port. -/
  | tapReset
  /-- R499: An Ethernet-personality port achieves PCS and FEC lock and its link comes up, raising event 0x170C with the up bit set. -/
  | ethLinkUp (p : Fin 8)
  /-- R529: VIN returns within 60-80 V, ending an excursion so that VIN_LOW clears and a later excursion can raise event 0x0201 again, and a PWR_EN waiting for 60 V proceeds. -/
  | vinReturn (vin : BitVec 16) (slot : BitVec 6)
  /-- R545: The supply dip recovers to less than TH minus 10 mV, so clock stretching stops, or at OP7 the droop pan hold of R546 ends. -/
  | droopRecovery (d : DieIx) (n : BitVec 32)
  /-- R457: 100 µs after the partner laser reaches full output the engine stops setting LSW, and the lane-error and signal-loss mask ends 100 µs after the last LSW flit. -/
  | lswWindowEnd (w : LswEnd)
  /-- R623: A RELEASED laser source module is withdrawn from its bay, which then reads EMPTY. -/
  | laserRemoved (b : Fin 16)
  /-- R497: The last repeat of a knock pattern ends, GO clears and training light resumes when ENABLE is 1. -/
  | knockComplete (p : PortIx)
  /-- R302: A core's load, store, AMO or CTL access is performed at its home slice or the window, returning data through the scoreboard. -/
  | accessPerformed (c : CoreIx) (i : Nat) (tries : Tries)
  /-- R197: A crystallizer RUN, INIT or XTL.GATHER finishes its last slot or element and signals completion for its token. -/
  | xtlCommandComplete (x : XtlIx) (tries : List (BitVec 8 × Nat × Fin 5 × Fin 5))
  /-- R261: A core issues a word whose OPC or function field is not assigned and takes precise trap cause 0x01. -/
  | unassignedOpcode (c : CoreIx) (w : BitVec 64)
  /-- R587: ALIGNED has not read 1 within 10 s of a job start, and JOB_SUBMIT retires NOT_ALIGNED, leaving nothing behind. -/
  | alignTimeout (p : PartIx)
  /-- R550: When the balancing broker sends nothing for 1000 tides, the module with the next lowest device id becomes the broker. -/
  | brokerTakeover (p : PartIx)
  deriving DecidableEq, Repr

end Sys2Proof
end

