-- ==== Sys2Proof/Machine/Sparse.lean ====
section
/-! DEFINITION. Sparse maps in one canonical form: a list of (key, value) pairs, keys strictly rising, and no
entry whose value is what an unlisted key reads as. Memory, registers, counters and local memories are held so,
so that equal contents are equal data. -/

namespace Sys2Proof.Machine

variable {α : Type}

/-- The value at `k`: what the list gives, else the default of the key. -/
def mapGet (dflt : Nat → α) : List (Nat × α) → Nat → α
  | [], k => dflt k
  | (k', v) :: r, k => if k = k' then v else if k < k' then dflt k else mapGet dflt r k

/-- Writes `v` at `k`, keeping the canonical form: writing the default removes the entry. -/
def mapPut [DecidableEq α] (dflt : Nat → α) (k : Nat) (v : α) : List (Nat × α) → List (Nat × α)
  | [] => if v = dflt k then [] else [(k, v)]
  | (k', v') :: r =>
    if k < k' then
      if v = dflt k then (k', v') :: r else (k, v) :: (k', v') :: r
    else if k = k' then
      if v = dflt k then r else (k, v) :: r
    else (k', v') :: mapPut dflt k v r

/-- Writes `v` at `k`, listed whatever it is. -/
def mapSet (k : Nat) (v : α) : List (Nat × α) → List (Nat × α)
  | [] => [(k, v)]
  | (k', v') :: r =>
    if k < k' then (k, v) :: (k', v') :: r else if k = k' then (k, v) :: r else (k', v') :: mapSet k v r

/-- The keys of a list rise strictly and lie above `lo`. -/
def mapSorted (lo : Option Nat) : List (Nat × α) → Bool
  | [] => true
  | (k, _) :: r =>
    (match lo with
      | none => true
      | some l => decide (l < k)) && mapSorted (some k) r

/-- No entry holds the default of its key. -/
def mapTrim [DecidableEq α] (dflt : Nat → α) : List (Nat × α) → Bool
  | [] => true
  | (k, v) :: r => !decide (v = dflt k) && mapTrim dflt r

/-- The canonical form. -/
def mapWf [DecidableEq α] (dflt : Nat → α) (m : List (Nat × α)) : Bool :=
  mapSorted none m && mapTrim dflt m

/-- Writes a list of (key, value) pairs, first to last. -/
def mapPuts [DecidableEq α] (dflt : Nat → α) : List (Nat × α) → List (Nat × α) → List (Nat × α)
  | [], m => m
  | (k, v) :: r, m => mapPuts dflt r (mapPut dflt k v m)

/-- Removes every entry whose key `p` picks (those keys then read as the default). -/
def mapDrop (p : Nat → Bool) : List (Nat × α) → List (Nat × α)
  | [] => []
  | (k, v) :: r => if p k then mapDrop p r else (k, v) :: mapDrop p r

/-! Finite sets of naturals, as sorted lists without repeats. -/

/-- Whether `k` is in the set. -/
def setHas (k : Nat) (m : List Nat) : Bool := m.contains k

/-- Adds `k`. -/
def setAdd (k : Nat) : List Nat → List Nat
  | [] => [k]
  | x :: r => if k < x then k :: x :: r else if k = x then x :: r else x :: setAdd k r

/-- Removes `k`. -/
def setDel (k : Nat) : List Nat → List Nat
  | [] => []
  | x :: r => if k = x then r else x :: setDel k r

/-! Association lists keyed by any comparable data, first entry wins. -/

/-- The value of the first entry with key `k`. -/
def assoc {κ : Type} [DecidableEq κ] (k : κ) : List (κ × α) → Option α
  | [] => none
  | (k', v) :: r => if k = k' then some v else assoc k r

/-- Replaces the entry of `k`, or appends one. -/
def assocPut {κ : Type} [DecidableEq κ] (k : κ) (v : α) : List (κ × α) → List (κ × α)
  | [] => [(k, v)]
  | (k', v') :: r => if k = k' then (k, v) :: r else (k', v') :: assocPut k v r

/-- Drops the entry of `k`. -/
def assocDel {κ : Type} [DecidableEq κ] (k : κ) : List (κ × α) → List (κ × α)
  | [] => []
  | (k', v') :: r => if k = k' then r else (k', v') :: assocDel k r

end Sys2Proof.Machine
end

