-- ==== Sys2Proof/Machine/RegTable.lean ====
section
/-! DEFINITION. The registers and counters of the control window, as the chapters' register tables list them:
offset, copies, the bits of each access code (R11 to R14 of 00_scope.md), the bits marked firmware only, and the
reset value. Offsets of the device, power, integrity and management blocks are from the base of the window; those
of the other blocks from the base of the block. -/

namespace Sys2Proof.Machine

/-- One row of a register table: `n` copies from `off`, `stride` apart. `rw`, `rwt`, `rwl`, `w1c`, `w1s`, `wo`
are the bits of each access code, `fw` those marked firmware only, `reset` the value after reset. -/
structure RegDesc where
  off : Nat
  stride : Nat
  n : Nat
  rw : BitVec 64
  rwt : BitVec 64
  rwl : BitVec 64
  w1c : BitVec 64
  w1s : BitVec 64
  wo : BitVec 64
  fw : BitVec 64
  reset : BitVec 64
  deriving DecidableEq, Repr

/-- One row of a counter table: live values at `off + s1*a + s2*b`, shadows 8 bytes above (R48). -/
structure CtrDesc where
  off : Nat
  s1 : Nat
  n1 : Nat
  s2 : Nat
  n2 : Nat
  deriving DecidableEq, Repr

/-- Device registers. -/
def regsOf_dev : List RegDesc := [
  -- DEV_ID
  ⟨0x0, 0x8, 1, 0x0, 0x0, 0x0, 0x0, 0x0, 0x0, 0x0, 0x4B47F80100004200⟩,
  -- DEV_SERIAL
  ⟨0x8, 0x8, 1, 0x0, 0x0, 0x0, 0x0, 0x0, 0x0, 0x0, 0x0⟩,
  -- TIDE_PERIOD
  ⟨0x1000, 0x8, 1, 0x0, 0x3, 0x0, 0x0, 0x0, 0x0, 0x0, 0x1⟩,
  -- TIDE_NUM
  ⟨0x1008, 0x8, 1, 0x0, 0x0, 0x0, 0x0, 0x0, 0x0, 0x0, 0x0⟩,
  -- TIDE_NUM_SHADOW
  ⟨0x1010, 0x8, 1, 0x0, 0x0, 0x0, 0x0, 0x0, 0x0, 0x0, 0x0⟩,
  -- TIDE_NS
  ⟨0x1018, 0x8, 1, 0x0, 0x0, 0x0, 0x0, 0x0, 0x0, 0x0, 0x0⟩,
  -- TIDE_SYNC
  ⟨0x1020, 0x8, 1, 0xFFFF000000000007, 0x0, 0x0, 0x0, 0x0, 0x0, 0x0, 0x0⟩,
  -- TIDE_OFFSET_ERR
  ⟨0x1028, 0x8, 1, 0x0, 0x0, 0x0, 0x0, 0x0, 0x0, 0x0, 0x0⟩,
  -- TIDE_LOCK
  ⟨0x1030, 0x8, 1, 0x1, 0x0, 0x0, 0x0, 0x0, 0x0, 0x0, 0x0⟩,
  -- SNAP_REQ
  ⟨0x1040, 0x8, 1, 0xFFFFFFFFFFFFFFFF, 0x0, 0x0, 0x0, 0x0, 0x0, 0x0, 0x0⟩,
  -- SNAP_STATUS
  ⟨0x1048, 0x8, 1, 0x0, 0x0, 0x0, 0x6, 0x0, 0x0, 0x0, 0x0⟩,
  -- LEDGER_STATUS
  ⟨0x2000, 0x8, 1, 0x0, 0x0, 0x0, 0x0, 0x0, 0x0, 0x0, 0x0⟩,
  -- LEDGER_USED
  ⟨0x2008, 0x8, 1, 0x0, 0x0, 0x0, 0x0, 0x0, 0x0, 0x0, 0x0⟩,
  -- LEDGER_IDX
  ⟨0x2010, 0x8, 1, 0x7FF, 0x0, 0x0, 0x0, 0x0, 0x0, 0x0, 0x0⟩,
  -- LEDGER_ENTRY_w
  ⟨0x2018, 0x8, 4, 0x0, 0x0, 0x0, 0x0, 0x0, 0x0, 0x0, 0x0⟩,
  -- CLAIM_REQ
  ⟨0x3000, 0x8, 1, 0x0, 0x0, 0x0, 0x0, 0x0, 0xFF3000FFFF, 0x30000000, 0x0⟩,
  -- CLAIM_STATUS
  ⟨0x3008, 0x8, 1, 0x0, 0x0, 0x0, 0x0, 0x0, 0x0, 0x0, 0x0⟩
]

/-- Power and thermal registers. -/
def regsOf_pwr : List RegDesc := [
  -- PWR_STATUS
  ⟨0x100000, 0x8, 1, 0x0, 0x0, 0x0, 0xFF000, 0x0, 0x0, 0x0, 0x0⟩,
  -- PWR_CLASS
  ⟨0x100008, 0x8, 1, 0x0, 0x0, 0x3, 0x0, 0x0, 0x0, 0x0, 0x0⟩,
  -- PWR_CAP
  ⟨0x100010, 0x8, 1, 0x0, 0x1FF, 0x0, 0x0, 0x0, 0x0, 0x0, 0x0⟩,
  -- PWR_CAP_SCHED
  ⟨0x100018, 0x8, 1, 0xFFFFFFFFFFFF01FF, 0x0, 0x0, 0x0, 0x0, 0x0, 0x0, 0x0⟩,
  -- PWR_ORDER
  ⟨0x100020, 0x8, 1, 0x0, 0x3F, 0x0, 0x0, 0x0, 0x0, 0x0, 0x6⟩,
  -- PWR_FLOOR
  ⟨0x100028, 0x8, 1, 0x0, 0xFFFFFF, 0x0, 0x0, 0x0, 0x0, 0x0, 0x141814⟩,
  -- PWR_DEMAND
  ⟨0x100030, 0x8, 1, 0x0, 0x0, 0x0, 0x0, 0x0, 0x0, 0x0, 0x0⟩,
  -- PWR_GRANT
  ⟨0x100038, 0x8, 1, 0x0, 0x0, 0x0, 0x0, 0x0, 0x0, 0x0, 0x0⟩,
  -- PWR_EST_MEAS
  ⟨0x100040, 0x8, 1, 0x0, 0x0, 0x0, 0x0, 0x0, 0x0, 0x0, 0x0⟩,
  -- PWR_DIE_d
  ⟨0x100100, 0x8, 4, 0x0, 0x0, 0x0, 0x0, 0x0, 0x0, 0x0, 0xF00⟩,
  -- PWR_PHASE_p
  ⟨0x100140, 0x8, 4, 0x0, 0xF, 0x0, 0x0, 0x0, 0x0, 0x0, 0xF⟩,
  -- PWR_DROOP_CFG
  ⟨0x100180, 0x8, 1, 0xFFFFFFFF0000FF03, 0x0, 0x0, 0x0, 0x0, 0x0, 0x0, 0x6403E800003C03⟩,
  -- PWR_THERM_CFG
  ⟨0x100188, 0x8, 1, 0xFF, 0x0, 0x0, 0x0, 0x0, 0x0, 0x0, 0x5F⟩,
  -- PWR_BAL_SLACK
  ⟨0x100190, 0x8, 1, 0x0, 0x0, 0x0, 0x0, 0x0, 0x0, 0x0, 0x0⟩,
  -- PWR_STATE_REQ
  ⟨0x100200, 0x8, 1, 0x3, 0x0, 0x0, 0x0, 0x100, 0x0, 0x100, 0x0⟩,
  -- PWR_WAKE_CFG
  ⟨0x100208, 0x8, 1, 0x1F, 0x0, 0x0, 0x0, 0x0, 0x0, 0x0, 0xF⟩,
  -- PWR_WAKE_STATUS
  ⟨0x100210, 0x8, 1, 0x0, 0x0, 0x0, 0xFF, 0x0, 0x0, 0x0, 0x0⟩,
  -- PWR_WAKE_LIGHT
  ⟨0x100218, 0x8, 1, 0xFFFFFFFFFFFFFFFF, 0x0, 0x0, 0x0, 0x0, 0x0, 0x0, 0xFFFFFFFFFFFFFFFF⟩,
  -- PWR_KNOCK_PAT
  ⟨0x100220, 0x8, 1, 0xFFFFFFFFFFFFFFFF, 0x0, 0x0, 0x0, 0x0, 0x0, 0x0, 0xA5C31E7B6D92F048⟩,
  -- PWR_ALARM
  ⟨0x100228, 0x8, 1, 0xFFFFFFFFFFFFFFFF, 0x0, 0x0, 0x0, 0x0, 0x0, 0x0, 0x0⟩,
  -- PWR_M2_KEEP
  ⟨0x100230, 0x8, 1, 0xFFFFFFFFFFFFFFFF, 0x0, 0x0, 0x0, 0x0, 0x0, 0x0, 0x0⟩,
  -- PWR_ENERGY_MARK_p
  ⟨0x100240, 0x10, 4, 0xFFFFFFFFFFFFFFFF, 0x0, 0x0, 0x0, 0x0, 0x0, 0xFFFFFFFFFFFFFFFF, 0x0⟩,
  -- PWR_ENERGY_VAL_p
  ⟨0x100248, 0x10, 4, 0x0, 0x0, 0x0, 0x0, 0x0, 0x0, 0x0, 0x0⟩
]

/-- Integrity and trace registers. -/
def regsOf_int : List RegDesc := [
  -- INT_CTL
  ⟨0x210000, 0x8, 1, 0x19, 0x0, 0x0, 0x0, 0x0, 0x0, 0x1, 0x8⟩,
  -- INT_STATUS
  ⟨0x210008, 0x8, 1, 0x0, 0x0, 0x0, 0x0, 0x0, 0x0, 0x0, 0x0⟩,
  -- INT_SUSPECT_CFG
  ⟨0x210010, 0x8, 1, 0xFFFFFFFF000000FF, 0x0, 0x0, 0x0, 0x0, 0x0, 0x0, 0x98968000000003⟩,
  -- INT_SELFTEST_CFG
  ⟨0x210018, 0x8, 1, 0xFFFFFFFFFFFF00FF, 0x0, 0x0, 0x0, 0x0, 0x0, 0x0, 0xF424000640010⟩,
  -- INT_CLASS_k
  ⟨0x210040, 0x8, 5, 0xFFFFFFFFFFFFFFFF, 0x0, 0x0, 0x0, 0x0, 0x0, 0x0, 0x186A000000000⟩,
  -- INT_HELD_p
  ⟨0x210080, 0x8, 4, 0x0, 0x0, 0x0, 0x0, 0x0, 0x0, 0x0, 0x0⟩,
  -- INT_REDO_REL
  ⟨0x2100A0, 0x8, 1, 0x0, 0x0, 0x0, 0x0, 0x0, 0xFFFFFFFFFFFF0003, 0x0, 0x0⟩,
  -- INT_FENCE_ENG_h
  ⟨0x210100, 0x8, 2, 0xFFFFFFFFFFFFFFFF, 0x0, 0x0, 0x0, 0x0, 0x0, 0x0, 0x0⟩,
  -- INT_FENCE_PAN
  ⟨0x210110, 0x8, 1, 0xFF, 0x0, 0x0, 0x0, 0x0, 0x0, 0x0, 0x0⟩,
  -- INT_FENCE_CORE_h
  ⟨0x210118, 0x8, 2, 0xFFFFFFFFFFFFFFFF, 0x0, 0x0, 0x0, 0x0, 0x0, 0x0, 0x0⟩,
  -- INT_FENCE_SLU
  ⟨0x210128, 0x8, 1, 0xFFFFFFFF, 0x0, 0x0, 0x0, 0x0, 0x0, 0x0, 0x0⟩,
  -- INT_FENCE_WAY_c
  ⟨0x210140, 0x8, 8, 0xFFFFFFFF, 0x0, 0x0, 0x0, 0x0, 0x0, 0x0, 0x0⟩,
  -- INT_FENCE_XCH_h
  ⟨0x210180, 0x8, 2, 0xFFFFFFFFFFFFFFFF, 0x0, 0x0, 0x0, 0x0, 0x0, 0x0, 0x0⟩,
  -- INT_SUSPECT_ENG_h
  ⟨0x210200, 0x8, 2, 0x0, 0x0, 0x0, 0xFFFFFFFFFFFFFFFF, 0x0, 0x0, 0x0, 0x0⟩,
  -- INT_SUSPECT_PAN
  ⟨0x210210, 0x8, 1, 0x0, 0x0, 0x0, 0xFF, 0x0, 0x0, 0x0, 0x0⟩,
  -- INT_SUSPECT_CORE_h
  ⟨0x210218, 0x8, 2, 0x0, 0x0, 0x0, 0xFFFFFFFFFFFFFFFF, 0x0, 0x0, 0x0, 0x0⟩,
  -- INT_SUSPECT_SLU
  ⟨0x210228, 0x8, 1, 0x0, 0x0, 0x0, 0xFFFFFFFF, 0x0, 0x0, 0x0, 0x0⟩,
  -- INT_SUSPECT_WAY_c
  ⟨0x210240, 0x8, 8, 0x0, 0x0, 0x0, 0xFFFFFFFF, 0x0, 0x0, 0x0, 0x0⟩,
  -- INT_SUSPECT_XCH_h
  ⟨0x210280, 0x8, 2, 0x0, 0x0, 0x0, 0xFFFFFFFFFFFFFFFF, 0x0, 0x0, 0x0, 0x0⟩,
  -- TRACE_CTL_d
  ⟨0x220000, 0x100, 4, 0xFFF5, 0x0, 0x0, 0x0, 0x0, 0x0, 0x1, 0x4⟩,
  -- TRACE_BASE_d
  ⟨0x220008, 0x100, 4, 0xFFFFFFFF0000, 0x0, 0x0, 0x0, 0x0, 0x0, 0x0, 0x0⟩,
  -- TRACE_LEN_d
  ⟨0x220010, 0x100, 4, 0xFFFFFFFF0000, 0x0, 0x0, 0x0, 0x0, 0x0, 0x0, 0x0⟩,
  -- TRACE_PTR_d
  ⟨0x220018, 0x100, 4, 0x0, 0x0, 0x0, 0x0, 0x0, 0x0, 0x0, 0x0⟩
]

/-- Management registers. -/
def regsOf_mgmt : List RegDesc := [
  -- MGMT_STATUS
  ⟨0x300000, 0x8, 1, 0x0, 0x0, 0x0, 0x0, 0x0, 0x0, 0x0, 0x0⟩,
  -- MGMT_BOOT
  ⟨0x300008, 0x8, 1, 0x0, 0x0, 0x0, 0x0, 0x0, 0x0, 0x0, 0x0⟩,
  -- MGMT_HEARTBEAT
  ⟨0x300010, 0x8, 1, 0xFFFFFFFFFFFFFFFF, 0x0, 0x0, 0x0, 0x0, 0x0, 0xFFFFFFFFFFFFFFFF, 0x0⟩,
  -- MGMT_WD
  ⟨0x300018, 0x8, 1, 0xFFFFFFFFFFFFFFFF, 0x0, 0x0, 0x0, 0x0, 0x0, 0x0, 0x1F400000064⟩,
  -- MGMT_ACTOR
  ⟨0x300020, 0x8, 1, 0xFFFFFFFFFFFF0003, 0x0, 0x0, 0x0, 0x0, 0x0, 0xFFFFFFFFFFFF0000, 0x0⟩,
  -- MGMT_ACCEPTED_SEQ
  ⟨0x300030, 0x8, 1, 0xFFFFFFFFFFFFFFFF, 0x0, 0x0, 0x0, 0x0, 0x0, 0xFFFFFFFFFFFFFFFF, 0x0⟩,
  -- MGMT_RETIRED_SEQ
  ⟨0x300038, 0x8, 1, 0xFFFFFFFFFFFFFFFF, 0x0, 0x0, 0x0, 0x0, 0x0, 0xFFFFFFFFFFFFFFFF, 0x0⟩,
  -- MGMT_EVT_SEQ
  ⟨0x300040, 0x8, 1, 0xFFFFFFFFFFFFFFFF, 0x0, 0x0, 0x0, 0x0, 0x0, 0xFFFFFFFFFFFFFFFF, 0x0⟩,
  -- MGMT_PART
  ⟨0x300100, 0x8, 1, 0x83838383, 0x0, 0x0, 0x0, 0x0, 0x0, 0x83838383, 0x0⟩,
  -- MGMT_PT_BASE_p
  ⟨0x300120, 0x8, 4, 0xFFFFFFFF0001, 0x0, 0x0, 0x0, 0x0, 0x0, 0xFFFFFFFF0000, 0x0⟩,
  -- MGMT_MBOX_p
  ⟨0x300140, 0x8, 4, 0xFFFFFFFFFFFFC0, 0x0, 0x0, 0x2, 0x0, 0x0, 0x0, 0x0⟩,
  -- SEC_LIFECYCLE
  ⟨0x300200, 0x8, 1, 0x0, 0x0, 0x3, 0x0, 0x0, 0x0, 0x0, 0x0⟩,
  -- SEC_OWNER_KEY
  ⟨0x300208, 0x8, 1, 0x0, 0x0, 0x1F, 0x0, 0x0, 0x0, 0x0, 0x0⟩,
  -- SEC_DEBUG
  ⟨0x300210, 0x8, 1, 0x0, 0x0, 0x1, 0x0, 0x0, 0x0, 0x0, 0x0⟩
]

/-- Check-value unit registers. -/
def regsOf_cv : List RegDesc := [
  -- CV_CTL
  ⟨0x0, 0x8, 1, 0x7FFF07, 0x0, 0x0, 0x0, 0x0, 0x0, 0x1, 0x200006⟩,
  -- CV_POLY
  ⟨0x8, 0x8, 1, 0xFFFFFFFFFFFFFFFF, 0x0, 0x0, 0x0, 0x0, 0x0, 0x0, 0x1EDC6F41⟩,
  -- CV_INIT
  ⟨0x10, 0x8, 1, 0xFFFFFFFFFFFFFFFF, 0x0, 0x0, 0x0, 0x0, 0x0, 0x0, 0xFFFFFFFF⟩,
  -- CV_XOROUT
  ⟨0x18, 0x8, 1, 0xFFFFFFFFFFFFFFFF, 0x0, 0x0, 0x0, 0x0, 0x0, 0x0, 0xFFFFFFFF⟩,
  -- CV_STATUS
  ⟨0x20, 0x8, 1, 0x0, 0x0, 0x0, 0xFFFF0000, 0x0, 0x0, 0x0, 0x0⟩,
  -- CV_CTX_VAL_k
  ⟨0x100, 0x40, 16, 0xFFFFFFFFFFFFFFFF, 0x0, 0x0, 0x0, 0x0, 0x0, 0x0, 0x0⟩,
  -- CV_CTX_RES_k
  ⟨0x108, 0x40, 16, 0x0, 0x0, 0x0, 0x0, 0x0, 0x0, 0x0, 0x0⟩,
  -- CV_CTX_BASE_k
  ⟨0x110, 0x40, 16, 0x80FFFFFFFFFFFFFF, 0x0, 0x0, 0x0, 0x0, 0x0, 0x0, 0x0⟩,
  -- CV_CTX_LEN_k
  ⟨0x118, 0x40, 16, 0x1FFFFFFFFFF, 0x0, 0x0, 0x0, 0x0, 0x0, 0x0, 0x0⟩,
  -- CV_CTX_FED_k
  ⟨0x120, 0x40, 16, 0x0, 0x0, 0x0, 0x0, 0x0, 0x0, 0x0, 0x0⟩
]

/-- Pan registers. -/
def regsOf_pan : List RegDesc := [
  -- PAN_STATUS
  ⟨0x0, 0x8, 1, 0x0, 0x0, 0x0, 0x0, 0x0, 0x0, 0x0, 0x82⟩,
  -- PAN_CTL
  ⟨0x8, 0x8, 1, 0xFFFFF1, 0x0, 0x0, 0x0, 0x0, 0x0, 0x0, 0x10041⟩,
  -- PAN_FOLD
  ⟨0x10, 0x8, 1, 0x0, 0x3, 0x0, 0x0, 0x0, 0x0, 0x0, 0x0⟩,
  -- PAN_FILL_CTL
  ⟨0x18, 0x8, 1, 0x0, 0xFF1FFF, 0x0, 0x0, 0x0, 0x0, 0x0, 0x20400⟩,
  -- PAN_FILL_STATUS
  ⟨0x20, 0x8, 1, 0x0, 0x0, 0x0, 0x0, 0x0, 0x0, 0x0, 0x0⟩,
  -- PAN_RAKE_STATUS
  ⟨0x28, 0x8, 1, 0x0, 0x0, 0x0, 0x0, 0x0, 0x0, 0x0, 0x0⟩,
  -- PAN_ENGINE_MAP
  ⟨0x30, 0x8, 1, 0x0, 0x0, 0x0, 0x0, 0x0, 0x0, 0x0, 0x0⟩,
  -- PAN_FUSE_PROG
  ⟨0x38, 0x8, 1, 0x0, 0x0, 0xFFFF, 0x0, 0x0, 0x0, 0x0, 0x0⟩,
  -- PAN_SPARE_ROW_Ee
  ⟨0x100, 0x10, 16, 0x0, 0x0, 0x0, 0x0, 0x0, 0x0, 0x0, 0x0⟩,
  -- PAN_SPARE_COL_Ee
  ⟨0x108, 0x10, 16, 0x0, 0x0, 0x0, 0x0, 0x0, 0x0, 0x0, 0x0⟩,
  -- TWIN_STATUS
  ⟨0x80000, 0x8, 1, 0x0, 0x0, 0x0, 0x0, 0x0, 0x0, 0x0, 0x0⟩,
  -- TWIN_CTL
  ⟨0x80008, 0x8, 1, 0x1, 0x0, 0x0, 0x0, 0x0, 0x0, 0x0, 0x1⟩,
  -- RET_CTL
  ⟨0x80100, 0x8, 1, 0x0, 0x1F, 0x0, 0x0, 0x0, 0x0, 0x0, 0x0⟩,
  -- RET_VBASE
  ⟨0x80108, 0x8, 1, 0xFFFFFFFFE00000, 0x0, 0x0, 0x0, 0x0, 0x0, 0x0, 0x0⟩
]

/-- Core registers. -/
def regsOf_core : List RegDesc := [
  -- CORE_STATUS
  ⟨0x0, 0x8, 1, 0x0, 0x0, 0x0, 0x20, 0x0, 0x0, 0x0, 0x0⟩,
  -- CORE_CTL
  ⟨0x8, 0x8, 1, 0x0, 0x0, 0x0, 0x0, 0x3, 0x0, 0x3, 0x0⟩,
  -- CORE_PC
  ⟨0x10, 0x8, 1, 0xFFFFFFFFFFFFF8, 0x0, 0x0, 0x0, 0x0, 0x0, 0xFFFFFFFFFFFFF8, 0x0⟩,
  -- TRAP_VEC
  ⟨0x18, 0x8, 1, 0xFFFFFFFFFFFFF8, 0x0, 0x0, 0x0, 0x0, 0x0, 0x0, 0x0⟩,
  -- TRAP_EPC
  ⟨0x20, 0x8, 1, 0xFFFFFFFFFFFFF8, 0x0, 0x0, 0x0, 0x0, 0x0, 0x0, 0x0⟩,
  -- TRAP_CAUSE
  ⟨0x28, 0x8, 1, 0x0, 0x0, 0x0, 0x0, 0x0, 0x0, 0x0, 0x0⟩,
  -- TRAP_INFO
  ⟨0x30, 0x8, 1, 0x0, 0x0, 0x0, 0x0, 0x0, 0x0, 0x0, 0x0⟩,
  -- CORE_FSTAT
  ⟨0x38, 0x8, 1, 0x0, 0x0, 0x0, 0x1F, 0x0, 0x0, 0x0, 0x0⟩,
  -- CORE_ID
  ⟨0x40, 0x8, 1, 0x0, 0x0, 0x0, 0x0, 0x0, 0x0, 0x0, 0x0⟩,
  -- ISSUE_STATUS
  ⟨0x48, 0x8, 1, 0x0, 0x0, 0x0, 0x0, 0x0, 0x0, 0x0, 0x0⟩,
  -- TOKEN_VIEW
  ⟨0x50, 0x8, 1, 0x0, 0x0, 0x0, 0x0, 0x0, 0x0, 0x0, 0x0⟩
]

/-- Dispatch registers. -/
def regsOf_disp : List RegDesc := [
  -- SEQ_CTL
  ⟨0x110000, 0x8, 1, 0xFFFFFFFFF, 0x0, 0x0, 0x0, 0x0, 0x0, 0x0, 0x3E8⟩,
  -- GRQ_BASE
  ⟨0x110008, 0x8, 1, 0xFF800, 0x0, 0x0, 0x0, 0x0, 0x0, 0x0, 0x0⟩,
  -- GRQ_PTR
  ⟨0x110010, 0x8, 1, 0x3F, 0x0, 0x0, 0x0, 0x0, 0x0, 0x0, 0x0⟩,
  -- SEQ_STATUS
  ⟨0x110018, 0x8, 1, 0x0, 0x0, 0x0, 0x0, 0x0, 0x0, 0x0, 0x10000⟩
]

/-- Cache registers. -/
def regsOf_cache : List RegDesc := [
  -- CACHE_STATUS
  ⟨0x0, 0x8, 1, 0x0, 0x0, 0x0, 0x0, 0x0, 0x0, 0x0, 0x200000⟩,
  -- ORD_CTL
  ⟨0x8, 0x8, 1, 0x1FFFFFFFF, 0x0, 0x0, 0x0, 0x0, 0x0, 0x0, 0x1000003E8⟩
]

/-- Sluice registers. -/
def regsOf_slu : List RegDesc := [
  -- SLU_STATUS_i
  ⟨0x0, 0x8, 4, 0x0, 0x0, 0x0, 0x0, 0x0, 0x0, 0x0, 0x0⟩,
  -- SLU_CTL
  ⟨0x40, 0x8, 1, 0xFFFFFFFF, 0x0, 0x0, 0x0, 0x0, 0x0, 0x0, 0x2710⟩,
  -- SLU_GRP_BASE
  ⟨0x48, 0x8, 1, 0xFFFFFFFFFFFFC0, 0x0, 0x0, 0x0, 0x0, 0x0, 0x0, 0x0⟩,
  -- SLU_GRP_CNT
  ⟨0x50, 0x8, 1, 0x1FFFF, 0x0, 0x0, 0x0, 0x0, 0x0, 0x0, 0x0⟩
]

/-- Memory and Stacker registers. -/
def regsOf_mem : List RegDesc := [
  -- STK_STATUS
  ⟨0x0, 0x8, 1, 0x0, 0x0, 0x0, 0x0, 0x0, 0x0, 0x0, 0x0⟩,
  -- STK_CTL
  ⟨0x8, 0x8, 1, 0xFFFFFFFF0000000E, 0xFFFF0001, 0x0, 0x0, 0x0, 0x0, 0x0, 0x6401001E060009⟩,
  -- STK_LAYOUT
  ⟨0x10, 0x8, 1, 0x7F, 0x0, 0x0, 0x0, 0x0, 0x0, 0x0, 0x10⟩,
  -- STK_FT_BASE
  ⟨0x18, 0x8, 1, 0xFFFFFFFF0000, 0x0, 0x0, 0x0, 0x0, 0x0, 0x0, 0x0⟩,
  -- STK_REQ_VA
  ⟨0x20, 0x8, 1, 0xFFFFFFFFFF0000, 0x0, 0x0, 0x0, 0x0, 0x0, 0x0, 0x0⟩,
  -- STK_REQ_LEN
  ⟨0x28, 0x8, 1, 0x1FFFFFF, 0x0, 0x0, 0x0, 0x0, 0x0, 0x0, 0x0⟩,
  -- STK_REQ
  ⟨0x30, 0x8, 1, 0xC0000000000F1FFE, 0x0, 0x0, 0x0, 0x1, 0x0, 0x1, 0x0⟩,
  -- STK_REQ_STAT
  ⟨0x38, 0x8, 1, 0x0, 0x0, 0x0, 0x6, 0x0, 0x0, 0x0, 0x0⟩,
  -- STK_LMAP
  ⟨0x40, 0x8, 1, 0x0, 0x0, 0x0, 0x0, 0x0, 0x0, 0x0, 0x0⟩,
  -- STK_FREE_d
  ⟨0x80, 0x8, 4, 0x0, 0x0, 0x0, 0x0, 0x0, 0x0, 0x0, 0x0⟩,
  -- MMU_INV_VA
  ⟨0x1000, 0x8, 1, 0xFFFFFFFFFF0000, 0x0, 0x0, 0x0, 0x0, 0x0, 0x0, 0x0⟩,
  -- MMU_INV_LEN
  ⟨0x1008, 0x8, 1, 0x1FFFFFFFFFF, 0x0, 0x0, 0x0, 0x0, 0x0, 0x0, 0x0⟩,
  -- MMU_INV
  ⟨0x1010, 0x8, 1, 0x6, 0x0, 0x0, 0x200, 0x1, 0x0, 0x1, 0x0⟩,
  -- MEM_STACK_j
  ⟨0x2000, 0x100, 4, 0x0, 0x0, 0x0, 0x0, 0x10, 0x0, 0x10, 0x4000⟩,
  -- MEM_PC_RETIRED_j
  ⟨0x2008, 0x100, 4, 0x0, 0x0, 0x0, 0x0, 0x0, 0x0, 0x0, 0x0⟩
]

/-- Brine registers. -/
def regsOf_brn : List RegDesc := [
  -- BRN_STATUS
  ⟨0x0, 0x8, 1, 0x0, 0x0, 0x0, 0x0, 0x0, 0x0, 0x0, 0x0⟩,
  -- BRN_CTL
  ⟨0x8, 0x8, 1, 0x1, 0x4, 0x0, 0x0, 0x0, 0x0, 0x1, 0x4⟩,
  -- BRN_QTHRESH
  ⟨0x10, 0x8, 1, 0x0, 0xFFFFFFFF, 0x0, 0x0, 0x0, 0x0, 0x0, 0xC0C0C0C0⟩,
  -- BRN_BUDGET
  ⟨0x18, 0x8, 1, 0xFFFFFFFFFFFFFFFF, 0x0, 0x0, 0x0, 0x0, 0x0, 0x0, 0x271000004E20⟩,
  -- BRN_SOFT_BASE
  ⟨0x20, 0x8, 1, 0xFFFFFFFFFF0000, 0x0, 0x0, 0x0, 0x0, 0x0, 0x0, 0x0⟩,
  -- BRN_SOFT_REC
  ⟨0x28, 0x8, 1, 0xFFFFFFFFFF0000, 0x0, 0x0, 0x0, 0x0, 0x0, 0x0, 0x0⟩,
  -- BRN_SOFT_REC_LEN
  ⟨0x30, 0x8, 1, 0x1FFFFFF0000, 0x0, 0x0, 0x0, 0x0, 0x0, 0x0, 0x0⟩,
  -- BRN_SOFT_CPL
  ⟨0x40, 0x8, 1, 0x0, 0x0, 0x0, 0x0, 0x0, 0x303FF, 0x0, 0x0⟩,
  -- BRN_DICT
  ⟨0x48, 0x8, 1, 0x0, 0x0, 0x0, 0x0, 0x0, 0x0, 0x0, 0x0⟩,
  -- BRN_MEAN_c
  ⟨0x80, 0x8, 4, 0x0, 0x0, 0x0, 0x0, 0x0, 0x0, 0x0, 0x0⟩
]

/-- Package fabric registers. -/
def regsOf_fab : List RegDesc := [
  -- FAB_PORT_j
  ⟨0x0, 0x8, 3, 0x0, 0x0, 0x0, 0x0, 0x0, 0x0, 0x0, 0x0⟩,
  -- FAB_RETIRED_j
  ⟨0x20, 0x8, 3, 0x0, 0x0, 0x0, 0x0, 0x0, 0x0, 0x0, 0x0⟩,
  -- FAB_CTL
  ⟨0x40, 0x8, 1, 0x1F, 0x0, 0x0, 0x0, 0x0, 0x0, 0x0, 0x4⟩,
  -- SLU_RQ_BASE
  ⟨0x100, 0x8, 1, 0xFFFFFFFFFFE000, 0x0, 0x0, 0x0, 0x0, 0x0, 0x0, 0x0⟩
]

/-- Optical engine registers. -/
def regsOf_opt : List RegDesc := [
  -- TU_DEVICE
  ⟨0x0, 0x8, 1, 0x1FFFF, 0x0, 0x0, 0x0, 0x0, 0x0, 0x0, 0x0⟩,
  -- TU_CTL
  ⟨0x8, 0x8, 1, 0xFFFFFFFFFFFFFF, 0x0, 0x0, 0x0, 0x0, 0x0, 0x0, 0x800C8000003E8⟩,
  -- TU_TIME
  ⟨0x10, 0x8, 1, 0x7F, 0x0, 0x0, 0x0, 0x0, 0x0, 0x0, 0x0⟩,
  -- TU_TIME_CHILD
  ⟨0x18, 0x8, 1, 0xFFFFFFFFFFFFFFFF, 0x0, 0x0, 0x0, 0x0, 0x0, 0x0, 0x0⟩,
  -- TU_ERR_CFG
  ⟨0x20, 0x8, 1, 0xFFFFFFFF0000FFFF, 0x0, 0x0, 0x0, 0x0, 0x0, 0x0, 0x186A000000080⟩,
  -- LINK_STATUS_i
  ⟨0x1000, 0x100, 16, 0x0, 0x0, 0x0, 0x0, 0x0, 0x0, 0x0, 0x0⟩,
  -- LINK_CTL_i
  ⟨0x1008, 0x100, 16, 0xFF03, 0x0, 0x0, 0x0, 0x4, 0x0, 0x4, 0xA00⟩,
  -- LINK_DELAY_i
  ⟨0x1010, 0x100, 16, 0x0, 0x0, 0x0, 0x0, 0x0, 0x0, 0x0, 0x0⟩,
  -- LINK_KNOCK_VAL_i
  ⟨0x1018, 0x100, 16, 0xFFFFFFFFFFFFFFFF, 0x0, 0x0, 0x0, 0x0, 0x0, 0x0, 0x0⟩,
  -- LINK_KNOCK_i
  ⟨0x1020, 0x100, 16, 0xF0, 0x0, 0x0, 0x2, 0x1, 0x0, 0x0, 0x10⟩,
  -- LASER_STATUS_b
  ⟨0x6000, 0x40, 4, 0x0, 0x0, 0x0, 0x0, 0x0, 0x0, 0x0, 0x0⟩,
  -- LASER_CTL_b
  ⟨0x6008, 0x40, 4, 0x0, 0x0, 0x0, 0x0, 0x1, 0x0, 0x1, 0x0⟩,
  -- LASER_MON_b
  ⟨0x6010, 0x40, 4, 0x0, 0x0, 0x0, 0x0, 0x0, 0x0, 0x0, 0x0⟩,
  -- TU_CONN_j
  ⟨0x8000, 0x8, 2048, 0x800000000003FFFF, 0x0, 0x0, 0x0, 0x0, 0x0, 0x0, 0x0⟩,
  -- ETH_STATUS_i
  ⟨0xC000, 0x40, 8, 0x0, 0x0, 0x0, 0x0, 0x0, 0x0, 0x0, 0x0⟩,
  -- ETH_MAC_i
  ⟨0xC008, 0x40, 8, 0xFFFFFFFFFFFF, 0x0, 0x0, 0x0, 0x0, 0x0, 0x0, 0x0⟩,
  -- ETH_CTL_i
  ⟨0xC010, 0x40, 8, 0xF301, 0x0, 0x0, 0x0, 0x0, 0x0, 0x0, 0x7201⟩,
  -- TU_ROUTE_i
  ⟨0x20000, 0x8, 16384, 0xFF7FFF7FFF7FFF7F, 0x0, 0x0, 0x0, 0x0, 0x0, 0x0, 0x0⟩
]

/-- Crystallizer registers. -/
def regsOf_xtl : List RegDesc := [
  -- XTL_STATUS
  ⟨0x0, 0x8, 1, 0x0, 0x0, 0x0, 0x0, 0x0, 0x0, 0x0, 0x100000⟩,
  -- XTL_CTL
  ⟨0x8, 0x8, 1, 0x2, 0x0, 0x0, 0x0, 0x1, 0x0, 0x0, 0x0⟩,
  -- XTL_MAP
  ⟨0x10, 0x8, 1, 0x307, 0x0, 0x0, 0x0, 0x0, 0x0, 0x0, 0x0⟩,
  -- XTL_CHAN_MAP
  ⟨0x18, 0x8, 1, 0x0, 0x0, 0x0, 0x0, 0x0, 0x0, 0x0, 0x0⟩,
  -- XTL_ENTRY_VALID_i
  ⟨0x100, 0x8, 16, 0x0, 0x0, 0x0, 0x0, 0x0, 0x0, 0x0, 0x0⟩,
  -- XTL_GATE_CTL
  ⟨0x800, 0x8, 1, 0x3FFFFFFFF, 0x0, 0x0, 0x0, 0x0, 0x0, 0x0, 0x186A0⟩,
  -- XTL_GATE_HORIZON
  ⟨0x808, 0x8, 1, 0x0, 0x0, 0x0, 0x0, 0x0, 0x0, 0x0, 0x0⟩,
  -- XTL_GATE_STEP_i
  ⟨0x810, 0x10, 8, 0x0, 0x0, 0x0, 0x0, 0x0, 0x0, 0x0, 0x0⟩,
  -- XTL_GATE_STAT_i
  ⟨0x818, 0x10, 8, 0x0, 0x0, 0x0, 0x0, 0x0, 0x0, 0x0, 0x0⟩,
  -- XTL_SHARD_STATUS_s
  ⟨0x1000, 0x8, 256, 0x0, 0x0, 0x0, 0x0, 0x0, 0x0, 0x0, 0x0⟩
]

/-- Device counters. -/
def ctrsOf_dev : List CtrDesc := [
  -- TIDE_OVR_Cc
  ⟨0x1100, 0x10, 8, 0x10, 1⟩,
  -- TIDE_OVR_EDGE_Cc
  ⟨0x1180, 0x10, 8, 0x10, 1⟩,
  -- TIDE_ALIGN_CNT
  ⟨0x1200, 0x10, 1, 0x10, 1⟩
]

/-- Power and thermal counters. -/
def ctrsOf_pwr : List CtrDesc := [
  -- PWR_ENERGY_CNT
  ⟨0x100400, 0x10, 1, 0x10, 1⟩,
  -- PWR_LIMIT_TIDE_CNT
  ⟨0x100410, 0x10, 1, 0x10, 1⟩,
  -- PWR_DRIFT_TIDE_CNT
  ⟨0x100420, 0x10, 1, 0x10, 1⟩,
  -- PWR_STRETCH_CNT_d
  ⟨0x100440, 0x10, 4, 0x10, 1⟩,
  -- PWR_DROOP_ESC_CNT_d
  ⟨0x100480, 0x10, 4, 0x10, 1⟩,
  -- PWR_PAN_HOLD_CNT_d
  ⟨0x1004C0, 0x10, 4, 0x10, 1⟩,
  -- PWR_THERM_STEP_CNT
  ⟨0x100500, 0x10, 1, 0x10, 1⟩,
  -- PWR_COLL_WAIT_CNT
  ⟨0x100510, 0x10, 1, 0x10, 1⟩,
  -- PWR_WAKE_CNT
  ⟨0x100520, 0x10, 1, 0x10, 1⟩
]

/-- Integrity and trace counters. -/
def ctrsOf_int : List CtrDesc := [
  -- INT_SUSPECT_CNT
  ⟨0x210400, 0x10, 1, 0x10, 1⟩,
  -- INT_REPLAY_RUN_CNT
  ⟨0x210410, 0x10, 1, 0x10, 1⟩,
  -- INT_CONFIRM_CNT
  ⟨0x210420, 0x10, 1, 0x10, 1⟩,
  -- INT_CORRECT_CNT
  ⟨0x210430, 0x10, 1, 0x10, 1⟩,
  -- INT_FAILED_CNT
  ⟨0x210440, 0x10, 1, 0x10, 1⟩,
  -- INT_HELD_CNT
  ⟨0x210450, 0x10, 1, 0x10, 1⟩,
  -- INT_POISON_PATH_CNT
  ⟨0x210460, 0x10, 1, 0x10, 1⟩,
  -- INT_SELFTEST_CNT
  ⟨0x210470, 0x10, 1, 0x10, 1⟩,
  -- INT_SELFTEST_FAIL_CNT
  ⟨0x210480, 0x10, 1, 0x10, 1⟩,
  -- INT_FENCE_CNT
  ⟨0x210490, 0x10, 1, 0x10, 1⟩,
  -- INT_RECORD_FULL_CNT
  ⟨0x2104A0, 0x10, 1, 0x10, 1⟩
]

/-- Management counters. -/
def ctrsOf_mgmt : List CtrDesc := [
  -- MGMT_CMD_CNT
  ⟨0x300400, 0x10, 1, 0x10, 1⟩,
  -- MGMT_EVT_CNT
  ⟨0x300410, 0x10, 1, 0x10, 1⟩,
  -- MGMT_EVT_DROP_CNT
  ⟨0x300420, 0x10, 1, 0x10, 1⟩,
  -- MGMT_MBOX_CNT
  ⟨0x300430, 0x10, 1, 0x10, 1⟩
]

/-- Check-value unit counters. -/
def ctrsOf_cv : List CtrDesc := []

/-- Pan counters. -/
def ctrsOf_pan : List CtrDesc := [
  -- PAN_PASS_CNT
  ⟨0x400, 0x10, 1, 0x10, 1⟩,
  -- PAN_MAC_CNT
  ⟨0x410, 0x10, 1, 0x10, 1⟩,
  -- PAN_BUSY_CNT
  ⟨0x420, 0x10, 1, 0x10, 1⟩,
  -- PAN_BUBBLE_CNT
  ⟨0x430, 0x10, 1, 0x10, 1⟩,
  -- PAN_TALLY_FAIL_CNT
  ⟨0x440, 0x10, 1, 0x10, 1⟩,
  -- PAN_TALLY_SKIP_CNT
  ⟨0x450, 0x10, 1, 0x10, 1⟩,
  -- PAN_UNCHECKED_CNT
  ⟨0x460, 0x10, 1, 0x10, 1⟩,
  -- PAN_OVF_CNT
  ⟨0x470, 0x10, 1, 0x10, 1⟩,
  -- PAN_FILL_BATCH_CNT
  ⟨0x480, 0x10, 1, 0x10, 1⟩,
  -- PAN_FILL_ROW_CNT
  ⟨0x490, 0x10, 1, 0x10, 1⟩,
  -- PAN_FILL_TMO_CNT
  ⟨0x4A0, 0x10, 1, 0x10, 1⟩,
  -- PAN_SOFTSTART_CNT
  ⟨0x4B0, 0x10, 1, 0x10, 1⟩,
  -- TWIN_CMD_CNT
  ⟨0x80400, 0x10, 1, 0x10, 1⟩,
  -- TWIN_WAIT_CNT
  ⟨0x80410, 0x10, 1, 0x10, 1⟩,
  -- TWIN_HOLD_CNT
  ⟨0x80420, 0x10, 1, 0x10, 1⟩,
  -- TWIN_BUS_ROW_CNT
  ⟨0x80430, 0x10, 1, 0x10, 1⟩,
  -- RET_TURN_CNT
  ⟨0x80440, 0x10, 1, 0x10, 1⟩,
  -- RET_TURN_SLOW_CNT
  ⟨0x80450, 0x10, 1, 0x10, 1⟩
]

/-- Core counters. -/
def ctrsOf_core : List CtrDesc := [
  -- CORE_INSN_CNT
  ⟨0x400, 0x10, 1, 0x10, 1⟩,
  -- CORE_ISSUE_STALL_CNT
  ⟨0x410, 0x10, 1, 0x10, 1⟩,
  -- CORE_WAIT_CNT
  ⟨0x420, 0x10, 1, 0x10, 1⟩,
  -- CORE_TRAP_CNT
  ⟨0x430, 0x10, 1, 0x10, 1⟩
]

/-- Dispatch counters. -/
def ctrsOf_disp : List CtrDesc := [
  -- SEQ_DISPATCH_CNT
  ⟨0x110400, 0x10, 1, 0x10, 1⟩,
  -- SEQ_EMPTY_EDGE_CNT
  ⟨0x110410, 0x10, 1, 0x10, 1⟩,
  -- SEQ_HELD_EDGE_CNT
  ⟨0x110420, 0x10, 1, 0x10, 1⟩
]

/-- Cache counters. -/
def ctrsOf_cache : List CtrDesc := [
  -- CACHE_HIT_CNT
  ⟨0x400, 0x10, 1, 0x10, 1⟩,
  -- CACHE_MISS_CNT
  ⟨0x410, 0x10, 1, 0x10, 1⟩,
  -- CACHE_REMOTE_CNT
  ⟨0x420, 0x10, 1, 0x10, 1⟩,
  -- CACHE_AMO_CNT
  ⟨0x430, 0x10, 1, 0x10, 1⟩,
  -- CACHE_AOW_CNT
  ⟨0x440, 0x10, 1, 0x10, 1⟩,
  -- CACHE_SERIAL_CNT
  ⟨0x450, 0x10, 1, 0x10, 1⟩,
  -- CACHE_UPDQ_FULL_CNT
  ⟨0x460, 0x10, 1, 0x10, 1⟩,
  -- ORD_FENCE_WAIT_CNT
  ⟨0x470, 0x10, 1, 0x10, 1⟩
]

/-- Sluice counters. -/
def ctrsOf_slu : List CtrDesc := [
  -- SLU_CMD_CNT_i
  ⟨0x400, 0x40, 4, 0x10, 1⟩,
  -- SLU_RD_CNT_i
  ⟨0x410, 0x40, 4, 0x10, 1⟩,
  -- SLU_WR_CNT_i
  ⟨0x420, 0x40, 4, 0x10, 1⟩,
  -- SLU_FLEUR_CNT_i
  ⟨0x430, 0x40, 4, 0x10, 1⟩,
  -- SLU_COLL_CNT
  ⟨0x500, 0x10, 1, 0x10, 1⟩,
  -- SLU_COLL_BYTE_CNT
  ⟨0x510, 0x10, 1, 0x10, 1⟩,
  -- SLU_OVF_CNT
  ⟨0x520, 0x10, 1, 0x10, 1⟩
]

/-- Memory and Stacker counters. -/
def ctrsOf_mem : List CtrDesc := [
  -- MEM_RD_CNT_j
  ⟨0x3000, 0x100, 4, 0x10, 1⟩,
  -- MEM_WR_CNT_j
  ⟨0x3010, 0x100, 4, 0x10, 1⟩,
  -- MEM_REPLAY_CNT_j
  ⟨0x3020, 0x100, 4, 0x10, 1⟩,
  -- MEM_POISON_CNT_j
  ⟨0x3030, 0x100, 4, 0x10, 1⟩,
  -- MEM_FLEUR_BURST_CNT_j
  ⟨0x3040, 0x100, 4, 0x10, 1⟩,
  -- MEM_FLEUR_GRAN_CNT_j
  ⟨0x3050, 0x100, 4, 0x10, 1⟩,
  -- MEM_FLEUR_FULL_CNT_j
  ⟨0x3060, 0x100, 4, 0x10, 1⟩,
  -- MEM_NEAR_CNT
  ⟨0x3800, 0x10, 1, 0x10, 1⟩,
  -- MEM_FAR_IN_CNT
  ⟨0x3810, 0x10, 1, 0x10, 1⟩,
  -- MEM_MIG_FRAME_CNT
  ⟨0x3820, 0x10, 1, 0x10, 1⟩,
  -- MEM_EVAC_FRAME_CNT
  ⟨0x3830, 0x10, 1, 0x10, 1⟩,
  -- MEM_SPILL_CNT
  ⟨0x3840, 0x10, 1, 0x10, 1⟩
]

/-- Brine counters. -/
def ctrsOf_brn : List CtrDesc := [
  -- BRN_RECORD_CNT
  ⟨0x400, 0x10, 1, 0x10, 1⟩,
  -- BRN_BYTE_CNT
  ⟨0x410, 0x10, 1, 0x10, 1⟩,
  -- BRN_REFETCH_CNT
  ⟨0x420, 0x10, 1, 0x10, 1⟩,
  -- BRN_REJECT_CNT
  ⟨0x430, 0x10, 1, 0x10, 1⟩,
  -- BRN_HW_DEC_CNT
  ⟨0x440, 0x10, 1, 0x10, 1⟩,
  -- BRN_SOFT_DEC_CNT
  ⟨0x450, 0x10, 1, 0x10, 1⟩,
  -- BRN_SPILL_Q_CNT
  ⟨0x460, 0x10, 1, 0x10, 1⟩,
  -- BRN_SPILL_BUDGET_CNT
  ⟨0x470, 0x10, 1, 0x10, 1⟩,
  -- BRN_CONCEAL_CNT
  ⟨0x480, 0x10, 1, 0x10, 1⟩,
  -- BRN_SUBST_CNT
  ⟨0x490, 0x10, 1, 0x10, 1⟩,
  -- BRN_EMPTY_CNT
  ⟨0x4A0, 0x10, 1, 0x10, 1⟩,
  -- BRN_BATCH_CNT
  ⟨0x4B0, 0x10, 1, 0x10, 1⟩,
  -- BRN_STAGE_FULL_CNT
  ⟨0x4C0, 0x10, 1, 0x10, 1⟩,
  -- BRN_SOFT_FULL_CNT
  ⟨0x4D0, 0x10, 1, 0x10, 1⟩
]

/-- Package fabric counters. -/
def ctrsOf_fab : List CtrDesc := [
  -- FAB_TX_CNT_j
  ⟨0x400, 0x40, 3, 0x10, 1⟩,
  -- FAB_RX_CNT_j
  ⟨0x410, 0x40, 3, 0x10, 1⟩,
  -- FAB_REPLAY_CNT_j
  ⟨0x420, 0x40, 3, 0x10, 1⟩,
  -- FAB_CREDIT_STALL_CNT_j
  ⟨0x430, 0x40, 3, 0x10, 1⟩,
  -- SLU_RQ_FULL_CNT
  ⟨0x500, 0x10, 1, 0x10, 1⟩,
  -- SLU_RQ_CNT_q
  ⟨0x1000, 0x10, 256, 0x10, 1⟩
]

/-- Optical engine counters. -/
def ctrsOf_opt : List CtrDesc := [
  -- TU_RETX_CNT
  ⟨0x400, 0x10, 1, 0x10, 1⟩,
  -- TU_DROP_CNT
  ⟨0x410, 0x10, 1, 0x10, 1⟩,
  -- TU_TIME_CNT
  ⟨0x420, 0x10, 1, 0x10, 1⟩,
  -- LINK_TX_FLIT_CNT_i
  ⟨0x4000, 0x200, 16, 0x10, 1⟩,
  -- LINK_RX_FLIT_CNT_i
  ⟨0x4010, 0x200, 16, 0x10, 1⟩,
  -- LINK_REPLAY_CNT_i
  ⟨0x4020, 0x200, 16, 0x10, 1⟩,
  -- LINK_CREDIT_STALL_CNT_i
  ⟨0x4030, 0x200, 16, 0x10, 1⟩,
  -- LINK_FWD_FLIT_CNT_i
  ⟨0x4040, 0x200, 16, 0x10, 1⟩,
  -- LINK_LANE_ERR_CNT_i_k
  ⟨0x4080, 0x200, 16, 0x10, 8⟩,
  -- ETH_RX_FRAME_CNT_i
  ⟨0xD000, 0x40, 8, 0x10, 1⟩,
  -- ETH_FEC_CORR_CNT_i
  ⟨0xD010, 0x40, 8, 0x10, 1⟩,
  -- ETH_DROP_CNT_i
  ⟨0xD020, 0x40, 8, 0x10, 1⟩
]

/-- Crystallizer counters. -/
def ctrsOf_xtl : List CtrDesc := [
  -- XTL_PARAM_CNT
  ⟨0x400, 0x10, 1, 0x10, 1⟩,
  -- XTL_RUN_APPLY_CNT
  ⟨0x410, 0x10, 1, 0x10, 1⟩,
  -- XTL_RUN_SKIP_CNT
  ⟨0x420, 0x10, 1, 0x10, 1⟩,
  -- XTL_SLOW_RD_CNT
  ⟨0x430, 0x10, 1, 0x10, 1⟩,
  -- XTL_SLOW_WR_CNT
  ⟨0x440, 0x10, 1, 0x10, 1⟩,
  -- XTL_REPLAY_CNT
  ⟨0x450, 0x10, 1, 0x10, 1⟩,
  -- XTL_WATCH_CNT
  ⟨0x460, 0x10, 1, 0x10, 1⟩,
  -- XTL_NONFINITE_CNT
  ⟨0x470, 0x10, 1, 0x10, 1⟩,
  -- XTL_RETURN_OVF_CNT
  ⟨0x480, 0x10, 1, 0x10, 1⟩,
  -- XTL_GATHER_CNT
  ⟨0x490, 0x10, 1, 0x10, 1⟩
]

end Sys2Proof.Machine
end

