-- ==== Sys2Proof/Machine/RegMap.lean ====
section
/-! DEFINITION. The control window's map (R8 to R11 of 00_scope.md): which block an offset lies in, the offset a
shared view stands for, the register or counter listed there, and the reset value. -/

namespace Sys2Proof.Machine

/-- The unit blocks of the window. -/
inductive Blk where
  | dev
  | pwr
  | int
  | mgmt
  | cv (n : Fin 16)
  | pan (c : ClusterIx)
  | core (c : ClusterIx) (i : Fin 16)
  | disp (c : ClusterIx)
  | cache (c : ClusterIx)
  | slu (c : ClusterIx)
  | mem (d : DieIx)
  | brn (d : DieIx)
  | fab (d : DieIx)
  | opt (d : DieIx)
  | xtl (x : XtlIx)
  deriving DecidableEq, Repr

/-! Block bases. -/

def dieBase (d : Nat) : Nat := 0x1000000 + 0x1000000 * d
def clusterBase (c : Nat) : Nat := dieBase (c / 2) + 0x400000 * (c % 2)
def panBase (c : Nat) : Nat := clusterBase c
def coreBase (c i : Nat) : Nat := clusterBase c + 0x100000 + 0x1000 * i
def cacheBase (c : Nat) : Nat := clusterBase c + 0x200000
def sluBase (c : Nat) : Nat := clusterBase c + 0x300000
def memBase (d : Nat) : Nat := dieBase d + 0x800000
def brnBase (d : Nat) : Nat := dieBase d + 0x900000
def fabBase (d : Nat) : Nat := dieBase d + 0xA00000
def optBase (d : Nat) : Nat := dieBase d + 0xB00000
def xtlBase (x : Nat) : Nat := 0x8000000 + 0x100000 * x
def cvBase (n : Nat) : Nat := 0x200000 + 0x1000 * n

/-- The block an offset lies in and the offset the block's tables use; none in an unassigned range. -/
def blkOfOff (off : Nat) : Option (Blk × Nat) :=
  if off < 0x100000 then some (.dev, off)
  else if off < 0x200000 then some (.pwr, off)
  else if off < 0x210000 then some (.cv (Fin.ofNat 16 ((off - 0x200000) / 0x1000)), off % 0x1000)
  else if off < 0x300000 then some (.int, off)
  else if off < 0x400000 then some (.mgmt, off)
  else if off < 0x1000000 then none
  else if off < 0x5000000 then
    let d := (off - 0x1000000) / 0x1000000
    let r := off % 0x1000000
    if r < 0x800000 then
      let c : ClusterIx := Fin.ofNat 8 (2 * d + r / 0x400000)
      let q := r % 0x400000
      if q < 0x100000 then some (.pan c, q)
      else if q < 0x110000 then some (.core c (Fin.ofNat 16 ((q - 0x100000) / 0x1000)), q % 0x1000)
      else if q < 0x200000 then some (.disp c, q)
      else if q < 0x300000 then some (.cache c, q - 0x200000)
      else some (.slu c, q - 0x300000)
    else if r < 0x900000 then some (.mem (Fin.ofNat 4 d), r - 0x800000)
    else if r < 0xA00000 then some (.brn (Fin.ofNat 4 d), r - 0x900000)
    else if r < 0xB00000 then some (.fab (Fin.ofNat 4 d), r - 0xA00000)
    else if r < 0xC00000 then some (.opt (Fin.ofNat 4 d), r - 0xB00000)
    else none
  else if off < 0x8000000 then none
  else if off < 0x8800000 then some (.xtl (Fin.ofNat 8 ((off - 0x8000000) / 0x100000)), off % 0x100000)
  else none

/-- The registers of a block. -/
def regsOf : Blk → List RegDesc
  | .dev => regsOf_dev
  | .pwr => regsOf_pwr
  | .int => regsOf_int
  | .mgmt => regsOf_mgmt
  | .cv _ => regsOf_cv
  | .pan _ => regsOf_pan
  | .core .. => regsOf_core
  | .disp _ => regsOf_disp
  | .cache _ => regsOf_cache
  | .slu _ => regsOf_slu
  | .mem _ => regsOf_mem
  | .brn _ => regsOf_brn
  | .fab _ => regsOf_fab
  | .opt _ => regsOf_opt
  | .xtl _ => regsOf_xtl

/-- The counters of a block. -/
def ctrsOf : Blk → List CtrDesc
  | .dev => ctrsOf_dev
  | .pwr => ctrsOf_pwr
  | .int => ctrsOf_int
  | .mgmt => ctrsOf_mgmt
  | .cv _ => ctrsOf_cv
  | .pan _ => ctrsOf_pan
  | .core .. => ctrsOf_core
  | .disp _ => ctrsOf_disp
  | .cache _ => ctrsOf_cache
  | .slu _ => ctrsOf_slu
  | .mem _ => ctrsOf_mem
  | .brn _ => ctrsOf_brn
  | .fab _ => ctrsOf_fab
  | .opt _ => ctrsOf_opt
  | .xtl _ => ctrsOf_xtl

/-- Whether a row lists offset `r`, and which copy. -/
def RegDesc.copy (d : RegDesc) (r : Nat) : Option Nat :=
  if d.off ≤ r ∧ (r - d.off) % d.stride = 0 ∧ (r - d.off) / d.stride < d.n then some ((r - d.off) / d.stride)
  else none

/-- The row of a table that lists offset `r`. -/
def findReg (r : Nat) : List RegDesc → Option RegDesc
  | [] => none
  | d :: l => if (d.copy r).isSome then some d else findReg r l

/-- Whether a counter row lists a live value at offset `r`. -/
def CtrDesc.lists (d : CtrDesc) (r : Nat) : Bool :=
  decide (d.off ≤ r) &&
    (let k := r - d.off
     let a := k / d.s1
     let m := k % d.s1
     -- either the outer stride leaves an inner multiple, or (with one inner copy) nothing
     (decide (a < d.n1) && decide (m % d.s2 = 0) && decide (m / d.s2 < d.n2)))

/-- Whether a counter of the block has its live value at `r`. -/
def isCtr (r : Nat) (l : List CtrDesc) : Bool := l.any (fun d => d.lists r)

/-- The offsets of the Ethernet registers, which are in the D0 block only (ETH_STATUS_i of 15_tuimal_links.md). -/
def ethOffset (r : Nat) : Bool := decide (0xC000 ≤ r ∧ r < 0xE000)

/-- What an offset of the window is. -/
inductive Slotted where
  | reg (d : RegDesc) (b : Blk) (off rel : Nat)
  | ctr (off : Nat)
  | shadow (off : Nat)
  deriving DecidableEq, Repr

/-- The register or counter listed at an 8-byte aligned offset (R9), none where no chapter lists one. -/
def slotOf (off : Nat) : Option Slotted :=
  if off % 8 ≠ 0 then none
  else
    match blkOfOff off with
    | none => none
    | some (b, r) =>
      let absent : Bool :=
        match b with
        | .opt d => ethOffset r && decide (d.val ≠ 0)
        | _ => false
      if absent then none
      else
        match findReg r (regsOf b) with
        | some d => some (.reg d b off r)
        | none =>
          if isCtr r (ctrsOf b) then some (.ctr off)
          else if 8 ≤ r && isCtr (r - 8) (ctrsOf b) then some (.shadow (off - 8))
          else none

/-- The offset under which a shared register is held: the Stacker's registers (12_memory.md), the gate unit's
(06_crystallizer.md), the group table's (R453) and the transport's (15_tuimal_links.md) are views of one. -/
def canonOff (b : Blk) (off r : Nat) : Nat :=
  match b with
  | .mem _ => if r < 0x100 then memBase 0 + r else off
  | .xtl _ => if 0x800 ≤ r ∧ r < 0x890 then xtlBase 0 + r else off
  | .slu c => if r = 0x48 ∨ r = 0x50 then sluBase (2 * (c.val / 2)) + r else off
  | .opt _ => if r < 0x100 ∨ 0x20000 ≤ r then optBase 0 + r else off
  | _ => off

/-- The thresholds of INT_CLASS_k after reset (the class table of R506). -/
def classReset (k : Nat) : BitVec 64 :=
  match k with
  | 0 => 0x000186A010000010
  | 1 => 0x000186A004000000
  | 2 => 0x000186A004000004
  | 3 => 0x000186A001000001
  | _ => 0x000186A001000001

/-- The value of a register after reset. -/
def regReset (off : Nat) : BitVec 64 :=
  match slotOf off with
  | some (.reg d b _ r) =>
    match b with
    | .int => if 0x210040 ≤ r ∧ r < 0x210068 then classReset ((r - 0x210040) / 8) else d.reset
    | .xtl x => if r = 0x10 then BitVec.ofNat 64 x.val else d.reset
    -- FAB_PORT_j.PEER: port j of die d leads to die j when j < d, else to die j + 1
    | .fab e => if r < 0x18 then BitVec.ofNat 64 ((if r / 8 < e.val then r / 8 else r / 8 + 1) * 2 ^ 20) else d.reset
    -- PWR_CAP is the class value after reset: class 0 is 4.8 kW, 192 steps of 25 W (R532, R533)
    | .pwr => if r = 0x100010 then 192 else d.reset
    -- parts leave the factory PROVISIONED (R574)
    | .mgmt => if r = 0x300200 then 1 else d.reset
    | _ => d.reset
  | _ => 0

/-- Every bit of a register that a write can change. -/
def RegDesc.writable (d : RegDesc) : BitVec 64 := d.rw ||| d.rwt ||| d.rwl ||| d.w1c ||| d.w1s ||| d.wo

/-- Whether every field of the register that is writable at all is marked firmware only (R290). -/
def RegDesc.fwOnly (d : RegDesc) : Bool := d.writable != 0 && (d.writable &&& ~~~d.fw) == 0

end Sys2Proof.Machine
end

