-- ==== Sys2Proof/Machine/Memory.lean ====
section
/-! DEFINITION. Memory as plain data: the bytes listed by address, and the ranges whose contents the spec calls unspecified
values (R3, R173, R179, R259, R381), each with the number of its free value. What nothing has written since device reset
reads 0 (DESIGN CHOICE, log entry 2); what the device has lost reads a free byte (log entry 76). -/

namespace Sys2Proof.Machine

/-- What the unlisted addresses of [lo, hi) read as: the bytes of a free value from place `o` upwards, or 0. -/
structure MemSpan where
  lo : Nat
  hi : Nat
  src : Option (Nat × Nat)
  deriving DecidableEq, Repr

/-- A memory: its listed bytes, and its spans, newest first. -/
structure Memory where
  cells : List Host.Cell
  spans : List MemSpan
  deriving DecidableEq, Repr

/-- The memory after device reset: nothing listed. -/
def Memory.empty : Memory := ⟨[], []⟩

/-- The span that governs an address. -/
def Memory.span (m : Memory) (a : Nat) : Option MemSpan := m.spans.find? (fun p => decide (p.lo ≤ a) && decide (a < p.hi))

/-- What an unlisted address reads as. -/
def Memory.unlisted (m : Memory) (a : Nat) : Byte :=
  match m.span a with
  | none => 0
  | some p =>
    match p.src with
    | none => 0
    | some (n, o) => Config.freeByte n (o + (a - p.lo))

/-- Whether an unlisted byte at the address is unspecified. -/
def Memory.open_ (m : Memory) (a : Nat) : Bool :=
  match m.span a with
  | none => false
  | some p => p.src.isSome

/-- The byte at an address. -/
def Memory.get (m : Memory) (a : Nat) : Byte := mapGet m.unlisted m.cells a

/-- Writes a byte, in the one canonical form: a 0 is listed only where an unlisted byte is unspecified. -/
def Memory.put (m : Memory) (a : Nat) (b : Byte) : Memory :=
  if b = 0 ∧ m.open_ a = false then { m with cells := mapDrop (fun k => k == a) m.cells }
  else { m with cells := mapSet a b m.cells }

/-- Writes bytes from an address upwards. -/
def Memory.puts (m : Memory) (a : Nat) : List Byte → Memory
  | [] => m
  | b :: r => (m.put a b).puts (a + 1) r

/-- Gives the bytes of [lo, hi) a new background. -/
def Memory.paint (m : Memory) (lo hi : Nat) (src : Option (Nat × Nat)) : Memory :=
  let meets := m.spans.any (fun p => decide (p.lo < hi) && decide (lo < p.hi))
  let rest := m.spans.filter (fun p => !(decide (lo ≤ p.lo) && decide (p.hi ≤ hi)))
  { cells := mapDrop (fun a => decide (lo ≤ a) && decide (a < hi)) m.cells
    spans := if src.isNone ∧ meets = false then m.spans else ⟨lo, hi, src⟩ :: rest }

/-- The bytes of [lo, hi) become unspecified: free value number `n`. -/
def Memory.lose (m : Memory) (lo hi n : Nat) : Memory := m.paint lo hi (some (n, 0))

/-- The bytes of [lo, hi) become 0. -/
def Memory.zero (m : Memory) (lo hi : Nat) : Memory := m.paint lo hi none

/-- The part of a span within [a, a + n), as it stands at [b, b + n). -/
def MemSpan.moved (p : MemSpan) (a b n : Nat) : Option MemSpan :=
  let lo := max p.lo a
  let hi := min p.hi (a + n)
  if lo < hi then some ⟨lo - a + b, hi - a + b, p.src.map (fun (k, o) => (k, o + (lo - p.lo)))⟩ else none

/-- Copies the `n` bytes at `a` to `b`; the two ranges do not meet. -/
def Memory.copy (m : Memory) (a b n : Nat) : Memory :=
  let from_ := m.cells.filter (fun (q : Host.Cell) => decide (a ≤ q.1) && decide (q.1 < a + n))
  let bg := m.spans.filterMap (fun p => p.moved a b n)
  let m := m.zero b (b + n)
  from_.foldl (fun m (q : Host.Cell) => m.put (q.1 - a + b) q.2) { m with spans := bg ++ m.spans }

end Sys2Proof.Machine
end

