-- ==== Sys2Proof/Machine/Num.lean ====
section
/-! DEFINITION. Exact arithmetic and the number formats of 03_numerics.md: exact values, one rounding, element
layouts, block scales, stochastic rounding, the reference order's segment sum, IEEE operations with flags, the
bittern and the counter-based generator. -/

namespace Sys2Proof.Machine

/-- An exact value: a NaN, an infinity, or a signed rational `num / den * 2^exp` (zero keeps its sign). -/
inductive Val where
  | nan
  | inf (neg : Bool)
  | fin (neg : Bool) (num den : Nat) (exp : Int)
  deriving DecidableEq, Repr

/-- Which codes at the top of a format are not finite (R54). -/
inductive Top where
  /-- exponent all ones: infinity at mantissa 0, NaN elsewhere -/
  | ieee
  /-- E4M3: only the code with all bits set is NaN; no infinity -/
  | oneNaN
  /-- every code finite -/
  | finite
  deriving DecidableEq, Repr

/-- A floating-point layout of R54: exponent bits, mantissa bits, bias, top codes, canonical NaN code (R57). -/
structure FFmt where
  eb : Nat
  mb : Nat
  bias : Nat
  top : Top
  nan : Nat
  deriving DecidableEq, Repr

def fFP64 : FFmt := ⟨11, 52, 1023, .ieee, 0x7FF8000000000000⟩
def fFP32 : FFmt := ⟨8, 23, 127, .ieee, 0x7FC00000⟩
def fFP16 : FFmt := ⟨5, 10, 15, .ieee, 0x7E00⟩
def fBF16 : FFmt := ⟨8, 7, 127, .ieee, 0x7FC0⟩
def fE4M3 : FFmt := ⟨4, 3, 7, .oneNaN, 0x7F⟩
def fE5M2 : FFmt := ⟨5, 2, 15, .ieee, 0x7E⟩
def fE2M3 : FFmt := ⟨2, 3, 1, .finite, 0⟩
def fE3M2 : FFmt := ⟨3, 2, 3, .finite, 0⟩
def fE2M1 : FFmt := ⟨2, 1, 1, .finite, 0⟩

/-- Width of a format in bits. -/
def FFmt.width (f : FFmt) : Nat := 1 + f.eb + f.mb

/-- Exponent of the least normal value. -/
def FFmt.emin (f : FFmt) : Int := 1 - (f.bias : Int)

/-- The value zero of a sign. -/
def vZero (neg : Bool) : Val := .fin neg 0 1 0

/-- A natural number as an exact value. -/
def vNat (n : Nat) : Val := .fin false n 1 0

/-- An integer as an exact value. -/
def vInt (n : Int) : Val := .fin (decide (n < 0)) n.natAbs 1 0

/-- `2^e`. -/
def vPow2 (e : Int) : Val := .fin false 1 1 e

def Val.isNan : Val → Bool
  | .nan => true
  | _ => false

def Val.isInf : Val → Bool
  | .inf _ => true
  | _ => false

def Val.isFin : Val → Bool
  | .fin .. => true
  | _ => false

def Val.isZero : Val → Bool
  | .fin _ n _ _ => n == 0
  | _ => false

/-- The sign bit; a NaN has sign 0. -/
def Val.sign : Val → Bool
  | .nan => false
  | .inf s => s
  | .fin s .. => s

/-- The value a code of a layout encodes (R54). -/
def FFmt.decode (f : FFmt) (code : Nat) : Val :=
  let m := code % 2 ^ f.mb
  let e := code / 2 ^ f.mb % 2 ^ f.eb
  let s := code / 2 ^ (f.mb + f.eb) % 2 == 1
  let topE := 2 ^ f.eb - 1
  if f.top = .ieee ∧ e = topE then
    if m = 0 then .inf s else .nan
  else if f.top = .oneNaN ∧ e = topE ∧ m = 2 ^ f.mb - 1 then .nan
  else if e = 0 then .fin s m 1 (f.emin - f.mb)
  else .fin s (2 ^ f.mb + m) 1 ((e : Int) - f.bias - f.mb)

/-- The code of the largest finite magnitude. -/
def FFmt.maxCode (f : FFmt) : Nat :=
  match f.top with
  | .ieee => (2 ^ f.eb - 2) * 2 ^ f.mb + (2 ^ f.mb - 1)
  | .oneNaN => (2 ^ f.eb - 1) * 2 ^ f.mb + (2 ^ f.mb - 2)
  | .finite => (2 ^ f.eb - 1) * 2 ^ f.mb + (2 ^ f.mb - 1)

/-- The code of infinity, for formats that have one. -/
def FFmt.infCode (f : FFmt) : Nat := (2 ^ f.eb - 1) * 2 ^ f.mb

def FFmt.signBit (f : FFmt) (neg : Bool) : Nat := if neg then 2 ^ (f.eb + f.mb) else 0

/-- `floor (log2 (num / den * 2^exp))` for a non-zero magnitude. -/
def magLog2 (num den : Nat) (exp : Int) : Int :=
  let k : Int := (num.log2 : Int) - (den.log2 : Int)
  let below : Bool :=
    if 0 ≤ k then decide (num < den * 2 ^ k.toNat) else decide (num * 2 ^ (-k).toNat < den)
  (if below then k - 1 else k) + exp

/-- A magnitude cut on the grid of quantum `2^q`: quotient, remainder and divisor. -/
def magCut (num den : Nat) (exp q : Int) : Nat × Nat × Nat :=
  let d := exp - q
  if 0 ≤ d then
    let n := num * 2 ^ d.toNat
    (n / den, n % den, den)
  else
    let dd := den * 2 ^ (-d).toNat
    (num / dd, num % dd, dd)

/-- Round to nearest, ties to even, of a cut. -/
def cutRne (c : Nat × Nat × Nat) : Nat :=
  let (n, r, d) := c
  if 2 * r < d then n else if d < 2 * r then n + 1 else if n % 2 = 0 then n else n + 1

/-- The quantum exponent of a layout at a magnitude: its binade's, or the subnormal one. -/
def FFmt.quantum (f : FFmt) (num den : Nat) (exp : Int) : Int :=
  max (magLog2 num den exp) f.emin - f.mb

/-- The magnitude code of `n * 2^q` where `n ≤ 2^(mb+1)` (rounding may carry into the next binade). The code
may lie above the largest finite code: the caller tests that. -/
def FFmt.pack (f : FFmt) (n : Nat) (q : Int) : Nat :=
  if n < 2 ^ f.mb then n
  else
    -- the exponent field minus one, times 2^mb, plus the significand with its leading bit
    ((q + f.mb - f.emin).toNat) * 2 ^ f.mb + n

/-- How a conversion rounds: to nearest even, or stochastically with 16 random bits (R62, R71). -/
inductive Rnd where
  | rne
  | stoch (r : Nat)
  deriving DecidableEq, Repr

/-- Magnitude code after rounding on the grid continued upwards (R63), to nearest even. -/
def FFmt.roundRne (f : FFmt) (num den : Nat) (exp : Int) : Nat :=
  if num = 0 then 0
  else
    let q := f.quantum num den exp
    f.pack (cutRne (magCut num den exp q)) q

/-- Magnitude code after stochastic rounding (R71): with lo < x < hi adjacent, `d = (x − lo)/(hi − lo)`,
`q = floor (d * 65536)`, hi when `r < q`. For a negative x the lower neighbour is the larger magnitude. -/
def FFmt.roundStoch (f : FFmt) (neg : Bool) (num den : Nat) (exp : Int) (r : Nat) : Nat :=
  if num = 0 then 0
  else
    let q := f.quantum num den exp
    let (n, rem, d) := magCut num den exp q
    if rem = 0 then f.pack n q
    else if neg then
      if r < (d - rem) * 65536 / d then f.pack n q else f.pack (n + 1) q
    else
      if r < rem * 65536 / d then f.pack (n + 1) q else f.pack n q

/-- One narrow write of an unscaled floating-point element: the code stored and whether it is an overflow on
write (R62 to R65, R71, R72). Formats without infinity store the canonical NaN for one (R64). -/
def FFmt.write (f : FFmt) (rnd : Rnd) (v : Val) : Nat × Bool :=
  match v with
  | .nan => (f.nan, true)
  | .inf s => (if f.top = .ieee then f.signBit s + f.infCode else f.nan, true)
  | .fin s n d e =>
    let near := f.roundRne n d e
    if f.maxCode < near then (f.signBit s + f.maxCode, true)
    else
      match rnd with
      | .rne => (f.signBit s + near, false)
      | .stoch r => (f.signBit s + min (f.roundStoch s n d e r) f.maxCode, false)

/-- The exception flags of CORE_FSTAT. -/
structure Flags where
  nv : Bool
  dz : Bool
  of : Bool
  uf : Bool
  nx : Bool
  deriving DecidableEq, Repr

def Flags.none : Flags := ⟨false, false, false, false, false⟩

def Flags.or (a b : Flags) : Flags :=
  ⟨a.nv || b.nv, a.dz || b.dz, a.of || b.of, a.uf || b.uf, a.nx || b.nx⟩

/-- Bits [4:0] of CORE_FSTAT. -/
def Flags.bits (f : Flags) : Nat :=
  (if f.nv then 16 else 0) + (if f.dz then 8 else 0) + (if f.of then 4 else 0) + (if f.uf then 2 else 0)
    + (if f.nx then 1 else 0)

/-- Rounds an exact value once to a layout under IEEE 754, to nearest even: overflow gives infinity, and the
flags OF, UF (tiny after rounding and inexact) and NX are those of the standard. -/
def FFmt.ieee (f : FFmt) (v : Val) : Nat × Flags :=
  match v with
  | .nan => (f.nan, .none)
  | .inf s => (f.signBit s + f.infCode, .none)
  | .fin s n d e =>
    if n = 0 then (f.signBit s, .none)
    else
      let q := f.quantum n d e
      let cut := magCut n d e q
      let nx := decide (cut.2.1 ≠ 0)
      let c := f.pack (cutRne cut) q
      if f.maxCode < c then (f.signBit s + f.infCode, { Flags.none with of := true, nx := true })
      else
        -- tininess after rounding: rounded with an unbounded exponent, the magnitude is below the least normal
        let tiny : Bool :=
          decide (magLog2 n d e < f.emin) &&
            (let q' := magLog2 n d e - f.mb
             decide (¬ (cutRne (magCut n d e q') = 2 ^ (f.mb + 1) ∧ magLog2 n d e + 1 = f.emin)))
        (f.signBit s + c, { Flags.none with uf := tiny && nx, nx := nx })

/-! Exact operations on values. Signs of exact zero sums follow IEEE 754 to nearest: +0 unless both are −0. -/

def Val.neg : Val → Val
  | .nan => .nan
  | .inf s => .inf (!s)
  | .fin s n d e => .fin (!s) n d e

def Val.abs : Val → Val
  | .nan => .nan
  | .inf _ => .inf false
  | .fin _ n d e => .fin false n d e

/-- The exact product; infinity times zero is a NaN. -/
def Val.mul (a b : Val) : Val :=
  match a, b with
  | .nan, _ => .nan
  | _, .nan => .nan
  | .inf s, .inf t => .inf (s != t)
  | .inf s, .fin t n _ _ => if n = 0 then .nan else .inf (s != t)
  | .fin s n _ _, .inf t => if n = 0 then .nan else .inf (s != t)
  | .fin s n d e, .fin t m c f => .fin (s != t) (n * m) (d * c) (e + f)

/-- The signed numerators of two magnitudes over one denominator and one exponent. -/
def Val.align (s : Bool) (n d : Nat) (e : Int) (t : Bool) (m c : Nat) (f : Int) : Int × Int × Nat × Int :=
  let g := min e f
  let a : Int := n * 2 ^ (e - g).toNat * c
  let b : Int := m * 2 ^ (f - g).toNat * d
  (if s then -a else a, if t then -b else b, d * c, g)

/-- The exact sum. -/
def Val.add (a b : Val) : Val :=
  match a, b with
  | .nan, _ => .nan
  | _, .nan => .nan
  | .inf s, .inf t => if s = t then .inf s else .nan
  | .inf s, .fin .. => .inf s
  | .fin .., .inf t => .inf t
  | .fin s n d e, .fin t m c f =>
    let (x, y, den, g) := Val.align s n d e t m c f
    let z := x + y
    if z = 0 then .fin (s && t) 0 1 0
    else .fin (decide (z < 0)) z.natAbs den g

def Val.sub (a b : Val) : Val := a.add b.neg

/-- The exact quotient: 0/0 and ∞/∞ are NaN, x/0 is an infinity. -/
def Val.div (a b : Val) : Val :=
  match a, b with
  | .nan, _ => .nan
  | _, .nan => .nan
  | .inf _, .inf _ => .nan
  | .inf s, .fin t _ _ _ => .inf (s != t)
  | .fin s _ _ _, .inf t => .fin (s != t) 0 1 0
  | .fin s n d e, .fin t m c f =>
    if m = 0 then (if n = 0 then .nan else .inf (s != t))
    else .fin (s != t) (n * c) (d * m) (e - f)

/-- Strict order; false with a NaN. −0 and +0 are equal. -/
def Val.lt (a b : Val) : Bool :=
  match a, b with
  | .nan, _ => false
  | _, .nan => false
  | .inf s, .inf t => s && !t
  | .inf s, .fin .. => s
  | .fin .., .inf t => !t
  | .fin s n d e, .fin t m c f =>
    let (x, y, _, _) := Val.align s n d e t m c f
    decide (x < y)

/-- Numerical equality; false with a NaN. -/
def Val.eq (a b : Val) : Bool := !a.isNan && !b.isNan && !a.lt b && !b.lt a

def Val.le (a b : Val) : Bool := !a.isNan && !b.isNan && !b.lt a

/-- Integer square root by bits, `fuel` bits of result. -/
def isqrtGo (n : Nat) : Nat → Nat → Nat
  | 0, r => r
  | fuel + 1, r =>
    let t := r + 2 ^ fuel
    isqrtGo n fuel (if t * t ≤ n then t else r)

/-- `floor (sqrt n)`. -/
def isqrt (n : Nat) : Nat := isqrtGo n (n.log2 / 2 + 1) 0

/-- The square root carried to 128 bits and a sticky bit: enough to round once to any layout here. -/
def Val.sqrt : Val → Val
  | .nan => .nan
  | .inf s => if s then .nan else .inf false
  | .fin s n d e =>
    if n = 0 then .fin s 0 1 0
    else if s then .nan
    else
      -- d is a power of two or one wherever the device takes a root; a general d is folded in by n*d/d²
      let m := n * d
      let odd := decide (e % 2 ≠ 0)
      let m' := (if odd then 2 * m else m) * 2 ^ 256
      let e' := ((if odd then e - 1 else e) - 256) / 2
      let r := isqrt m'
      let st := if r * r = m' then 0 else 1
      .fin false (2 * r + st) (2 * d) e'

/-- Nearest integer, ties to even. -/
def Val.roundInt : Val → Int
  | .fin s n d e =>
    let m : Int := cutRne (magCut n d e 0)
    if s then -m else m
  | _ => 0

/-- The integer nearest zero (truncation). -/
def Val.truncInt : Val → Int
  | .fin s n d e =>
    let m : Int := (magCut n d e 0).1
    if s then -m else m
  | _ => 0

/-- The floor. -/
def Val.floorInt : Val → Int
  | .fin s n d e =>
    let (m, r, _) := magCut n d e 0
    if s then -((m : Int) + (if r = 0 then 0 else 1)) else m
  | _ => 0

/-- Clamp of an integer. -/
def clampInt (lo hi x : Int) : Int := max lo (min hi x)

/-- Two's complement code of an integer in `w` bits. -/
def intCode (w : Nat) (x : Int) : Nat := (x % (2 ^ w : Int)).toNat

/-- The integer a two's complement code of `w` bits means. -/
def codeInt (w : Nat) (c : Nat) : Int :=
  if c < 2 ^ (w - 1) then c else (c : Int) - 2 ^ w

/-! FP32 arithmetic on codes, rounded once to nearest even. -/

def d32 (c : Nat) : Val := fFP32.decode c
def r32 (v : Val) : Nat := (fFP32.ieee v).1
def add32 (a b : Nat) : Nat := r32 ((d32 a).add (d32 b))
def sub32 (a b : Nat) : Nat := r32 ((d32 a).sub (d32 b))
def mul32 (a b : Nat) : Nat := r32 ((d32 a).mul (d32 b))
def div32 (a b : Nat) : Nat := r32 ((d32 a).div (d32 b))
def sqrt32 (a : Nat) : Nat := r32 (d32 a).sqrt
/-- Fused multiply-add, rounded once. The sign of an exact zero follows IEEE 754. -/
def fma32 (a b c : Nat) : Nat := r32 (((d32 a).mul (d32 b)).add (d32 c))

/-- The lesser or greater of two codes: NaN if either is one, −0 below +0 (VMIN and VMAX of R278). -/
def FFmt.minMax (f : FFmt) (mx : Bool) (a b : Nat) : Nat :=
  let x := f.decode a
  let y := f.decode b
  if x.isNan || y.isNan then f.nan
  else
    let aLess : Bool := x.lt y || (x.eq y && x.sign && !y.sign)
    if aLess != mx then a else b

/-- Whether an FP32 code is an infinity or a NaN. -/
def nonFinite32 (c : Nat) : Bool := !(d32 c).isFin

/-! The format field (R52, R53). -/

/-- Element formats of R52. -/
inductive Elem where
  | fp32 | fp16 | bf16 | e4m3 | e5m2 | e2m3 | e3m2 | e2m1 | int8 | int32
  deriving DecidableEq, Repr

/-- A format field that R53 supports: element, block size (0 for none) and whether the scale is E4M3. -/
structure Fmt where
  elem : Elem
  blk : Nat
  e4m3Scale : Bool
  deriving DecidableEq, Repr

def Elem.bits : Elem → Nat
  | .fp32 => 32
  | .fp16 => 16
  | .bf16 => 16
  | .e4m3 => 8
  | .e5m2 => 8
  | .e2m3 => 6
  | .e3m2 => 6
  | .e2m1 => 4
  | .int8 => 8
  | .int32 => 32

/-- The floating-point layout of an element, none for the integers. -/
def Elem.layout : Elem → Option FFmt
  | .fp32 => some fFP32
  | .fp16 => some fFP16
  | .bf16 => some fBF16
  | .e4m3 => some fE4M3
  | .e5m2 => some fE5M2
  | .e2m3 => some fE2M3
  | .e3m2 => some fE3M2
  | .e2m1 => some fE2M1
  | .int8 => none
  | .int32 => none

/-- ELEM codes 0x0 to 0x9 of R52. -/
def elemOf : Nat → Option Elem
  | 0 => some .fp32
  | 1 => some .fp16
  | 2 => some .bf16
  | 3 => some .e4m3
  | 4 => some .e5m2
  | 5 => some .e2m3
  | 6 => some .e3m2
  | 7 => some .e2m1
  | 8 => some .int8
  | 9 => some .int32
  | _ => none

/-- BLK codes of R52, as a block size. -/
def blkOf : Nat → Option Nat
  | 0 => some 0
  | 1 => some 16
  | 2 => some 32
  | 3 => some 64
  | 4 => some 128
  | _ => none

/-- The format a field names, none where R53 does not support it. -/
def fmtOf (field : BitVec 8) : Option Fmt :=
  let c := field.toNat
  match elemOf (c / 16), blkOf (c / 2 % 8) with
  | some e, some b =>
    let scl := c % 2 == 1
    if b = 0 ∧ scl then none
    else
      match e with
      | .fp32 | .fp16 | .bf16 | .int32 => if b = 0 then some ⟨e, 0, false⟩ else none
      | .e4m3 | .e5m2 | .int8 => some ⟨e, b, scl⟩
      | .e2m3 | .e3m2 | .e2m1 => if b = 0 then none else some ⟨e, b, scl⟩
  | _, _ => none

/-- Whether the format carries block scales. -/
def Fmt.scaled (f : Fmt) : Bool := f.blk != 0

/-- The value of an element's code before its block scale (R54, R55). -/
def Fmt.decode (f : Fmt) (code : Nat) : Val :=
  match f.elem.layout with
  | some l => l.decode code
  | none =>
    let i := codeInt f.elem.bits code
    if f.scaled then .fin (decide (i < 0)) i.natAbs 1 (-6) else vInt i

/-- The value of a scale code (R59): E8M0 or E4M3 with its sign bit 0. -/
def scaleVal (e4m3 : Bool) (code : Nat) : Val :=
  if e4m3 then
    if 128 ≤ code then .nan else fE4M3.decode code
  else if code = 255 then .nan
  else vPow2 ((code : Int) - 127)

/-- The value an element of a block-scaled block reads as: under a zero scale +0 or −0 by its code's sign bit, a NaN code
among them (R60). -/
def Fmt.scaledVal (f : Fmt) (scale code : Nat) : Val :=
  match scaleVal f.e4m3Scale scale with
  | .nan => .nan
  | sc =>
    if sc.isZero then vZero (code.testBit (f.elem.bits - 1))
    else (f.decode code).mul sc

/-- The canonical NaN code of R57 for a floating-point element; 0 for formats that have none. -/
def Elem.nanCode (e : Elem) : Nat :=
  match e.layout with
  | some l => l.nan
  | none => 0

/-- Writes one unscaled element (R62 to R65): code and overflow on write. -/
def Elem.writeUnscaled (e : Elem) (rnd : Rnd) (v : Val) : Nat × Bool :=
  match e.layout with
  | some l => l.write rnd v
  | none =>
    let w := e.bits
    let lo : Int := -(2 ^ (w - 1))
    let hi : Int := 2 ^ (w - 1) - 1
    match v with
    | .nan => (0, true)
    | .inf s => (intCode w (if s then lo else hi), true)
    | .fin s n d x =>
      let i := Val.roundInt (.fin s n d x)
      if i < lo then (intCode w lo, true)
      else if hi < i then (intCode w hi, true)
      else
        match rnd with
        | .rne => (intCode w i, false)
        | .stoch r =>
          -- the integer grid of R71: lo = floor x, hi = lo + 1
          let f := Val.floorInt (.fin s n d x)
          let (_, rem, dd) := magCut n d x 0
          if rem = 0 then (intCode w f, false)
          else
            let up := if s then (dd - rem) * 65536 / dd else rem * 65536 / dd
            (intCode w (clampInt lo hi (if r < up then f + 1 else f)), false)

/-- One element of a block-scaled block: the quotient of the value by the chosen scale, rounded once (R68). A
block-scaled INT8 element is its integer times 2^−6 and saturates at ±127 (R55, R63). -/
def Elem.writeScaled (e : Elem) (rnd : Rnd) (q : Val) : Nat × Bool :=
  match e.layout with
  | some l => l.write rnd q
  | none =>
    let v := q.mul (vPow2 6)
    let i := v.roundInt
    if i < -127 then (intCode 8 (-127), true)
    else if 127 < i then (intCode 8 127, true)
    else
      match rnd with
      | .rne => (intCode 8 i, false)
      | .stoch r =>
        match v with
        | .fin s n d x =>
          let f := v.floorInt
          let (_, rem, dd) := magCut n d x 0
          if rem = 0 then (intCode 8 f, false)
          else
            let up := if s then (dd - rem) * 65536 / dd else rem * 65536 / dd
            (intCode 8 (clampInt (-127) 127 (if r < up then f + 1 else f)), false)
        | _ => (intCode 8 i, false)

/-- The largest finite element value M of "Choosing block scales". -/
def Elem.maxVal (e : Elem) : Val :=
  match e.layout with
  | some l => l.decode l.maxCode
  | none => .fin false 127 1 (-6)

/-- The largest of a list of magnitudes. -/
def amaxOf (vs : List Val) : Val :=
  vs.foldl (fun a v => if a.lt v.abs then v.abs else a) (vZero false)

/-- Smallest integer e with `amax ≤ M * 2^e`, for non-zero amax (R66), by the binade of the exact quotient. -/
def smallestExp (m amax : Val) : Int :=
  match amax.div m with
  | .fin _ n d x =>
    let k := magLog2 n d x
    if (amax.le (m.mul (vPow2 k))) then k else k + 1
  | _ => 0

/-- The E4M3 scale code of R67: the least code from 1 to 0x7E whose value s has `amax ≤ M * s`, else 0x7E. -/
def smallestE4M3 (m amax : Val) : Nat → Nat → Nat
  | 0, _ => 0x7E
  | fuel + 1, c => if amax.le (m.mul (fE4M3.decode c)) then c else smallestE4M3 m amax fuel (c + 1)

/-- Scale code, and whether the block is a NaN block (R66 to R70). -/
def chooseScale (f : Fmt) (vs : List Val) : Nat × Bool :=
  if vs.any (fun v => !v.isFin) then (if f.e4m3Scale then 0x7F else 0xFF, true)
  else
    let amax := amaxOf vs
    if amax.isZero then (if f.e4m3Scale then 0x38 else 0x7F, false)
    else if f.e4m3Scale then (smallestE4M3 f.elem.maxVal amax 125 1, false)
    else ((clampInt (-127) 127 (smallestExp f.elem.maxVal amax) + 127).toNat, false)

/-- One block written (choose_block): scale code, element codes, overflows on write, one for each element that saturates
or one for a NaN block (R65, R70). Each value carries how it rounds. -/
def writeBlock (f : Fmt) (vs : List (Val × Rnd)) : Nat × List Nat × Nat :=
  let (sc, isNaN) := chooseScale f (vs.map (·.1))
  if isNaN then (sc, vs.map (fun _ => 0), 1)
  else
    let s := scaleVal f.e4m3Scale sc
    let cs := vs.map (fun (v, r) => f.elem.writeScaled r (v.div s))
    (sc, cs.map (·.1), (cs.filter (·.2)).length)

/-! The reference order (R74 to R78). -/

/-- The exact sum of a segment's products with the special values of R76 and R77: +0 for a zero sum unless every
product is −0. -/
def segSum (ps : List Val) : Val :=
  if ps.any Val.isNan then .nan
  else
    let s := ps.foldl Val.add (vZero true)
    if s.isZero then vZero (ps.all (fun p => p.isZero && p.sign)) else s

/-- Cuts a list into runs of `n`, `fuel` at most. -/
def chunks {α : Type} (n : Nat) : Nat → List α → List (List α)
  | 0, _ => []
  | fuel + 1, l => if l.isEmpty then [] else l.take n :: chunks n fuel (l.drop n)

/-- The pan result of the products of one element (R74): segments of 32, each summed exactly and rounded once to
FP32, accumulated in ascending order one FP32 addition at a time; a continuation value is the first
accumulator (R75). -/
def refDot (products : List Val) (cont : Option Nat) : Nat :=
  let segs := (chunks 32 products.length products).map (fun p => r32 (segSum p))
  match cont, segs with
  | none, [] => 0
  | none, s :: r => r.foldl add32 s
  | some c, r => r.foldl add32 c

/-- The integer path of R78: the exact dot product, with an exact continuation. -/
def intDot (products : List Int) (cont : Option Int) : Int :=
  products.foldl (· + ·) (cont.getD 0)

/-! The bittern (R86 to R88). -/

/-- `ulp` exponent of a BF16 value (R86). -/
def ulpExp : Val → Int
  | .fin _ n d e => if n = 0 then -133 else max (magLog2 n d e) (-126) - 7
  | _ => -133

/-- The exact value of a bittern of width `w` beside the weight `x` (R86). -/
def bitternVal (b : Int) (x : Val) (w : Nat) : Val := (vInt b).mul (vPow2 (ulpExp x - w))

/-- Rounds an FP32 value to BF16 and forms the remainder (R87): the BF16 code and the new bittern. -/
def bitternSplit (next : Val) (w : Nat) : Nat × Int :=
  let c := (fBF16.write .rne next).1
  match next with
  | .fin .. =>
    let wNew := fBF16.decode c
    let r := ((next.sub wNew).mul (vPow2 (w - ulpExp wNew))).roundInt
    (c, clampInt (-(2 ^ (w - 1))) (2 ^ (w - 1) - 1) r)
  | _ => (c, 0)

/-! The counter-based generator (R89, R90). -/

/-- One Philox round. -/
def philoxRound (c : Nat × Nat × Nat × Nat) (k : Nat × Nat) : Nat × Nat × Nat × Nat :=
  let (c0, c1, c2, c3) := c
  let p0 := 0xD2511F53 * c0
  let p1 := 0xCD9E8D57 * c2
  (Nat.xor (Nat.xor (p1 / 2 ^ 32) c1) k.1, p1 % 2 ^ 32, Nat.xor (Nat.xor (p0 / 2 ^ 32) c3) k.2, p0 % 2 ^ 32)

/-- `n` further rounds, the key advanced before each. -/
def philoxGo : Nat → (Nat × Nat × Nat × Nat) → (Nat × Nat) → (Nat × Nat × Nat × Nat)
  | 0, c, _ => c
  | n + 1, c, k =>
    let k' := ((k.1 + 0x9E3779B9) % 2 ^ 32, (k.2 + 0xBB67AE85) % 2 ^ 32)
    philoxGo n (philoxRound c k') k'

/-- Philox-4×32-10 (R89). -/
def philox (c : Nat × Nat × Nat × Nat) (k : Nat × Nat) : Nat × Nat × Nat × Nat :=
  philoxGo 9 (philoxRound c k) k

/-- The generator word of R90. -/
def genWord (seed : Nat) (stream : Nat) (step : Nat) (pos : Nat) : Nat :=
  let k0 := Nat.xor (seed % 2 ^ 32) stream
  let k1 := seed / 2 ^ 32 % 2 ^ 32
  let q := pos / 4
  let (a, b, c, d) :=
    philox (q % 2 ^ 32, q / 2 ^ 32 % 2 ^ 32, step % 2 ^ 32, step / 2 ^ 32 % 2 ^ 32) (k0, k1)
  match pos % 4 with
  | 0 => a
  | 1 => b
  | 2 => c
  | _ => d

/-! Cyclic redundancy checks: the bitwise form of a reflected or plain CRC of `w` bits. -/

/-- One bit of a reflected CRC whose reversed polynomial is `poly`. -/
def crcReflStep (poly : Nat) : Nat → Nat → Nat
  | 0, r => r
  | n + 1, r => crcReflStep poly n (if r % 2 = 1 then Nat.xor (r / 2) poly else r / 2)

/-- A byte into a reflected CRC register. -/
def crcReflByte (poly r byte : Nat) : Nat := crcReflStep poly 8 (Nat.xor r byte)

/-- CRC-32C of bytes: reflected polynomial 0x82F63B78, initial and final value all ones. -/
def crc32c (bs : List Byte) : Nat :=
  Nat.xor (bs.foldl (fun r b => crcReflByte 0x82F63B78 r b.toNat) 0xFFFFFFFF) 0xFFFFFFFF

end Sys2Proof.Machine
end

