-- ==== Sys2Proof/Machine/StateCore.lean ====
section
/-! DEFINITION. The state of the cores, their clusters' dispatch units and the memory system: chapters 08 to 12. -/

namespace Sys2Proof.Machine

/-- A weave descriptor as a generator holds it (R320). -/
structure Desc where
  /-- its own virtual address -/
  va : Nat
  field : BitVec 8
  fmt : Fmt
  border : Nat
  residual : Bool
  compressible : Bool
  pinned : Bool
  scaleDim : Nat
  ownDim : Nat
  base : Nat
  scaleBase : Nat
  ext : List Nat
  stride : List Int
  ownVa : Nat
  ownExt : Nat
  deriving DecidableEq, Repr

/-- One windowed dimension (R214). -/
structure WinDim where
  ksize : Nat
  stride : Nat
  dil : Nat
  idil : Nat
  padLo : Int
  padHi : Int
  deriving DecidableEq, Repr

/-- A window record with the input descriptor it names (R214). -/
structure WinRec where
  sdims : Nat
  walk : Bool
  keep : Bool
  stripe : Nat
  dim0 : WinDim
  dim1 : WinDim
  input : Desc
  m0 : Nat
  mcount : Nat
  deriving DecidableEq, Repr

/-- What a tensor handle was loaded from (R238). -/
inductive HndSrc where
  | weave (d : Desc)
  | window (w : WinRec)
  deriving DecidableEq, Repr

/-- A block staged for TST (R239, R276): the block's linear index in the scale array, its elements' contents when it
was staged, and the values stored since, all with their logical linear indices. -/
structure Staged where
  block : Nat
  keep : List (Nat × Val)
  vals : List (Nat × Val)
  deriving DecidableEq, Repr

/-- A loaded tensor handle: source, cursor (signed 64-bit), staged block, clamped accesses not yet added to
OOB_CNT, whether one was a write, whether one met a zero extent (R238, R239, R330). -/
structure Handle where
  src : HndSrc
  cursor : BitVec 64
  staged : Option Staged
  oob : Nat
  oobWrite : Bool
  oobZero : Bool
  deriving DecidableEq, Repr

/-- A token (R241). -/
structure Token where
  count : Nat
  err : Bool
  deriving DecidableEq, Repr

def Token.reset : Token := ⟨0, false⟩

/-- The unit commands with their IMM fields (R294 to R297). -/
inductive UnitOp where
  | panLds (turn narrow : Bool) (fold : FoldSel)
  | panStr (swap win : Bool) (slot : Slot)
  | panMm (turn win : Bool) (slot : Slot) (fold : FoldSel)
  | panRake (slot : Fin 4)
  | panFill (turn : Bool) (slot : Slot)
  | panFillFlush
  | panTwin (turn xt : Bool) (xslot : Slot) (side acc : Bool) (gslot : Slot) (tw : TokIx)
  | sluCopy (sl : SlSel) (press : Press)
  | sluGather (sl : SlSel)
  | sluScatter (sl : SlSel) (add : Bool)
  | sluReduce (sl : SlSel) (op : RedOp)
  | sluColl (sl : SlSel) (op : RedOp) (kind : Nat)
  | sluXmit (sl : SlSel) (msg : Nat)
  | sluWait (sl : SlSel)
  | brnBatch
  | xtlRun (lx : Fin 8) (first last : BitVec 8)
  | xtlSeal (skip : Bool)
  | xtlBind (lx : Fin 8) (slot : BitVec 8)
  | xtlUnbind (lx : Fin 8) (slot : BitVec 8)
  | xtlEntry (lx : Fin 8) (group : BitVec 10)
  | xtlInit (lx : Fin 8) (slot : BitVec 8)
  | xtlGather (lx : Fin 8) (slot : BitVec 8)
  deriving DecidableEq, Repr

/-- A unit command as it leaves the core (R245, R292): the issuing core, its token, the operation, the copy of the
block in local memory (little-endian 8-byte words), the value of s[RB] where no block is used, and the step of the
core's granule (R253). -/
structure UnitCmd where
  core : CoreIx
  tk : TokIx
  op : UnitOp
  block : List (BitVec 64)
  sval : BitVec 64
  step : BitVec 64
  deriving DecidableEq, Repr

/-- A stalled unit command (R246, R247): the command, its block's local address and size, its target, whether a token
COUNT at 63 holds it, the tide at which the stall began, and whether event 0x1112 was raised. -/
structure Stall where
  cmd : UnitCmd
  la : Nat
  size : Nat
  target : Target
  token : Bool
  since : BitVec 64
  warned : Bool
  deriving DecidableEq, Repr

/-- What a core waits for (R285 to R288, R310). -/
inductive WaitKind where
  | fenceL
  | fenceS
  | fenceA
  | fenceUQ (t : Target)
  | fenceUT (k : TokIx)
  | tokenWait (k : TokIx) (rd : RegIx)
  | bar (id : Fin 16)
  | tide (target : BitVec 64) (rd : RegIx)
  | halt
  deriving DecidableEq, Repr

/-- A wait in progress. -/
structure Wait where
  kind : WaitKind
  since : BitVec 64
  warned : Bool
  deriving DecidableEq, Repr

/-- The operation an access performs at its home slice or the window. -/
inductive AccOp where
  | ld (rd : RegIx) (sz : MemSz) (sgn : Bool)
  | st (sz : MemSz) (data : BitVec 64)
  /-- one 64-byte line of a VLD: `line` 0–3, the bytes enabled, whether event 0x1302 was raised for the VLD -/
  | vld (vd : RegIx) (line : Fin 4) (mask : BitVec 64) (seen : Bool)
  | vst (data : BitVec 512) (mask : BitVec 64)
  | amo (fn : Fin 5) (sz : AmoSz) (rd : RegIx) (b c : BitVec 64)
  | ctlRd (rd : RegIx) (off : BitVec 64)
  | ctlWr (off v : BitVec 64)
  deriving DecidableEq, Repr

/-- An access issued and not yet performed (R302, R303): its virtual and physical address and operation. -/
structure Access where
  va : Nat
  pa : Nat
  op : AccOp
  deriving DecidableEq, Repr

/-- A deferred trap record (R255, R256). -/
structure TrapRec where
  cause : BitVec 8
  code : BitVec 16
  info : BitVec 64
  deriving DecidableEq, Repr

/-- CORE_STATUS.STATE apart from STALLED and WAITING, which `stall` and `wait` say. -/
inductive CoreMode where
  | halted | running | stopped | fenced
  deriving DecidableEq, Repr

/-- One Sillet core. -/
structure CoreSt where
  sreg : Vector (BitVec 64) 32
  vreg : Vector (BitVec 2048) 32
  preg : Vector (BitVec 256) 8
  hnd : Vector (Option Handle) 16
  tok : Vector Token 8
  pc : BitVec 64
  mode : CoreMode
  trapActive : Bool
  trapVec : BitVec 64
  trapEpc : BitVec 64
  trapCause : BitVec 64
  trapInfo : BitVec 64
  fstat : BitVec 5
  lost : Bool
  kill : Bool
  /-- deferred records held, oldest first, at most 8 (R256) -/
  recs : List TrapRec
  /-- deferred records on their way (4 pan-cycles, R256) -/
  recsIn : List TrapRec
  /-- completions on their way to a token, with error status (R242) -/
  toksIn : List (TokIx × Bool)
  /-- core-side buffers of targets 3 to 6 (R246) -/
  bufPan : List UnitCmd
  bufSlu : List UnitCmd
  bufBrn : List UnitCmd
  bufXtl : List UnitCmd
  /-- commands issued to each target and not completed (R285) -/
  outPan : Nat
  outSlu : Nat
  outBrn : Nat
  outXtl : Nat
  stall : Option Stall
  wait : Option Wait
  /-- accesses issued and not performed, oldest first -/
  acc : List Access
  /-- local memory, 1 MiB (R243) -/
  local_ : Memory
  deriving DecidableEq, Repr

/-- After reset (R259): tokens 0, handles invalid, HALTED; s1–s31, v0–v31, p1–p7 DESIGN CHOICE 0 (log entry 1),
local memory DESIGN CHOICE 0 (log entry 2). -/
def CoreSt.reset : CoreSt where
  sreg := Vector.replicate 32 0
  vreg := Vector.replicate 32 0
  preg := Vector.replicate 8 0
  hnd := Vector.replicate 16 none
  tok := Vector.replicate 8 Token.reset
  pc := 0
  mode := .halted
  trapActive := false
  trapVec := 0
  trapEpc := 0
  trapCause := 0
  trapInfo := 0
  fstat := 0
  lost := false
  kill := false
  recs := []
  recsIn := []
  toksIn := []
  bufPan := []
  bufSlu := []
  bufBrn := []
  bufXtl := []
  outPan := 0
  outSlu := 0
  outBrn := 0
  outXtl := 0
  stall := none
  wait := none
  acc := []
  local_ := Memory.empty

/-- A running granule (R250 to R253): the local address of its descriptor, its fields, the physical cores of its
MASK, the tide of its dispatch, whether it overran, whether one of its cores was killed. -/
structure Granule where
  addr : Nat
  step : BitVec 64
  arg : BitVec 64
  entry : BitVec 64
  cores : List CoreIx
  tide : BitVec 64
  overran : Bool
  killed : Bool
  deriving DecidableEq, Repr

/-- One cluster's dispatch unit (R250 to R254, R287). HEAD, TAIL, BASE and SEQ_SEL are registers. -/
structure DispSt where
  /-- physical local index (0–15) of each logical index: the AVAIL healthy cores first, then the fenced ones
  (R254) -/
  lmap : List Nat
  avail : Nat
  running : Option Granule
  blocked : Bool
  /-- event 0x1113 raised for the granule now at the head -/
  heldRaised : Bool
  /-- the running granule has passed an edge -/
  overrun : Bool
  /-- cores that have arrived at each barrier of the running granule -/
  bars : List (Nat × List CoreIx)
  deriving DecidableEq, Repr

def DispSt.reset : DispSt where
  lmap := List.range 16
  avail := 16
  running := none
  blocked := false
  heldRaised := false
  overrun := false
  bars := []

/-- An event record before firmware gives it a sequence number (R582, R626). -/
structure EvRec where
  tide : BitVec 64
  ns : Nat
  code : BitVec 16
  source : BitVec 16
  payload : BitVec 64
  deriving DecidableEq, Repr

/-- One allocation of the Stacker's frame table (R358): the page's partition, virtual page base, size in frames
(1 or 32), class, pin, and its first physical address. -/
structure PageAlloc where
  part : Nat
  va : Nat
  frames : Nat
  shared : Bool
  pin : Bool
  perm : Nat
  pa : Nat
  deriving DecidableEq, Repr

/-- One heat entry (R364): the page's first physical address and four counts. -/
structure HeatEntry where
  pa : Nat
  counts : Vector Nat 4
  deriving DecidableEq, Repr

/-- A page move in progress (R366, R367, R378): the page, its size in frames, the old and new first physical address,
frames moved so far, and whether it is an evacuation. -/
structure PageMove where
  part : Nat
  va : Nat
  frames : Nat
  old : Nat
  new : Nat
  moved : Nat
  evac : Bool
  deriving DecidableEq, Repr

/-- A MOVE request in progress (R371). -/
structure DieMove where
  part : Nat
  ldie : Nat
  old : Nat
  target : Nat
  /-- the copy is complete; the map changes at action 7 of the next edge (R370) -/
  copied : Bool
  deriving DecidableEq, Repr

/-- A frame that firmware gives to page tables: its partition, the bytes of each table in it, and the bytes in use. -/
structure TableFrame where
  part : Nat
  frame : Nat
  unit : Nat
  used : Nat
  deriving DecidableEq, Repr

/-- A burst in a controller's burst buffer: its number, PA / 32, and its 32 bytes as a number when it was last read or written
there (R374). -/
structure Burst where
  num : Nat
  data : Nat
  deriving DecidableEq, Repr

/-- What a slice's update queue has done in one tide window: the window, the line updates and AMOs that have entered, and
whether event 0x1241 has been raised in it (R317, R319). -/
structure UpdQ where
  tide : BitVec 64
  taken : Nat
  raised : Bool
  deriving DecidableEq, Repr

/-- The module's Stacker and the dies' memory controllers (12_memory.md). -/
structure StkSt where
  allocs : List PageAlloc
  /-- heat tables of the four dies -/
  heat : Vector (List HeatEntry) 4
  /-- accesses of each slice since its last counted one -/
  sample : Vector Nat 8
  /-- tides since the last halving -/
  decayTides : Nat
  moves : List PageMove
  dieMove : Option DieMove
  /-- the logical-die map: for each physical die its partition, logical die, MOVING (R369) -/
  lmap : Vector (Option (Nat × Nat × Bool)) 4
  /-- a FREE request that waits for the moves and accesses of its pages: partition, virtual address, frames (R363) -/
  freeing : Option (Nat × Nat × Nat)
  /-- pages that found no destination (R379), by first physical address -/
  stranded : List Nat
  /-- evacuations in progress: stack and pseudo-channel -/
  evac : List (Nat × Nat)
  /-- translation invalidation in progress on each die (R368): partition, first VA, length in frames -/
  inv : Vector (Option (Nat × Nat × Nat)) 4
  /-- running dies whose event 0x1308 has been raised (R372) -/
  deadRaised : List Nat
  /-- frames that hold page tables, withheld from the Stacker by firmware -/
  tables : List TableFrame
  /-- blocks that a copy pressed: physical address, the block's bytes as a number, source format and ratio (R234; the model's own
  field) -/
  pressed : List (Nat × Nat × Elem × Bool)
  /-- the update queue of each slice in the tide window in progress (R317, R319) -/
  updq : Vector UpdQ 8
  /-- the burst buffer of each stack's controller, most recently used first, at most 1024 (R374) -/
  bursts : Vector (List Burst) 16
  deriving DecidableEq, Repr

def StkSt.reset : StkSt where
  allocs := []
  heat := Vector.replicate 4 []
  sample := Vector.replicate 8 0
  decayTides := 0
  moves := []
  dieMove := none
  lmap := Vector.replicate 4 none
  freeing := none
  stranded := []
  evac := []
  inv := Vector.replicate 4 none
  deadRaised := []
  updq := Vector.replicate 8 ⟨0, 0, false⟩
  bursts := Vector.replicate 16 []
  tables := []
  pressed := []

/-- The tide unit (02_tide.md). -/
structure TideSt where
  num : BitVec 64
  ns : Nat
  /-- how much longer, in 1/16 ns, slewing or a step makes the tide in progress (R31, R35, R36, R41) -/
  adj : Int
  /-- error still to be slewed away, in 1/16 ns, positive when the local edge is late (R35, R39) -/
  slew : Int
  /-- a follower's step of its next tide: the phase in 1/16 ns, the number adopted at that tide's end, the offset in ns;
  and of the tide in progress, stepped, the number and the offset (R36) -/
  step : Option (Int × BitVec 64 × BitVec 32)
  stepping : Option (BitVec 64 × BitVec 32)
  /-- a PPS step: the phase in ns that the next tide takes, and the phase of a step whose number is to be set at the next
  edge that falls on a PPS edge (R41) -/
  ppsPhase : Option Int
  ppsAwait : Option Int
  /-- the next edge falls on a PPS edge and sets the number -/
  ppsSet : Bool
  ppsLast : BitVec 64
  /-- consecutive measurements within ±25 ns, and an excursion in progress (R36) -/
  alignRun : Nat
  excursion : Bool
  /-- MASTER_ID and MODE FOLLOW, which a job that starts sets once its period has taken effect (R37) -/
  join : Option (BitVec 16)
  /-- the counters of log entry 60 whose shadow has been read since the last snapshot, and so is known; none before the first
  snapshot, when every shadow holds 0 -/
  snapSeen : Option (List Nat)
  deriving DecidableEq, Repr

def TideSt.reset : TideSt where
  num := 0
  ns := 0
  adj := 0
  slew := 0
  step := none
  stepping := none
  ppsPhase := none
  ppsAwait := none
  ppsSet := false
  ppsLast := 0
  alignRun := 0
  excursion := false
  join := none
  snapSeen := none

end Sys2Proof.Machine
end

