-- ==== Sys2Proof/Machine/StatePan.lean ====
section
/-! DEFINITION. The state of the pans (04_pans.md, 05_twin_pans.md) and of the replay records (16_integrity.md). -/

namespace Sys2Proof.Machine

/-- A matrix element as a generator delivers it: its code and the code of its block's scale. -/
abbrev Cell := Nat × Nat

/-- Where a matrix operand comes from. Element (i, k) of `mem` is at row `r0 + i`, column `c0 + k` of the
descriptor's matrix, or the other way round when turned (R101); of `win`, window row i, element k (R217); `ones` is
the row of ones of the bias gradient (R150); `cells` is a loaded tile, row-major of width `w`; `unknown` a tile of
unspecified values (R138). -/
inductive MatSrc where
  | mem (d : Desc) (turn : Bool) (r0 c0 : Nat)
  | win (w : WinRec)
  | ones
  | cells (w : Nat) (l : List Cell)
  | unknown
  deriving DecidableEq, Repr

/-- Rows of a job with one source and one destination: result (i, n) goes to row `drow + i`, column `dcol + n` of
`dst`, or to linear index `dcol + n` when `vec` (R296). `cmd` is the command whose token the rows answer, `req` the
request's place in a fired batch (R134), `fmt` the format its rows stream in. -/
structure PanPart where
  cmd : UnitCmd
  req : Nat
  fmt : Fmt
  src : MatSrc
  rows : Nat
  dst : Desc
  drow : Nat
  dcol : Nat
  vec : Bool
  cont : Option Desc
  deriving DecidableEq, Repr

/-- One pass (R94, R112): job rows, columns from `n0`, reduction indices from `k0`, the array it runs on. -/
structure PanPass where
  rows : List Nat
  n0 : Nat
  nc : Nat
  k0 : Nat
  kc : Nat
  array : Nat
  deriving DecidableEq, Repr

/-- A replay unit within a command (R507): runs of job rows, each its first row and length, and columns
`n0 … n0+nn−1`. -/
structure PanUnit where
  runs : List (Nat × Nat)
  n0 : Nat
  nn : Nat
  deriving DecidableEq, Repr

/-- A product as a pan runs it. `kappa` is the logical index at which it starts, for the tally's K (R127); `engCols`
are the engine columns in use, `lds` the PAN.LDS (or fill request) of the tile streamed against. -/
structure PanJob where
  cmd : UnitCmd
  /-- 0 none, 1 cross, 2 gather (R147) -/
  role : Nat
  fold : Nat
  cls : Nat
  intPath : Bool
  tFmt : Fmt
  stat : MatSrc
  /-- where the stationary operand stands in memory, for overlap (R139) -/
  statAt : MatSrc
  k : Nat
  n : Nat
  kappa : Nat
  parts : List PanPart
  rake : Option (List (BitVec 64))
  engCols : List Nat
  lds : Option UnitCmd
  units : List PanUnit
  passes : List PanPass
  deriving DecidableEq, Repr

/-- A rake control block with the descriptors it names (R123). -/
structure Rake where
  bytes : List Byte
  scaleVec : Option Desc
  biasVec : Option Desc
  hold : Option Desc
  rowstat : Option Desc
  smstat : Option Desc
  deriving DecidableEq, Repr

/-- RAW: no stage enabled but 1 and 7. -/
def Rake.raw : Rake := ⟨List.replicate 64 0, none, none, none, none, none⟩

/-- A stationary tile and the arrays that hold it (R95, R110, R136). `known` is false for a tile of unspecified values
(R138, R161). -/
structure Tile where
  known : Bool
  arrays : List Nat
  fmt : Fmt
  field : BitVec 8
  cls : Nat
  fold : Nat
  nOff : Nat
  k : Nat
  n : Nat
  cells : List Cell
  src : Option UnitCmd
  deriving DecidableEq, Repr

/-- What one command has met in memory so far. -/
structure XNotes where
  fault : Option (Nat × Nat)
  poison : Option Nat
  badRecord : Bool
  oob : List (Nat × Nat × Bool × Bool)
  nanBlocks : List (Nat × Nat)
  lines : List Nat
  deriving DecidableEq, Repr

def XNotes.none : XNotes := ⟨.none, .none, false, [], [], []⟩

/-- Where the stripes of a window command lie (R225): their height, and the image and output row at which the sequence
starts. -/
structure StripePlan where
  height : Nat
  image : Nat
  row : Nat
  deriving DecidableEq, Repr

/-- A filled stripe: its image, its first output row, and the input rows it holds, each with its cells (R224). -/
structure Stripe where
  image : Nat
  start : Nat
  rows : List (Nat × List Cell)
  deriving DecidableEq, Repr

/-- A command in progress. -/
structure PanRun where
  /-- the product; none for PAN.LDS and PAN.RAKE -/
  job : Option PanJob
  cmd : UnitCmd
  /-- the fold it began with (R109) -/
  fold : Nat
  /-- the tile a PAN.LDS loads, as it read it (R136) -/
  tile : Option Tile
  /-- its rake slot with the descriptors as they were when it began (R124, R323) -/
  rake : Rake
  /-- bytes of the operands that a destination may overlap (R139, R164) -/
  spans : List (Int × Nat)
  /-- rows of dY that the twin bus has brought to the gather side (R147) -/
  bus : List Cell
  /-- the stripes of a window command; none in direct mode (R226) -/
  stripe : Option StripePlan
  /-- the twin partner (R147) -/
  twin : Option ClusterIx
  passes : List PanPass
  /-- accumulation store and results so far: key row · 2^20 + column (R111) -/
  acc : List (Nat × Int)
  /-- exact sums of segments that a cut of K left open (R74) -/
  pend : List (Nat × Val)
  notes : XNotes
  /-- faults met by single requests of a fired batch (R135, R342) -/
  bads : List (Nat × (Nat × Nat))
  tally : Bool
  prefetch : Bool
  /-- units found suspect, with the engines to charge -/
  suspect : List (Nat × List Nat)
  /-- units with a non-finite FP32 result, and the step of the command whose result it is (R83) -/
  nonFinite : List (Nat × BitVec 64)
  deriving DecidableEq, Repr

/-- A request the fill gate has accepted (R131). -/
structure FillReq where
  cmd : UnitCmd
  stat : Desc
  src : Desc
  dst : Desc
  deriving DecidableEq, Repr

/-- An open or fired fill batch (R132 to R134): its requests, the tide of the window it was opened in, and the
threshold and timeout it opened under. -/
structure Batch where
  reqs : List FillReq
  since : BitVec 64
  thr : Nat
  tmo : Nat
  deriving DecidableEq, Repr

/-- Where the decision of a suspect unit stands (R512, R513). -/
inductive RepPhase where
  /-- its command has not completed its writes -/
  | running
  | replay
  | third
  | writeBack
  deriving DecidableEq, Repr

/-- OPSIG and RESSIG of a run (R508). -/
structure Sigs where
  op : BitVec 64
  res : BitVec 64
  deriving DecidableEq, Repr

/-- A replay record (R509): the original pan, the commands of the unit (one, or a fired batch's requests), the rake
control block, the PAN.LDS record, the unit's coordinates, the original's signatures and overflow, the engines
mismatching, and the progress of the decision. -/
structure RepRec where
  pan : ClusterIx
  cmds : List UnitCmd
  role : Nat
  rake : Option (List (BitVec 64))
  lds : Option UnitCmd
  unit : PanUnit
  engines : List Nat
  contOver : Bool
  sigs : Sigs
  /-- the steps whose results or writes overflowed (R83, R514) -/
  ovf : List (BitVec 64)
  phase : RepPhase
  replayPan : Option ClusterIx
  thirdPan : Option ClusterIx
  repSigs : Sigs
  repEngines : List Nat
  deriving DecidableEq, Repr

/-- One pan. -/
structure PanSt where
  queue : List UnitCmd
  running : Option PanRun
  /-- commands whose passes are done and whose writes are still to be performed, oldest first (R305) -/
  ending : List PanRun
  front : Option Tile
  back : Option Tile
  slots : Vector (Option (List (BitVec 64))) 4
  batches : List Batch
  fired : List Batch
  gated : Bool
  /-- fences in effect (R145): engines, and the whole pan -/
  fenced : BitVec 16
  whole : Bool
  /-- the queued PAN.TWIN whose W tile BACK holds (R160) -/
  preloaded : Option UnitCmd
  /-- MAC performed below the unit of PAN_MAC_CNT -/
  mac : Nat
  /-- suspect units that wait for a replay record (R509) -/
  held : List RepRec
  /-- the stripe buffer is taken (R223) -/
  stripeOn : Bool
  /-- the stripes that the buffer holds, at most two, and the window record they belong to, M0 and MCOUNT left out, with
  its plan and the position at which its command ended (R228) -/
  stripes : List Stripe
  lastWin : Option (WinRec × StripePlan × Nat)
  deriving DecidableEq, Repr

/-- GATED is 1 after reset; no fence of the module is in effect (log entry 4). -/
def PanSt.reset : PanSt where
  queue := []
  running := none
  ending := []
  front := none
  back := none
  slots := Vector.replicate 4 none
  batches := []
  fired := []
  gated := true
  fenced := 0
  whole := false
  preloaded := none
  mac := 0
  held := []
  stripeOn := false
  stripes := []
  lastWin := none

end Sys2Proof.Machine
end

