-- ==== Sys2Proof/Machine/StateSlu.lean ====
section
/-! DEFINITION. The state of the sluices, of collectives in progress and of the dies' receive queues
(14_sluices.md). -/

namespace Sys2Proof.Machine

/-- A collective as its start fixed it (R432, R433, R436): the instance, the group's size, rank and members (device id
and die, in rank order), the result ring. -/
structure CollJob where
  src : Desc
  dst : Desc
  idx : Option Desc
  sidx : Nat
  didx : Nat
  count : Nat
  kind : Nat
  op : RedOp
  group : Nat
  inst : BitVec 64
  wide : Bool
  rank : Nat
  members : List (Nat × Nat)
  resVa : Nat
  deriving DecidableEq, Repr

/-- A sluice command that passed its checks. -/
inductive SluJob where
  | copy (src dst : Desc) (sidx didx count : Nat) (press : Press)
  | gather (src idx dst : Desc) (didx count : Nat)
  | scatter (src idx dst : Desc) (sidx count : Nat) (add : Bool)
  | reduce (src dst : Desc) (sidx didx count : Nat) (op : RedOp)
  | xmit (src : Desc) (sidx count msg rva dev die queue : Nat)
  | coll (j : CollJob)
  deriving DecidableEq, Repr

/-- The progress of a collective at one member: partials combined and sent up the chain (R435), finished results,
elements received from each rank and rows each rank announced (R436, R441), the ranks whose stream has ended, the
tide of the last progress and whether event 0x1603 was raised (R437), overflow in a written value and overflow flag
received (R439). -/
structure CollSt where
  /-- the member's own contribution is at hand, and its first sends are done -/
  ready : Bool
  up : Nat
  res : List Nat
  cells : List (Nat × List Cell)
  rows : List (Nat × Nat)
  done : List Nat
  since : BitVec 64
  warned : Bool
  ovf : Bool
  ovfIn : Bool
  deriving DecidableEq, Repr

/-- One running command. `got` are bytes fetched from owners on other modules (device id, die, virtual address);
`out` counts its segments not yet acknowledged and reads not yet answered; `moved` says that its own reads and writes
are done. -/
structure SluRun where
  id : Nat
  cmd : UnitCmd
  step : BitVec 64
  job : SluJob
  coll : Option CollSt
  got : List ((Nat × Nat × Nat) × Byte)
  out : Nat
  moved : Bool
  notes : XNotes
  fault : Option (Nat × BitVec 64)
  error : Bool
  deriving DecidableEq, Repr

/-- One sluice: its queue (16 entries, R421), running commands (4, R422), the next run's number, bytes below the unit
of its read and write counters, and whether it is fenced (R521). -/
structure SluSt where
  queue : List UnitCmd
  running : List SluRun
  next : Nat
  rdRem : Nat
  wrRem : Nat
  fenced : Bool
  deriving DecidableEq, Repr

def SluSt.reset : SluSt := ⟨[], [], 0, 0, 0, false⟩

/-- A collective chunk that has reached a member's die: the sender, the tag (R481), the overflow flag, whether it ends
the sender's stream, the fields of an IDX stream's start, and its payload. `fail` is the notice that the instance
failed at the sender (R433). -/
structure CollMsg where
  dev : Nat
  die : Nat
  inst : BitVec 64
  step : BitVec 64
  count : Nat
  group : Nat
  kind : Nat
  op : Nat
  idx : Bool
  fmt : BitVec 8
  chunk : Nat
  ovf : Bool
  last : Bool
  fail : Bool
  data : List Byte
  deriving DecidableEq, Repr

/-- Ring space reserved for a SEND whose bytes have not all been performed (R481): sender, queue, offset, space,
length. -/
structure SendRes where
  dev : Nat
  die : Nat
  queue : Nat
  start : Nat
  need : Nat
  len : Nat
  done : Bool
  deriving DecidableEq, Repr

/-- One die: SLU.WAITs in its wait table (64 entries, R422), collective chunks in the staging of the die's sluices and
chunks that their senders hold because there is no staging for them (R437), ring space reserved, oldest first, and the
tide window in which event 0x1604 was last raised for a full ring (R446). -/
structure DieSlu where
  waits : List UnitCmd
  inbox : List CollMsg
  held : List CollMsg
  res : List SendRes
  fullTide : Option (BitVec 64)
  deriving DecidableEq, Repr

def DieSlu.reset : DieSlu := ⟨[], [], [], [], none⟩

end Sys2Proof.Machine
end

