-- ==== Sys2Proof/Machine/StateLink.lean ====
section
/-! DEFINITION. The state of the Tuimal ports, connections, optical engines and Ethernet queue pairs
(15_tuimal_links.md), and of the package fabric. Port states, widths, delays and retired lanes are in the link
registers. -/

namespace Sys2Proof.Machine

/-- A segment (R479): the header's fields and the payload. -/
structure Seg where
  typ : Nat
  flags : Nat
  len : Nat
  srcDev : Nat
  dstDev : Nat
  dies : Nat
  queue : Nat
  etype : Nat
  hops : Nat
  msn : Nat
  arg : Nat
  aux : Nat
  data : List Byte
  deriving DecidableEq, Repr

/-- What an unacknowledged segment carries: a description from which it can be formed again (R485). `elems` is a run
of bytes [off, off + len) of packed elements of a SLU.XMIT from element `sidx`; `fetch` are bytes of this die's
memory, read for READ_DATA; `bytes` are bytes formed once (owner writes, collective chunks). -/
inductive TxBody where
  | elems (d : Desc) (core sidx off len : Nat)
  | fetch (va len : Nat)
  | bytes (l : List Byte)
  deriving DecidableEq, Repr

/-- A segment kept until it is acknowledged, and the run (sluice, number) that waits for it. -/
structure TxSeg where
  seg : Seg
  body : TxBody
  owner : Option (Nat × Nat)
  deriving DecidableEq, Repr

/-- What an unanswered READ fetches: the run, the owner's address of a run's fetched bytes, or the position of a
SLU.XMIT READ. -/
structure ReadWait where
  msn : Nat
  len : Nat
  owner : Nat × Nat
  va : Nat
  off : Nat
  deriving DecidableEq, Repr

/-- A connection of a die (R482 to R485): next MSN to send, expected MSN, unacknowledged segments (at most 256), those
that wait, READs whose data is awaited, resends without progress, segments performed and not yet acknowledged, and
whether a part of the message in progress failed (R445). -/
structure Conn where
  next : BitVec 32
  expect : BitVec 32
  unacked : List TxSeg
  waiting : List TxSeg
  reads : List ReadWait
  resent : Nat
  ackDue : Nat
  bad : Bool
  deriving DecidableEq, Repr

def Conn.reset : Conn := ⟨0, 0, [], [], [], 0, 0, false⟩

/-- A flit kept in the replay buffer (R468): its SEQ, VC, units, and how often it has been sent. -/
structure TxFlit where
  seq : BitVec 16
  vc : Nat
  data : List Byte
  tries : Nat
  deriving DecidableEq, Repr

/-- The receive side of one VC: bytes accepted and not consumed, the units of each buffered flit, credits freed and
not yet returned (R470). -/
structure RxVc where
  bytes : List Byte
  flits : List Nat
  ret : Nat
  deriving DecidableEq, Repr

def RxVc.reset : RxVc := ⟨[], [], 0⟩

/-- One port's link layer. `tx` are the units waiting to be sent per VC, `cred` the credits held per VC; `alt` says
that STAT goes next of the two VCs of priority 1; `naked` is the SEQ for which NAK was sent; `errs` are the parity
failures of the window in progress per receive lane; `mask` is the mask of R457; `knock` a knock in progress;
`stalled` the forwarded segments that wait (VC, destination, tide, event raised). -/
structure PortSt where
  tx : Vector (List Byte) 4
  rx : Vector RxVc 4
  cred : Vector Nat 4
  alt : Bool
  nextSeq : BitVec 16
  expect : BitVec 16
  naked : Option (BitVec 16)
  unacked : List TxFlit
  errs : Vector Nat 8
  mask : Bool
  knock : Bool
  stalled : List (Nat × Nat × BitVec 64 × Bool)
  deriving DecidableEq, Repr

def PortSt.reset : PortSt where
  tx := Vector.replicate 4 []
  rx := Vector.replicate 4 RxVc.reset
  cred := Vector.replicate 4 0
  alt := false
  nextSeq := 0
  expect := 0
  naked := none
  unacked := []
  errs := Vector.replicate 8 0
  mask := false
  knock := false
  stalled := []

/-- A STATUS message that waits for its acknowledgement (R486): partition, step, job, destination, OVF, SKIP_REQ. -/
structure StatusOut where
  part : Nat
  step : BitVec 64
  job : Nat
  dev : Nat
  ovf : Bool
  skip : Bool
  deriving DecidableEq, Repr

/-- A RoCE queue pair (R502): its port when open, whether it is in error, its send rate in 1/16. -/
structure QpSt where
  port : Option Nat
  error : Bool
  rate : Nat
  deriving DecidableEq, Repr

def QpSt.reset : QpSt := ⟨none, false, 16⟩

/-- An RDMA READ that a queue pair awaits (R385, R502): the pair, the key, the remote address and the length, the Brine unit
and the fetch it belongs to, and the bytes that have come. -/
structure QpRead where
  qp : Nat
  key : Nat
  addr : Nat
  len : Nat
  owner : Nat × Nat
  got : List Byte
  deriving DecidableEq, Repr

/-- One direction of a fabric module, by the die, port and module that receive: the SEQ the receiver expects next, and the
sender's replay buffer, the flits it has sent that are not acknowledged (R448). -/
structure FabChan where
  expect : BitVec 10
  unacked : List FabFlit
  deriving DecidableEq, Repr

def FabChan.reset : FabChan := ⟨0, []⟩

/-- The links of the module. -/
structure LinkSt where
  port : Vector PortSt 64
  /-- connections of the dies by (die, entry), none listed where an entry stands at its reset -/
  conns : List ((Nat × Nat) × Conn)
  statusOut : List StatusOut
  /-- engines whose flits carry LSW (R457) -/
  lsw : Vector Bool 8
  qp : List (Nat × QpSt)
  /-- messages delivered to firmware: the die, and the payload (CTRL segments; frames of D0's Ethernet ports) -/
  toFw : List (Nat × List Byte)
  /-- RDMA WRITEs handed to queue pairs: the pair, the remote address, the bytes (R502, R593) -/
  qpOut : List (Nat × Nat × List Byte)
  /-- RDMA READs awaited, in the order they were issued (R502) -/
  qpReads : List QpRead
  /-- SEQ of the master's TIME messages (R493) -/
  timeSeq : BitVec 16
  /-- dies whose ports to each other are unreachable and reported (R451) -/
  unreachable : List (Nat × Nat)
  /-- fabric modules by receiving die, port and module, none listed where one stands as it was trained (R448) -/
  fab : List ((Nat × Nat × Nat) × FabChan)
  deriving DecidableEq, Repr

def LinkSt.reset : LinkSt where
  port := Vector.replicate 64 PortSt.reset
  conns := []
  statusOut := []
  lsw := Vector.replicate 8 false
  qp := []
  toFw := []
  qpOut := []
  qpReads := []
  timeSeq := 0
  unreachable := []
  fab := []

end Sys2Proof.Machine
end

