-- ==== Sys2Proof/Machine/StateBoard.lean ====
section
/-! DEFINITION. The state of the module's input monitor, always-on island and pins (19_module.md). -/

namespace Sys2Proof.Machine

/-- The condition of the module (R608, R610, R611, R616): off; PWR_EN asserted and waiting for VIN; RESET_L low; waiting
for REFCLK; booting; in service (M0 to M3); RECOVERY; tripped. -/
inductive BoardPhase where
  | off | waitVin | reset | waitRef | boot | run | recovery | tripped
  deriving DecidableEq, Repr

/-- An entry of the fault log (R612, R620): cause, die, tide number. -/
structure FaultRec where
  cause : Nat
  die : Nat
  tide : BitVec 64
  deriving DecidableEq, Repr

structure BoardSt where
  phase : BoardPhase
  /-- the alert register (R613) -/
  alert : BitVec 5
  /-- in-band interrupts requested and not yet taken: their data bytes (R613) -/
  ibi : List Byte
  /-- in-band interrupts enabled (ENEC, R619) -/
  ibiEn : Bool
  /-- fault log, newest last, and how many of its trips firmware has reported with event 0x0207 (R531) -/
  log : List FaultRec
  reported : Nat
  /-- the primary on D1 has failed: FAULT_L held (R566) -/
  d1Failed : Bool
  /-- REFCLK is locked (R616) -/
  refclk : Bool
  /-- SLOT_ID as sampled (R615) -/
  slotId : BitVec 6
  /-- input voltage in 10 mV and power in W as the sensor gives them (R620) -/
  vin : Nat
  watts : Nat
  /-- I3C register index, dynamic address (R619, R620), and the bytes the last private read or command returned -/
  i3cIx : Nat
  dynAddr : Option (BitVec 7)
  i3cOut : List Byte
  /-- JTAG instruction register, boundary cells preloaded, boundary cells captured, and what the last instruction's data
  register read (R621) -/
  ir : BitVec 8
  bscan : BitVec 13
  capture : BitVec 13
  dr : BitVec 32
  /-- MC0 and MC1 held in reset after a takeover, and a takeover during boot not yet reported (R566) -/
  mcHeld : Bool
  tookInBoot : Bool
  deriving DecidableEq, Repr

/-- After reset the module boots with REFCLK locked (R571); the port of JTAG stands at IDCODE (R621); the pins and
sensors are those of log entry 5. -/
def BoardSt.reset : BoardSt where
  phase := .boot
  alert := 0
  ibi := []
  ibiEn := false
  log := []
  reported := 0
  d1Failed := false
  refclk := true
  slotId := 0
  vin := 0
  watts := 0
  i3cIx := 0
  dynAddr := none
  i3cOut := []
  ir := 0x01
  bscan := 0
  capture := 0
  dr := 0
  mcHeld := false
  tookInBoot := false

end Sys2Proof.Machine
end

