-- ==== Sys2Proof/Machine/StateBrn.lean ====
section
/-! DEFINITION. The state of the Brine units (13_brine.md). -/

namespace Sys2Proof.Machine

/-- Where a slot's or reserve's record stands: not fetched; fetching; accepted and waiting for a hardware decoder of a
class (0 text, 1 JPEG, 2 PNG, 3 audio) or for a software ring entry; in a software entry; ready in staging; rejected;
late (R408). -/
inductive BrnPhase where
  | idle
  | fetching
  | hw (cls : Nat)
  | softWait
  | soft
  | ready
  | rejected
  | late
  deriving DecidableEq, Repr

/-- A slot or reserve entry at work. `fetches` counts its fetches, `stage` is its staging (address and length), `data`
the accepted record; `got` and `out` are the pieces of a TUIMAL fetch that arrived and that are awaited. Of the decoded
sample: its branch, its count (tokens, samples per channel), height and width, the first sample held in staging, and
what the manifest's entry says of it (R416). -/
structure BrnItem where
  res : Bool
  ix : Nat
  phase : BrnPhase
  fetches : Nat
  stage : Option (Nat × Nat)
  data : List Byte
  got : List (Nat × List Byte)
  out : Nat
  failed : Bool
  cause : Nat
  branch : Nat
  n : Nat
  h : Nat
  w : Nat
  base : Nat
  trunc : Bool
  conceal : Bool
  dmg : Nat
  ndmg : Nat
  soft : Bool
  spillQ : Bool
  spillB : Bool
  ns : Nat
  deriving DecidableEq, Repr

def BrnItem.new (res : Bool) (ix : Nat) : BrnItem where
  res := res
  ix := ix
  phase := .idle
  fetches := 0
  stage := none
  data := []
  got := []
  out := 0
  failed := false
  cause := 0
  branch := 0
  n := 0
  h := 0
  w := 0
  base := 0
  trunc := false
  conceal := false
  dmg := 2 ^ 64 - 1
  ndmg := 0
  soft := false
  spillQ := false
  spillB := false
  ns := 0

/-- A packed slot, as the manifest's entry records it: the reserve used, whether it is empty, its own record late or
rejected and why, the item that fills it, its first segment. -/
structure BrnSlot where
  rsv : Option Nat
  empty : Bool
  late : Bool
  cause : Nat
  trunc : Bool
  used : BrnItem
  seg0 : Option Nat
  deriving DecidableEq, Repr

/-- The output descriptors of a batch. -/
structure BrnOuts where
  rows : Option Desc
  seg : Desc
  imgs : List Desc
  audio : Option Desc
  tensor : Option Desc
  deriving DecidableEq, Repr

/-- A dictionary's entries: byte string and token (R396). -/
abbrev Dict := List (List Byte × Nat)

/-- A batch in progress: its number in the unit, the command, the tide of its acceptance, the copied specification,
its outputs, dictionary, the entries of a replayed manifest and the range table; draw order, next position in it, and how far reserves
may be fetched (R409 to R411); the next slot to pack; the text cursor, tokens placed by linear index, items of each
bucket, chunks and items; segment rows; the slots packed; what it met in memory. -/
structure BrnBatch where
  id : Nat
  cmd : UnitCmd
  since : BitVec 64
  spec : List Byte
  outs : BrnOuts
  loading : Bool
  dict : Dict
  replay : List (List Byte)
  ranges : List Byte
  order : List Nat
  nxt : Nat
  want : Nat
  items : List BrnItem
  rsvs : List BrnItem
  cur : Nat
  passed : Bool
  row : Nat
  col : Nat
  toks : List (Nat × Nat)
  bkt : List Nat
  chunks : Nat
  tensors : Nat
  segs : List (List Nat)
  slots : List BrnSlot
  stageNext : Nat
  rsvNext : Nat
  notes : XNotes
  deriving DecidableEq, Repr

/-- A software ring entry not FREE (R400): its index, the batch's number and index, the item, its record area and its
staging (address and length each), and whether its result is to be ignored. -/
structure BrnEntry where
  ix : Nat
  batch : Nat
  res : Bool
  item : Nat
  recArea : Nat × Nat
  stage : Nat × Nat
  cancelled : Bool
  deriving DecidableEq, Repr

/-- One Brine unit. `means` are the times of each class's recorded decodes, latest first (R399); `nextEnt` and
`nextRec` the next ring entry and the next offset of the record area. -/
structure BrnSt where
  queue : List (UnitCmd × BitVec 64)
  batches : List BrnBatch
  next : Nat
  dict : Option (Nat × Dict)
  means : Vector (List Nat) 4
  ring : List BrnEntry
  nextEnt : Nat
  nextRec : Nat
  hwq : Vector (List (Nat × Bool × Nat)) 4
  deriving DecidableEq, Repr

def BrnSt.reset : BrnSt where
  queue := []
  batches := []
  next := 0
  dict := none
  means := Vector.replicate 4 []
  ring := []
  nextEnt := 0
  nextRec := 0
  hwq := Vector.replicate 4 []

end Sys2Proof.Machine
end

