-- ==== Sys2Proof/Machine/StateInt.lean ====
section
/-! DEFINITION. The state of the integrity unit (16_integrity.md). -/

namespace Sys2Proof.Machine

/-- A channel of R506: class 0–4, the stack, port (4·die + port), crystallizer, cluster or core, and the
pseudo-channel, module, channel or way. -/
structure Chan where
  cls : Nat
  unit : Nat
  ch : Nat
  deriving DecidableEq, Repr

/-- What self-tests have shown of a unit (R519, R520): the tide of the last, consecutive passes of a suspect unit in
OBSERVE, and whether it failed since its suspect bit was last clear. -/
structure TestRec where
  last : BitVec 64
  passes : Nat
  failed : Bool
  deriving DecidableEq, Repr

structure IntSt where
  /-- repeated attempts and fourth-attempt failures of the window in progress (R506) -/
  chan : List (Chan × Nat × Nat)
  /-- the tide at which the last window of each class, and of the lanes (R472), ended -/
  winEnd : Vector (BitVec 64) 6
  /-- channels of classes 3 and 4 classified permanent and not returned to service -/
  permanent : List Chan
  /-- self-tests, by unit as event 0x0303 names it -/
  tests : List ((Nat × Nat × Nat) × TestRec)
  /-- cache ways whose fence has taken effect, bit w for way w of the slice (R521) -/
  ways : Vector (BitVec 32) 8
  /-- replay records of the dies, at most 16 each (R509) -/
  recs : Vector (List RepRec) 4
  /-- held units: partition and step, in the order they were held (R515) -/
  held : List (Nat × BitVec 64)
  /-- charges received: the unit (kind, index, part of it, as event 0x0303 names them) and the tide (R517) -/
  charges : List ((Nat × Nat × Nat) × BitVec 64)
  /-- check-value contexts (unit, context) that met a byte out of order and take no more (R526) -/
  cvDead : List (Nat × Nat)
  /-- lines of each die's traced stream since the last record (R528) -/
  traced : Vector Nat 4
  /-- a record of the die was dropped since its last one (R528) -/
  traceLost : Vector Bool 4
  /-- the claim table: resource and owner (R597) -/
  claims : List (Nat × Nat)
  /-- words that the next access of their line in this window finds mismatching (R350, R504; the model's own field, log
  entry 81) -/
  flaws : List Flaw
  deriving DecidableEq, Repr

def IntSt.reset : IntSt where
  chan := []
  winEnd := Vector.replicate 6 0
  permanent := []
  tests := []
  ways := Vector.replicate 8 0
  recs := Vector.replicate 4 []
  held := []
  charges := []
  cvDead := []
  traced := Vector.replicate 4 0
  traceLost := Vector.replicate 4 false
  claims := []
  flaws := []

end Sys2Proof.Machine
end

