-- ==== Sys2Proof/Machine/StateMgmt.lean ====
section
/-! DEFINITION. The state of the management complex (18_management.md): the settings ledger and store, jobs, the command
and event rings, sessions and services. -/

namespace Sys2Proof.Machine

/-- A ledger entry (R572). -/
structure LedgerEnt where
  tide : BitVec 64
  boot : BitVec 32
  kind : Nat
  role : Nat
  actor : BitVec 64
  old : BitVec 32
  new : BitVec 32
  deriving DecidableEq, Repr

/-- A flash slot's image with its marks in the settings store (R568, R569). -/
structure FlashSlot where
  image : SlotImage
  good : Bool
  attempts : Nat
  deriving DecidableEq, Repr

/-- Where a job stands (R588, R590): its start waits for ALIGNED, it runs, or it ends for the reason of event 0x040A. -/
inductive JobPhase where
  | starting
  | running
  | ending (reason : Nat)
  deriving DecidableEq, Repr

/-- A partition's job: JOB_ID and the device ids of its modules (R440, R587), its manifest, where it stands, the sequence
number of its JOB_SUBMIT until that retires, the marked edge and energy of its start (R553), and whether another
partition has held a job since. -/
structure JobSt where
  id : BitVec 64
  devs : List Nat
  man : Manifest
  phase : JobPhase
  seq : Option (BitVec 64)
  start : Option (BitVec 64 × BitVec 64)
  /-- the edge that the start mark was to name -/
  startAt : BitVec 64
  shared : Bool
  /-- registers the start wrote, with what they held, until the job runs (R587) -/
  saved : List (Nat × BitVec 64)
  deriving DecidableEq, Repr

/-- A job whose end waits for its energy mark (R553): JOB_ID, the start's edge and energy, the edge wanted, sharing. -/
structure EnergyWait where
  id : BitVec 64
  start : Option (BitVec 64 × BitVec 64)
  late : Bool
  want : BitVec 64
  shared : Bool
  deriving DecidableEq, Repr

/-- The report of a job's energy (R553). -/
structure EnergyRep where
  id : BitVec 64
  fromEdge : BitVec 64
  toEdge : BitVec 64
  mJ : BitVec 64
  late : Bool
  shared : Bool
  deriving DecidableEq, Repr

/-- What a sequenced command asks for (R578). -/
inductive CtlBody where
  | jobSubmit (m : Manifest)
  | jobAbort (id : BitVec 64)
  | setCap (cap : BitVec 9) (target : Option (BitVec 48))
  | snapshot (t : BitVec 64)
  | powerState (t : Fin 4)
  | laserRelease (b : Fin 16)
  | xtlReset (x : XtlIx) (force : Bool)
  | fence (u : FenceUnit) (set : Bool)
  | fwStage (i : SlotImage)
  | fwActivate (k : Fin 2) (t : BitVec 64)
  | ucode (u : Ucode)
  | classRaise (c : Fin 4)
  | ownerRotate (hash : List Byte)
  | lifecycle (st : Fin 4)
  | debugUnlock (token : List Byte)
  | fuseProg (p : ClusterIx) (v : BitVec 64)
  deriving DecidableEq, Repr

/-- A command as it reaches the ring (R577, R578): an unsequenced one, one of sequence order with whether its body is
malformed, or one that begins at once. -/
inductive CtlReq where
  | hello (h : CmdHdr)
  | evtAck (h : CmdHdr) (seq : BitVec 64)
  | query (h : CmdHdr) (q : Query)
  | seq (h : CmdHdr) (bad : Bool) (body : CtlBody)
  | imm (h : CmdHdr) (bad : Bool) (body : CtlBody)
  deriving DecidableEq, Repr

/-- A session (R576): its role and actor identity. -/
structure Session where
  role : Nat
  id : BitVec 48
  deriving DecidableEq, Repr

/-- An accepted command: its sequence number, its session's role and actor, whether its body is malformed, and what it
asks for. -/
structure CtlCmd where
  seq : BitVec 64
  role : Nat
  actor : BitVec 48
  bad : Bool
  body : CtlBody
  deriving DecidableEq, Repr

/-- A reply to a session (R579, R580). Statuses are those of event 0x0402. -/
inductive Reply where
  | opened
  | hello (boot accepted retired oldest next epoch : BitVec 64)
  | accepted (seq : BitVec 64)
  | duplicate (seq : BitVec 64) (status : Option Nat)
  | badHeader
  | staleEpoch
  | full
  | gap (accepted : BitVec 64)
  | denied
  | acked (seq : BitVec 64)
  | job (status : Option (Nat × BitVec 4))
  | partition (job : Option (BitVec 64))
  | register (v : BitVec 64)
  | slotId (v : BitVec 6)
  | metrics (tide : BitVec 64) (values : List (Nat × BitVec 64))
  | refused
  deriving DecidableEq, Repr

/-- A firmware handover in progress (R595): the slot and the target tide. -/
structure Handover where
  slot : Fin 2
  target : BitVec 64
  deriving DecidableEq, Repr

/-- What firmware and the always-on island keep. -/
structure MgmtSt where
  ledger : List LedgerEnt
  /-- owner-key hash slots 1 to 16, in order, as far as they are written (R575) -/
  ownerKeys : List (List Byte)
  /-- spare fuses programmed: PAN_FUSE_PROG values by pan (R143) -/
  fuses : List (Nat × BitVec 64)
  /-- flash slots A and B (R568), the SVN floor, and the retirement registers kept in the settings store (R571) -/
  slots : Vector (Option FlashSlot) 2
  svnFloor : Nat
  store : List (Nat × BitVec 64)
  /-- version of the image that runs -/
  version : BitVec 64
  /-- slots that stage 0 rejected, with the reason of event 0x0408 -/
  rejected : List (Nat × Nat)
  epoch : BitVec 64
  /-- statuses of retired commands, and the accepted commands that have not begun -/
  retired : List (BitVec 64 × Nat)
  queue : List CtlCmd
  /-- the sequenced command in progress -/
  current : Option CtlCmd
  sessions : List (Nat × Session)
  /-- the event ring: records with their sequence numbers, oldest first; the highest acknowledged; a run of overwrites -/
  ring : List (BitVec 64 × EvRec)
  acked : BitVec 64
  lossRun : Bool
  reply : Option (Nat × Reply)
  reports : List EnergyRep
  energyWait : Vector (Option EnergyWait) 4
  handover : Option Handover
  /-- commands that wait in their sessions while a handover runs (R595), oldest first -/
  waiting : List CtlReq
  /-- firmware of the Brine units and calibration tables as loaded (R596) -/
  ucode : Vector (List Byte) 4
  calib : Vector (List Byte) 3
  /-- next sluice for a checkpoint's commands, and the index bytes last written (R593) -/
  ckptIndex : List Byte
  /-- of each partition's job: tide of the broker's last message, and the broker's place among the device ids (R550) -/
  brokerTide : Vector (BitVec 64) 4
  broker : Vector Nat 4
  /-- writes granted to a partition's program beside those every job has: window offsets (R290, key 21) -/
  grants : Vector (List Nat) 4
  /-- of each partition's mailbox request (R591): the die that issued it; and where firmware stands with it: not begun, the
  Stacker at work (0), or its status known and its SEND held by a full ring -/
  mboxDie : Vector Nat 4
  mboxWait : Vector (Option Nat) 4
  deriving DecidableEq, Repr

/-- At delivery (R574): the ledger holds the KIND 5 entry of BLANK to PROVISIONED (log entry 4). -/
def MgmtSt.reset : MgmtSt where
  ledger := [⟨0, 0, 5, 0, 0, 0, 1⟩]
  ownerKeys := []
  fuses := []
  slots := Vector.replicate 2 none
  svnFloor := 0
  store := []
  version := 0
  rejected := []
  epoch := 0
  retired := []
  queue := []
  current := none
  sessions := []
  ring := []
  acked := 0
  lossRun := false
  reply := none
  reports := []
  energyWait := Vector.replicate 4 none
  handover := none
  waiting := []
  ucode := Vector.replicate 4 []
  calib := Vector.replicate 3 []
  ckptIndex := []
  brokerTide := Vector.replicate 4 0
  broker := Vector.replicate 4 0
  mboxDie := Vector.replicate 4 0
  mboxWait := Vector.replicate 4 none
  grants := Vector.replicate 4 []

end Sys2Proof.Machine
end

