-- ==== Sys2Proof/Machine/StatePwr.lean ====
section
/-! DEFINITION. The state of the power block (17_power.md). The registers of the block are in State.regs. -/

namespace Sys2Proof.Machine

/-- One compute die's clock, droop and thermal control (R539 to R548). -/
structure DiePwr where
  /-- the operating point in effect, and a faster one decided at the last edge (R540) -/
  op : Nat
  faster : Option Nat
  /-- the fastest point that fits the die's share, and the preference in force -/
  arbOp : Nat
  pref : Nat
  /-- the ceiling of R547 and the tides it has held; the ceiling of R546 until the next edge -/
  droopCeil : Nat
  droopHeld : Nat
  escCeil : Nat
  thermCeil : Nat
  /-- tides since the last thermal step while TJ is at or above T_STEP; none while it is below -/
  hot : Option Nat
  /-- consecutive tides below T_STEP − 5 °C -/
  cool : Nat
  emergency : Bool
  tj : Nat
  /-- a dip is present; the clock is stretched; pan row entry is held at OP7 (R545, R546) -/
  dip : Bool
  stretching : Bool
  holding : Bool
  /-- stretched cycles of the window in progress -/
  stretched : Nat
  deriving DecidableEq, Repr

def DiePwr.reset : DiePwr where
  op := 0
  faster := none
  arbOp := 0
  pref := 15
  droopCeil := 0
  droopHeld := 0
  escCeil := 0
  thermCeil := 0
  hot := none
  cool := 0
  emergency := false
  tj := 0
  dip := false
  stretching := false
  holding := false
  stretched := 0

/-- The arbiter and the power states. -/
structure PwrSt where
  die : Vector DiePwr 4
  /-- the ratio k of R542 as a fraction -/
  kNum : Nat
  kDen : Nat
  /-- consecutive windows that disagreed, and that agreed since drift control began (R543, R544) -/
  disagree : Nat
  agree : Nat
  /-- energy below 1 mJ, in nJ (R551) -/
  energyRem : Nat
  /-- the armed cap schedule's target tide (R534) -/
  capTarget : BitVec 64
  /-- the cap in effect in the window in progress, in mW -/
  capNow : Nat
  /-- VIN is outside 60–80 V and its event was raised (R529) -/
  vinOut : Bool
  /-- an M1 request that waits for an idle edge (R555) -/
  m1Wait : Bool
  /-- the state being entered, and the state being left -/
  entering : Option Nat
  leaving : Option Nat
  /-- an edge has fallen since the exit cause -/
  exitEdge : Bool
  /-- tide of the last event 0x020B (R557) -/
  offTide : Option (BitVec 64)
  /-- PWR_COLL_WAIT_CNT at the last latch, and its tide (R549) -/
  waitBase : BitVec 64
  waitTide : BitVec 64
  /-- ports that keep a watch receiver on lane 0 in M2 or M3 (R556) -/
  watch : BitVec 64
  deriving DecidableEq, Repr

/-- k is 1.0 after reset (R542); the cap in effect before the first edge is that of class 0 (log entry 4). -/
def PwrSt.reset : PwrSt where
  die := Vector.replicate 4 DiePwr.reset
  kNum := 1
  kDen := 1
  disagree := 0
  agree := 0
  energyRem := 0
  capTarget := 0
  capNow := 4800000
  vinOut := false
  m1Wait := false
  entering := none
  leaving := none
  exitEdge := false
  offTide := none
  waitBase := 0
  waitTide := 0
  watch := 0

end Sys2Proof.Machine
end

