-- ==== Sys2Proof/Machine/StateXtl.lean ====
section
/-! DEFINITION. The state of the crystallizers and of the module's gate unit (06_crystallizer.md). -/

namespace Sys2Proof.Machine

/-- A coefficient-table entry (R185): FP32 fields as codes. -/
structure XtlEntry where
  sign : Bool
  clipKind : Nat
  watchEn : Bool
  mFmt : Nat
  bittern : Nat
  gradFmt : Nat
  retFmt : Nat
  c1 : Nat
  c2 : Nat
  c3 : Nat
  c4 : Nat
  eta : Nat
  lambda : Nat
  clip : Nat
  watch : Nat
  tag : Nat
  deriving DecidableEq, Repr

/-- A bound shard: its record (R189), the layout fixed at BIND (R190), its last step and outcome (R197), and
whether it is damaged (R209). -/
structure Shard where
  group : Nat
  returnEn : Bool
  stateVa : Nat
  count : Nat
  gradDesc : Nat
  gradIndex : Nat
  retDesc : Nat
  retIndex : Nat
  mFmt : Nat
  bittern : Nat
  last : Option (BitVec 64)
  applied : Bool
  damaged : Bool
  deriving DecidableEq, Repr

/-- A RUN in progress (R196, R197): its slots, the step block as it was read, the outcome once it acts on it, the next
slot to treat, the first refusal or fault, the groups' sums so far (group, SD and SW as FP64 codes, count), and whether
events 0x1202 and 0x1302 are raised, once for a command (R342, R352). While `outcome` is none the RUN waits at the head
of the queue. -/
structure XtlRun where
  cmd : UnitCmd
  last : Nat
  step : BitVec 64
  ils : Nat
  ratioVa : Nat
  sched : List (Nat × Nat × Nat × Nat)
  outcome : Option Bool
  next : Nat
  error : Option (Nat × BitVec 64)
  sums : List (Nat × Nat × Nat × Nat)
  faultMet : Bool := false
  poisonMet : Bool := false
  deriving DecidableEq, Repr

/-- One crystallizer. -/
structure XtlSt where
  queue : List UnitCmd
  running : Option XtlRun
  entries : List (Nat × XtlEntry)
  shards : List (Nat × Shard)
  resetting : Bool
  /-- a reset requested that waits for the RUN in progress -/
  resetWait : Bool
  ready : Bool
  /-- slow-tier bytes read and written below the 64 that XTL_SLOW_RD_CNT and XTL_SLOW_WR_CNT count by -/
  rdRem : Nat
  wrRem : Nat
  /-- groups reported over their threshold, by step (R208) -/
  watched : List (BitVec 64 × Nat)
  deriving DecidableEq, Repr

/-- The RUN in progress: one whose step is decided (R197). -/
def XtlSt.inRun (q : XtlSt) : Option XtlRun := q.running.filter (fun r => r.outcome.isSome)

/-- Commands queued, a RUN that waits at the head for its step's decision among them (R197, R198). -/
def XtlSt.queued (q : XtlSt) : Nat := q.queue.length + (if q.running.any (fun r => r.outcome.isNone) = true then 1 else 0)

def XtlSt.reset : XtlSt where
  queue := []
  running := none
  entries := []
  shards := []
  resetting := false
  resetWait := false
  ready := false
  rdRem := 0
  wrRem := 0
  watched := []

/-- A gate slot (R198 to R201). -/
structure GateSlot where
  part : Nat
  step : BitVec 64
  /-- tide number of the window of the first SEAL, when one is accepted -/
  sealed : Option (BitVec 64)
  skipReq : Bool
  /-- the local status: OVF and SKIP_REQ -/
  localSt : Option (Bool × Bool)
  /-- devices whose status has arrived, with OVF and SKIP_REQ -/
  got : List (Nat × Bool × Bool)
  job : Option (Bool × Bool)
  /-- true APPLY, false SKIP -/
  outcome : Option Bool
  /-- the SEALs that wait for the decision -/
  waiting : List UnitCmd
  warned : Bool
  deriving DecidableEq, Repr

/-- The gate unit. -/
structure GateSt where
  slots : List GateSlot
  /-- the horizon of each partition, none while it is not set -/
  horizon : Vector (Option (BitVec 64)) 4
  /-- step overflow flags set (R83), by partition and step -/
  ovf : List (Nat × BitVec 64)
  /-- steps whose event 0x140A has been raised (R203) -/
  late : List (Nat × BitVec 64)
  /-- killed granules: steps that never become final until the job ends (R258) -/
  killed : List (Nat × BitVec 64)
  /-- statuses that arrived for a step before it took a slot: partition, step, device, OVF, SKIP_REQ -/
  early : List (Nat × BitVec 64 × Nat × Bool × Bool)
  deriving DecidableEq, Repr

def GateSt.reset : GateSt where
  slots := []
  horizon := Vector.replicate 4 none
  ovf := []
  late := []
  killed := []
  early := []

end Sys2Proof.Machine
end

