-- ==== Sys2Proof/Machine/State.lean ====
section
/-! DEFINITION. The state of the block: every register, counter, memory, queue and mode the spec gives the module,
and the queue of waiting commands. Plain data. -/

namespace Sys2Proof.Machine

structure State where
  /-- the commands that wait, first in first out -/
  pending : List Instr
  /-- free values used so far (the model's own field, log entry 6) -/
  free : Nat
  /-- registers by their offset in the control window, where they differ from their reset value -/
  regs : List (Nat × BitVec 64)
  /-- RWT writes of the tide in progress (R13) -/
  staged : List (Nat × BitVec 64)
  /-- live counters, shadows, and the counters as they stood at action 2 of the last edge (R45, R48, R49) -/
  ctr : List (Nat × BitVec 64)
  shadow : List (Nat × BitVec 64)
  edgeCtr : List (Nat × BitVec 64)
  /-- bytes at physical addresses: fast memory, slow tier, retention areas (R353) -/
  mem : Memory
  /-- poisoned 64-byte lines, by line number (R351) -/
  poison : List Nat
  tide : TideSt
  core : Vector CoreSt 128
  disp : Vector DispSt 8
  /-- hardware event FIFOs of the dies, oldest first, and the records dropped since the last report (R583) -/
  fifo : Vector (List EvRec) 4
  fifoDrop : Vector Nat 4
  stk : StkSt
  int : IntSt
  /-- the job seed of each partition (R93) -/
  seed : Vector (BitVec 64) 4
  /-- the running job of each partition -/
  job : Vector (Option JobSt) 4
  pan : Vector PanSt 8
  xtl : Vector XtlSt 8
  gate : GateSt
  slu : Vector SluSt 32
  dieSlu : Vector DieSlu 4
  /-- collective bytes below the unit of SLU_COLL_BYTE_CNT, by cluster -/
  collRem : Vector Nat 8
  link : LinkSt
  brn : Vector BrnSt 4
  pwr : PwrSt
  mgmt : MgmtSt
  board : BoardSt
  deriving DecidableEq, Repr

/-- Why a step stops with a fault. -/
inductive Fault where
  /-- An access whose physical address lies where the physical address space maps nothing (R353). Raised by
  ACCESS_PERFORMED when a page table changed under a pending access. Safe: the spec gives such an address no
  contents. -/
  | noSuchAddress (pa : Nat)
  deriving DecidableEq, Repr

/-- Why a step is refused. -/
inductive Refusal where
  /-- The command has no meaning in the model yet. Safe. -/
  | notModelled (mnemonic : String)
  deriving DecidableEq, Repr

/-- What a command's meaning answers. -/
abbrev Res := Host.Outcome State Fault Refusal

/-- The module right after reset: every register at the value the spec gives (the register tables), every counter
0 (R48), queues empty, cores as R259 says. The values the spec leaves open are those of log entries 1 to 5. -/
def State.reset : State where
  pending := []
  free := 0
  regs := []
  staged := []
  ctr := []
  shadow := []
  edgeCtr := []
  mem := Memory.empty
  poison := []
  tide := TideSt.reset
  core := Vector.replicate 128 CoreSt.reset
  disp := Vector.replicate 8 DispSt.reset
  fifo := Vector.replicate 4 []
  fifoDrop := Vector.replicate 4 0
  stk := StkSt.reset
  int := IntSt.reset
  seed := Vector.replicate 4 0
  job := Vector.replicate 4 none
  pan := Vector.replicate 8 PanSt.reset
  xtl := Vector.replicate 8 XtlSt.reset
  gate := GateSt.reset
  slu := Vector.replicate 32 SluSt.reset
  dieSlu := Vector.replicate 4 DieSlu.reset
  collRem := Vector.replicate 8 0
  link := LinkSt.reset
  brn := Vector.replicate 4 BrnSt.reset
  pwr := PwrSt.reset
  mgmt := MgmtSt.reset
  board := BoardSt.reset

end Sys2Proof.Machine
end

