-- ==== Sys2Proof/Machine/Ops.lean ====
section
/-! DEFINITION. The named operations over State that every meaning uses: fields of words, registers, counters,
free values, events, cores, memory bytes, the physical address space and translation. -/

namespace Sys2Proof.Machine

/-! Fields of a word. -/

/-- Bits [hi:lo] as a number. -/
def bitsOf (v : BitVec 64) (hi lo : Nat) : Nat := v.toNat / 2 ^ lo % 2 ^ (hi + 1 - lo)

/-- `v` with bits [hi:lo] replaced by the low bits of `x`. -/
def setBits (v : BitVec 64) (hi lo : Nat) (x : Nat) : BitVec 64 :=
  let m : BitVec 64 := BitVec.ofNat 64 ((2 ^ (hi + 1 - lo) - 1) * 2 ^ lo)
  (v &&& ~~~m) ||| (BitVec.ofNat 64 (x * 2 ^ lo) &&& m)

/-- 1 for true. -/
def b2n (b : Bool) : Nat := if b then 1 else 0

/-- A payload from fields (value, lowest bit). -/
def pack (fs : List (Nat × Nat)) : BitVec 64 :=
  fs.foldl (fun a (x, lo) => a ||| BitVec.ofNat 64 (x * 2 ^ lo)) 0

/-- The low `n` bits of a number. -/
def low (n x : Nat) : Nat := x % 2 ^ n

/-- Sign extension of an `n`-bit value to an integer. -/
def sextInt (n x : Nat) : Int := codeInt n (x % 2 ^ n)

/-! Registers and counters. -/

/-- The value held for a register (offset already canonical). -/
def State.reg (s : State) (off : Nat) : BitVec 64 := mapGet regReset s.regs off

/-- Sets the value held for a register. -/
def State.setReg (s : State) (off : Nat) (v : BitVec 64) : State :=
  { s with regs := mapPut regReset off v s.regs }

/-- Bits [hi:lo] of a register. -/
def State.fld (s : State) (off hi lo : Nat) : Nat := bitsOf (s.reg off) hi lo

/-- Sets bits [hi:lo] of a register. -/
def State.setFld (s : State) (off hi lo x : Nat) : State := s.setReg off (setBits (s.reg off) hi lo x)

/-- The default of a counter, of a shadow and of a staged write: 0 (R48). -/
def zero64 (_ : Nat) : BitVec 64 := 0

/-- A live counter. -/
def State.ctrAt (s : State) (off : Nat) : BitVec 64 := mapGet zero64 s.ctr off

/-- Adds to a counter, modulo 2^64 (R48). -/
def State.count (s : State) (off n : Nat) : State :=
  { s with ctr := mapPut zero64 off (s.ctrAt off + BitVec.ofNat 64 n) s.ctr }

/-- The next free value: an unspecified value of R3. -/
def State.fresh (s : State) : BitVec 64 × State :=
  (Config.freeWord s.free, { s with free := s.free + 1 })

/-- Tide period in microseconds (R29). -/
def State.periodUs (s : State) : Nat :=
  match s.fld 0x1000 1 0 with
  | 0 => 5
  | 1 => 10
  | 2 => 20
  | _ => 50

/-- What an idle step does: one nanosecond passes within the tide in progress. The offset stays below the length of the
tide, its period as slewing or a step has changed it (R31); only TIDE_EDGE ends the tide. Log entry 11. -/
def State.idle (s : State) : State :=
  if (16 * (s.tide.ns + 1) : Int) < 16000 * s.periodUs + s.tide.adj then
    { s with tide := { s.tide with ns := s.tide.ns + 1 } }
  else s

/-! Units and events. -/

/-- MGMT_PART.DIEd: VALID and partition of a die (18_management.md). -/
def State.partOfDie (s : State) (d : Nat) : Option Nat :=
  let f := s.fld 0x300100 (8 * d + 7) (8 * d)
  if 128 ≤ f then some (f % 4) else none

/-- The partition number an event or a payload carries: 0 when there is none (R626). -/
def State.partNum (s : State) (d : Nat) : Nat := (s.partOfDie d).getD 0

/-- MGMT_STATUS.PRIMARY (R564). -/
def State.primary (s : State) : Nat := s.fld 0x300000 9 8

/-- A unit as SOURCE names it (R626): die, class, index, partition. -/
structure Src where
  die : Nat
  cls : Nat
  ix : Nat
  part : Nat
  deriving DecidableEq, Repr

/-- Bits of SOURCE (R582). -/
def Src.bits (u : Src) : BitVec 16 :=
  BitVec.ofNat 16 (u.part % 4 * 2 ^ 14 + u.die % 4 * 2 ^ 12 + u.cls % 16 * 2 ^ 8 + u.ix % 256)

/-- Raises an event: stamped with the tide number and offset (R31) and delivered into the FIFO of the unit's die,
or dropped and counted when the FIFO holds 4096 records (R583). -/
def State.raise (s : State) (u : Src) (code : Nat) (payload : BitVec 64) : State :=
  let d : Fin 4 := Fin.ofNat 4 u.die
  if 4096 ≤ s.fifo[d].length then
    { s.count 0x300420 1 with fifoDrop := s.fifoDrop.set d (s.fifoDrop[d] + 1) }
  else
    let r : EvRec := ⟨s.tide.num, s.tide.ns, BitVec.ofNat 16 code, u.bits, payload⟩
    { s with fifo := s.fifo.set d (s.fifo[d] ++ [r]) }

/-- A module-wide unit of a class (R626): the primary die, index 0xFF. -/
def State.modSrc (s : State) (cls part : Nat) : Src := ⟨s.primary, cls, 0xFF, part⟩

def State.coreSrc (s : State) (c : Nat) : Src := ⟨c / 32, 5, c, s.partNum (c / 32)⟩
def State.panSrc (s : State) (p : Nat) : Src := ⟨p / 2, 4, p, s.partNum (p / 2)⟩
def State.sliceSrc (s : State) (c : Nat) : Src := ⟨c / 2, 6, c, s.partNum (c / 2)⟩
def State.dispSrc (s : State) (c : Nat) : Src := ⟨c / 2, 0, c, s.partNum (c / 2)⟩
def State.stackSrc (s : State) (k : Nat) : Src := ⟨k / 4, 7, k, s.partNum (k / 4)⟩
def State.xtlSrc (s : State) (x : Nat) : Src := ⟨x / 2, 8, x, s.partNum (x / 2)⟩
def State.brnSrc (s : State) (d : Nat) : Src := ⟨d, 9, d, s.partNum d⟩
def State.sluSrc (s : State) (k : Nat) : Src := ⟨k / 8, 10, k, s.partNum (k / 8)⟩
def State.fabSrc (s : State) (d j : Nat) : Src := ⟨d, 10, j, s.partNum d⟩
def State.optSrc (s : State) (o : Nat) : Src := ⟨o / 2, 11, o, s.partNum (o / 2)⟩
def State.cvSrc (s : State) (n : Nat) : Src :=
  let d := if n < 8 then n / 2 else (n - 8) / 2
  ⟨d, 2, n, s.partNum d⟩
def State.mcSrc (_ : State) (m : Nat) : Src := ⟨m / 2, 3, m, 0⟩

/-- An update, a line update or an AMO, enters the update queue of slice `h` (R317). A queue that holds 256 entries is full, and
event 0x1241 then follows at most once per tide window (R319). Whether the queue is full depends on time inside the tide
(R318): a free choice once 256 updates have entered in the window, with a free line (log entry 99). -/
def State.takeUpdate (s : State) (h : Nat) : State :=
  let k : Fin 8 := Fin.ofNat 8 h
  let u := if s.stk.updq[k].tide = s.tide.num then s.stk.updq[k] else ⟨s.tide.num, 0, false⟩
  let put (s : State) (u : UpdQ) : State := { s with stk := { s.stk with updq := s.stk.updq.set k u } }
  let t := put s { u with taken := u.taken + 1 }
  if u.taken < 256 ∨ u.raised ∨ s.fld (cacheBase h + 8) 32 32 = 0 then t
  else
    let (w, t) := t.fresh
    if w.getLsbD 0 then
      (put t { u with taken := u.taken + 1, raised := true }).raise (s.sliceSrc h) 0x1241
        (pack [(h, 0), (w.toNat / 64, 6)])
    else t

/-- Raises an event of the tide unit, arbiter, integrity unit, firmware, Stacker or gate unit. -/
def State.raiseMod (s : State) (cls code : Nat) (payload : BitVec 64) (part : Nat := 0) : State :=
  s.raise (s.modSrc cls part) code payload

/-! Cores. -/

/-- Changes one core. -/
def State.onCore (s : State) (c : CoreIx) (f : CoreSt → CoreSt) : State :=
  { s with core := s.core.set c (f s.core[c]) }

/-- Changes one dispatch unit. -/
def State.onDisp (s : State) (c : ClusterIx) (f : DispSt → DispSt) : State :=
  { s with disp := s.disp.set c (f s.disp[c]) }

/-- The cluster of a core (R17). -/
def clusterOf (c : CoreIx) : ClusterIx := Fin.ofNat 8 (c.val / 16)

/-- The die of a core. -/
def dieOfCore (c : CoreIx) : DieIx := Fin.ofNat 4 (c.val / 32)

/-- The logical index of a core within its cluster (R254). -/
def State.logicalOf (s : State) (c : CoreIx) : Nat := s.disp[clusterOf c].lmap.idxOf (c.val % 16)

/-- The physical core of logical index `i` of a cluster. -/
def State.physOf (s : State) (c : ClusterIx) (i : Nat) : Option CoreIx :=
  (s.disp[c].lmap[i]?).map (fun k => Fin.ofNat 128 (16 * c.val + k))

/-- The step of the granule a core runs; all ones for work of no step (R250, R253). -/
def State.stepOfCore (s : State) (c : CoreIx) : BitVec 64 :=
  match s.disp[clusterOf c].running with
  | some g => if g.cores.contains c then g.step else BitVec.allOnes 64
  | none => BitVec.allOnes 64

/-- Bit i of CORE_FSTAT's mask set by an operation (R236). -/
def CoreSt.orFlags (k : CoreSt) (f : Flags) : CoreSt := { k with fstat := k.fstat ||| BitVec.ofNat 5 f.bits }

/-- A scalar register: s0 reads 0. -/
def CoreSt.sget (k : CoreSt) (r : RegIx) : BitVec 64 := if r = 0 then 0 else k.sreg[r]

/-- Writes a scalar register: a write to s0 is discarded. -/
def CoreSt.sput (k : CoreSt) (r : RegIx) (v : BitVec 64) : CoreSt :=
  if r = 0 then k else { k with sreg := k.sreg.set r v }

def CoreSt.vget (k : CoreSt) (r : RegIx) : BitVec 2048 := k.vreg[r]

def CoreSt.vput (k : CoreSt) (r : RegIx) (v : BitVec 2048) : CoreSt := { k with vreg := k.vreg.set r v }

/-- A predicate register: p0 reads all ones. -/
def CoreSt.pget (k : CoreSt) (r : PredIx) : BitVec 256 := if r = 0 then BitVec.allOnes 256 else k.preg[r]

/-- Writes a predicate register: a write to p0 is discarded. -/
def CoreSt.pput (k : CoreSt) (r : PredIx) (v : BitVec 256) : CoreSt :=
  if r = 0 then k else { k with preg := k.preg.set r v }

/-- Element `i` of width `w` of a vector register (R237). -/
def laneGet (w : Nat) (v : BitVec 2048) (i : Nat) : Nat := v.toNat / 2 ^ (w * i) % 2 ^ w

/-- `v` with element `i` of width `w` replaced (R237). -/
def laneSet (w : Nat) (v : BitVec 2048) (i x : Nat) : BitVec 2048 :=
  let m : BitVec 2048 := BitVec.ofNat 2048 ((2 ^ w - 1) * 2 ^ (w * i))
  (v &&& ~~~m) ||| BitVec.ofNat 2048 (x % 2 ^ w * 2 ^ (w * i))

/-- Bit `i` of a predicate. -/
def predBit (p : BitVec 256) (i : Nat) : Bool := p.getLsbD i

/-! Deferred traps and completions on their way to a core (R242, R256). -/

/-- A deferred trap record leaves a unit for a core. -/
def State.deferTrap (s : State) (c : CoreIx) (cause : Nat) (code : Nat) (info : BitVec 64) : State :=
  s.onCore c (fun k => { k with recsIn := k.recsIn ++ [⟨BitVec.ofNat 8 cause, BitVec.ofNat 16 code, info⟩] })

/-- A completion leaves a unit for a core's token. -/
def State.sendToken (s : State) (c : CoreIx) (k : TokIx) (err : Bool) : State :=
  s.onCore c (fun q => { q with toksIn := q.toksIn ++ [(k, err)] })

/-- One command of a target has completed (R285). -/
def CoreSt.doneOne (k : CoreSt) (t : Target) : CoreSt :=
  match t with
  | .pan => { k with outPan := k.outPan - 1 }
  | .slu => { k with outSlu := k.outSlu - 1 }
  | .brn => { k with outBrn := k.outBrn - 1 }
  | .xtl => { k with outXtl := k.outXtl - 1 }

/-- The target of a unit command (R246). -/
def UnitOp.target : UnitOp → Target
  | .panLds .. | .panStr .. | .panMm .. | .panRake .. | .panFill .. | .panFillFlush | .panTwin .. => .pan
  | .sluCopy .. | .sluGather .. | .sluScatter .. | .sluReduce .. | .sluColl .. | .sluXmit .. | .sluWait .. => .slu
  | .brnBatch => .brn
  | .xtlRun .. | .xtlSeal .. | .xtlBind .. | .xtlUnbind .. | .xtlEntry .. | .xtlInit .. | .xtlGather .. => .xtl

/-! The physical address space (R353). -/

/-- GiB of each stack in the shared region (STK_LAYOUT.SH, values above 80 act as 80). -/
def State.sharedGiB (s : State) : Nat := min 80 (s.fld (memBase 0 + 0x10) 6 0)

/-- What a physical address lies in. -/
inductive Region where
  | near (d : Nat)
  | shared
  | slow (x : Nat)
  | ret (c : Nat)
  deriving DecidableEq, Repr

/-- Ones among the low `n` bits. -/
def popcount : Nat → Nat → Nat
  | 0, _ => 0
  | n + 1, x => x % 2 + popcount n (x / 2)

/-- Slow-tier channels of a crystallizer that are in service, ascending (R177, R210). -/
def State.liveChannels (s : State) (x : Nat) : List Nat :=
  (List.range 16).filter (fun c => (s.fld (xtlBase x + 0x18) 15 0).testBit c == false)

/-- The region of a physical address; none where the space maps nothing (R353). A crystallizer has 16 GiB for each channel in
service (R177, R210). -/
def State.region (s : State) (pa : Nat) : Option Region :=
  if pa < 2 ^ 41 then
    if pa % 2 ^ 39 < 4 * (80 - s.sharedGiB) * 2 ^ 30 then some (.near (pa / 2 ^ 39)) else none
  else if pa < 2 ^ 42 then
    if pa - 2 ^ 41 < 16 * s.sharedGiB * 2 ^ 30 then some .shared else none
  else if pa < 2 ^ 42 + 8 * 2 ^ 38 then
    let x := (pa - 2 ^ 42) / 2 ^ 38
    if (pa - 2 ^ 42) % 2 ^ 38 < (s.liveChannels x).length * 2 ^ 34 then some (.slow x) else none
  else if 0x60000000000 ≤ pa ∧ pa < 0x60000000000 + 8 * 2 ^ 27 then
    if (pa - 0x60000000000) % 2 ^ 27 < 2 ^ 26 then some (.ret ((pa - 0x60000000000) / 2 ^ 27)) else none
  else none

/-- The crystallizer and channel of a slow-tier address: the live channels interleave at 2 KiB, ascending (R177). -/
def State.slowChannel (s : State) (pa : Nat) : Option (Nat × Nat) :=
  match s.region pa with
  | some (.slow x) =>
    let l := s.liveChannels x
    (l[(pa - 2 ^ 42) % 2 ^ 38 / 2048 % l.length]?).map (fun c => (x, c))
  | _ => none

/-- The stack and in-stack address of a fast-memory address (R353). -/
def State.stackOf (s : State) (pa : Nat) : Option (Nat × Nat) :=
  match s.region pa with
  | some (.near d) =>
    let o := pa % 2 ^ 39
    some (4 * d + o / 4096 % 4, 4096 * (o / 16384) + o % 4096)
  | some .shared =>
    let o := pa - 2 ^ 41
    some (o / 65536 % 16, (80 - s.sharedGiB) * 2 ^ 30 + 65536 * (o / 2 ^ 20) + o % 65536)
  | _ => none

/-- The pseudo-channel of an in-stack address (R354). -/
def pcOf (a : Nat) : Nat :=
  let b := a / 16384
  b % 32 + 32 * (popcount 48 (b / 32) % 2)

/-- The home slice of a line of fast memory or of a retention page (R298). -/
def State.homeOf (s : State) (pa : Nat) : Option Nat :=
  match s.region pa with
  | some (.ret c) => some c
  | some (.slow _) => none
  | none => none
  | _ =>
    match s.stackOf pa with
    | some (k, _) =>
      let x := (pa / 2 ^ 6 + pa / 2 ^ 13 + pa / 2 ^ 20 + pa / 2 ^ 27 + pa / 2 ^ 34) % 2
      some (2 * (k / 4) + x)
    | none => none

/-- The die that an address's line lives on: that of its home slice, or of its crystallizer. -/
def State.dieOf (s : State) (pa : Nat) : Option Nat :=
  match s.region pa with
  | some (.slow x) => some (x / 2)
  | _ => (s.homeOf pa).map (· / 2)

/-- Accesses of die `d` to this address are held at their source: the two dies cannot reach each other (R451). -/
def State.cutOff (s : State) (d pa : Nat) : Bool :=
  s.link.unreachable.any (fun (a, b) => (a == d && s.dieOf pa == some b) || (b == d && s.dieOf pa == some a))

/-! Memory bytes. -/

/-- The byte held at a physical address, poison apart. -/
def State.byteAt (s : State) (pa : Nat) : BitVec 8 := s.mem.get pa

/-- The bytes of [lo, hi) become unspecified values (R3). -/
def State.loseBytes (s : State) (lo hi : Nat) : State := { s with mem := s.mem.lose lo hi s.free, free := s.free + 1 }

/-- Whether the line of an address is poisoned (R351). -/
def State.poisoned (s : State) (pa : Nat) : Bool := s.poison.contains (pa / 64)

/-- The byte a raw read returns: 0xFF in a poisoned line (R352). -/
def State.rdByte (s : State) (pa : Nat) : BitVec 8 := if s.poisoned pa then 0xFF else s.byteAt pa

/-- `n` bytes from an address upwards, as a raw read returns them. -/
def State.rdBytes (s : State) (pa n : Nat) : List Byte := (List.range n).map (fun i => s.rdByte (pa + i))

/-- The little-endian number of a list of bytes (R6). -/
def leNat : List Byte → Nat
  | [] => 0
  | b :: r => b.toNat + 256 * leNat r

/-- The `n` little-endian bytes of a number (R6). -/
def leBytes : Nat → Nat → List Byte
  | 0, _ => []
  | n + 1, x => BitVec.ofNat 8 x :: leBytes n (x / 256)

/-- Stores one byte. -/
def State.wrByte (s : State) (pa : Nat) (b : Byte) : State := { s with mem := s.mem.put pa b }

/-- Stores bytes from an address upwards. -/
def State.wrBytes (s : State) (pa : Nat) : List Byte → State
  | [] => s
  | b :: r => (s.wrByte pa b).wrBytes (pa + 1) r

/-- Clears the poison marks of the lines that one write of `n` bytes at `pa` covers whole (R351). -/
def State.unpoison (s : State) (pa n : Nat) : State :=
  { s with poison := s.poison.filter (fun l => !(decide (pa ≤ 64 * l) && decide (64 * l + 64 ≤ pa + n))) }

/-- One write of bytes at its home: the bytes stored, and the poison of whole lines cleared. -/
def State.store (s : State) (pa : Nat) (bs : List Byte) : State :=
  if s.poison.isEmpty then s.wrBytes pa bs
  else (s.wrBytes pa bs).unpoison pa bs.length

/-! Local memory of a core (R243). -/

def CoreSt.localByte (k : CoreSt) (a : Nat) : Byte := k.local_.get a

def CoreSt.localBytes (k : CoreSt) (a n : Nat) : List Byte := (List.range n).map (fun i => k.localByte (a + i))

def CoreSt.localStore (k : CoreSt) (a : Nat) : List Byte → CoreSt
  | [] => k
  | b :: r => ({ k with local_ := k.local_.put a b } : CoreSt).localStore (a + 1) r

/-! Translation and protection (R338 to R342). -/

/-- What an access does (R341). -/
inductive AccKind where
  | read | write | atomic | fetch
  deriving DecidableEq, Repr

/-- How a walk ends: an address with its region kind and PIN, or a reason of event 0x1202. `bad` says that a
table entry came from a poisoned line (R352). -/
structure Walk where
  pa : Nat
  kind : Nat
  pin : Bool
  perm : Nat
  reason : Option Nat
  bad : Bool
  deriving DecidableEq, Repr

def Walk.fail (r : Nat) (bad : Bool) : Walk := ⟨0, 0, false, 0, some r, bad⟩

/-- Index bits of a level: lowest bit and number of entries (R339). -/
def levelShift : Nat → Nat × Nat
  | 0 => (43, 8192)
  | 1 => (30, 8192)
  | 2 => (21, 512)
  | _ => (16, 32)

/-- Bytes of the table of a level (R339). -/
def tableBytes (l : Nat) : Nat := 8 * (levelShift l).2

/-- The entry of a table, all ones when its line is poisoned (R352). -/
def State.entryAt (s : State) (pa : Nat) : Nat :=
  if s.poisoned pa then 2 ^ 64 - 1 else leNat ((List.range 8).map (fun i => s.byteAt (pa + i)))

/-- Whether a leaf's ADDR names a region that matches its KIND (R340). -/
def State.kindMatches (s : State) (pa kind : Nat) : Bool :=
  match s.region pa with
  | some (.near _) => kind == 0
  | some .shared => kind == 0
  | some (.slow _) => kind == 1
  | some (.ret _) => kind == 2
  | none => false

/-- The walk from a level downwards (`fuel` levels remain). -/
def State.walkFrom (s : State) (va : Nat) : Nat → Nat → Nat → Walk
  | 0, _, _ => Walk.fail 7 false
  | fuel + 1, l, table =>
    let (sh, n) := levelShift l
    let ea := table + 8 * (va / 2 ^ sh % n)
    match s.region ea with
    | none => Walk.fail 7 false
    | some _ =>
      let e := s.entryAt ea
      let bad := s.poisoned ea
      if e % 2 = 0 then Walk.fail 0 bad
      else
        let leaf := e / 2 % 2 == 1
        let addr := e / 256 % 2 ^ 40 * 256
        let kind := e / 64 % 4
        let pin := e / 32 % 2 == 1
        if e / 2 ^ 48 ≠ 0 then Walk.fail 7 bad
        else if leaf then
          if l = 0 ∨ kind = 3 ∨ addr % 2 ^ sh ≠ 0 ∨ (kind ≠ 0 ∧ ¬ pin) ∨ ¬ s.kindMatches addr kind then
            Walk.fail 7 bad
          else ⟨addr + va % 2 ^ sh, kind, pin, e / 4 % 8, none, bad⟩
        else if fuel = 0 ∨ e / 4 % 64 ≠ 0 ∨ addr % tableBytes (l + 1) ≠ 0 then Walk.fail 7 bad
        else s.walkFrom va fuel (l + 1) addr

/-- The entry that a translation cache may still hold (R344, R363, R368): of a page that a FREE request has unmapped, until the
request's invalidation has completed and the frames return. Every other change of an entry is one that no access can tell:
a page that moved is forwarded (R367), and firmware builds tables for partitions in which nothing runs. -/
def State.staleWalk (s : State) (part va : Nat) : Option Walk :=
  match s.stk.freeing with
  | none => none
  | some (p, lo, frames) =>
    match s.stk.allocs.find? (fun a => decide (a.part = p ∧ p = part ∧ lo ≤ a.va ∧ a.va < lo + 65536 * frames ∧ a.va ≤ va ∧
        va < a.va + 65536 * a.frames)) with
    | none => none
    | some a => if Config.staleEntry s.free va then some ⟨a.pa + (va - a.va), 0, a.pin, a.perm, none, false⟩ else none

/-- The walk of a partition's page table at a virtual address (R339), or the old entry of it. -/
def State.walk (s : State) (part : Nat) (va : Nat) : Walk :=
  match s.staleWalk part va with
  | some w => w
  | none =>
    let b := s.reg (0x300120 + 8 * part)
    if b.getLsbD 0 then s.walkFrom va 4 0 (bitsOf b 47 16 * 65536) else Walk.fail 0 false

/-- The addresses of the table entries that a walk reads. -/
def State.walkReadsFrom (s : State) (va : Nat) : Nat → Nat → Nat → List Nat
  | 0, _, _ => []
  | fuel + 1, l, table =>
    let (sh, n) := levelShift l
    let ea := table + 8 * (va / 2 ^ sh % n)
    if (s.region ea).isNone then []
    else
      let e := s.entryAt ea
      if e % 2 = 0 ∨ e / 2 % 2 = 1 then [ea] else ea :: s.walkReadsFrom va fuel (l + 1) (e / 256 % 2 ^ 40 * 256)

/-- Bits of the page that the entry at which a walk ends maps. -/
def State.pageShiftFrom (s : State) (va : Nat) : Nat → Nat → Nat → Nat
  | 0, l, _ => (levelShift (l - 1)).1
  | fuel + 1, l, table =>
    let (sh, n) := levelShift l
    let ea := table + 8 * (va / 2 ^ sh % n)
    if (s.region ea).isNone then sh
    else
      let e := s.entryAt ea
      if e % 2 = 0 ∨ e / 2 % 2 = 1 then sh else s.pageShiftFrom va fuel (l + 1) (e / 256 % 2 ^ 40 * 256)

/-- The first address of the page that holds `va`, and its size, by the entry that maps it or last did (R339, R368). -/
def State.pageOf (s : State) (part va : Nat) : Nat × Nat :=
  let b := s.reg (0x300120 + 8 * part)
  let n := 2 ^ s.pageShiftFrom va 4 0 (bitsOf b 47 16 * 65536)
  (va / n * n, n)

def State.walkReads (s : State) (part : Nat) (va : Nat) : List Nat :=
  let b := s.reg (0x300120 + 8 * part)
  if b.getLsbD 0 then s.walkReadsFrom va 4 0 (bitsOf b 47 16 * 65536) else []

/-- Where an access to a physical address is performed: at the new home once the move access of its line is done
(R367). -/
def State.forward (s : State) (pa : Nat) : Nat :=
  match s.stk.moves.find? (fun (m : PageMove) => decide (m.old ≤ pa) && decide (pa < m.old + 65536 * m.moved)) with
  | some m => pa - m.old + m.new
  | none => pa

/-- Translation and checks of R341 for unit class `cls` (0 core, 1 pan, 2 sluice, 3 Brine, 4 crystallizer, 5
fetch); `pinned` asks for PIN. The first failing check gives the reason of event 0x1202. -/
def State.xlate (s : State) (part : Option Nat) (cls : Nat) (acc : AccKind) (pinned : Bool) (va : Int) : Walk :=
  if va < 0 ∨ (2 ^ 56 : Int) ≤ va then Walk.fail 6 false
  else
    match part with
    | none => Walk.fail 0 false
    | some p =>
      let w := s.walk p va.toNat
      match w.reason with
      | some _ => w
      | none =>
        let r := w.perm % 2 == 1
        let wr := w.perm / 2 % 2 == 1
        let x := w.perm / 4 % 2 == 1
        let bad : Option Nat :=
          match acc with
          | .read => if r then none else some 1
          | .write => if wr then none else some 2
          | .atomic => if !r then some 1 else if !wr then some 2 else none
          | .fetch => if x then none else some 3
        match bad with
        | some q => { w with reason := some q }
        | none =>
          if w.kind = 1 ∧ (cls ≠ 2 ∧ cls ≠ 4 ∨ acc = .atomic) then { w with reason := some 4 }
          else if pinned ∧ ¬ w.pin then { w with reason := some 5 }
          else { w with pa := s.forward w.pa }

end Sys2Proof.Machine
end

