-- ==== Sys2Proof/Machine/Mem.lean ====
section
/-! DEFINITION. What every access does at its home besides moving bytes: near and far counts, heat (R357, R364),
parity attempts and poison (R350 to R352, R505), and the context of one command's or access's dealings with
memory. -/

namespace Sys2Proof.Machine

/-! Channels and poison. -/

/-- Adds repeated attempts and failures to a channel's window (R506). -/
def State.chanCount (s : State) (c : Chan) (reps fails : Nat) : State :=
  if reps = 0 ∧ fails = 0 then s
  else
    let (r, f) := (assoc c s.int.chan).getD (0, 0)
    { s with int := { s.int with chan := assocPut c (r + reps, f + fails) s.int.chan } }

/-- Repeated attempts and failures that `n` failed attempts make, of four in all (R350). -/
def triesOf (n : Nat) : Nat × Nat := if 4 ≤ n then (3, 1) else (n, 0)

/-- Failed attempts of a slow-tier word: replays counted, and the channel's window (R177, R506). -/
def State.slowTries (s : State) (x ch n : Nat) : State :=
  let (reps, fails) := triesOf n
  let s := if reps = 0 then s else s.count (xtlBase x + 0x450) reps
  s.chanCount ⟨2, x, ch⟩ reps fails

/-- Marks a line poisoned. -/
def State.markPoison (s : State) (pa : Nat) : State := { s with poison := setAdd (pa / 64) s.poison }

/-- Failed attempts of a stack access to a line (R350, R351): counted, and after four the line is poisoned with
event 0x1301. -/
def State.stackTries (s : State) (pa n : Nat) (write : Bool) : State :=
  match s.stackOf pa with
  | none => s
  | some (k, a) =>
    let (reps, fails) := triesOf n
    let b := memBase (k / 4)
    let j := 0x100 * (k % 4)
    let s := if reps = 0 then s else s.count (b + 0x3020 + j) reps
    let s := s.chanCount ⟨0, k, pcOf a⟩ reps fails
    if fails = 0 then s
    else
      let s := (s.markPoison pa).count (b + 0x3030 + j) 1
      s.raise (s.stackSrc k) 0x1301 (pack [(low 42 (pa / 64), 6), (pcOf a, 0), (k, 48), (b2n write, 52)])

/-! The fleur path (R373, R374). -/

/-- Bursts a burst buffer holds. -/
def burstDepth : Nat := 1024

/-- The bytes of the burst that holds an address. -/
def State.burstAt (s : State) (pa : Nat) : Burst := ⟨pa / 32, leNat (s.rdBytes (pa / 32 * 32) 32)⟩

/-- Puts a burst at the front of a buffer; the least recently used leaves one that is full. -/
def useBurst (b : Burst) (l : List Burst) : List Burst := (b :: l.filter (fun e => e.num ≠ b.num)).take burstDepth

/-- One fleur request for the granule at a physical address, after a walk has dropped repeats (R337). A line present at its
home slice is served there, and only fast memory has the path. At the controller a read whose burst is in the buffer takes no
burst, another read takes one and a write two. A burst whose line another path wrote, or a fill took, has left the buffer.
Whether the slice holds the line, and whether a fill has come in between, are free choices: the spec gives the slice no
contents (log entry 100). -/
def State.fleur (s : State) (pa : Nat) (write : Bool) : State :=
  match s.stackOf pa with
  | none => s
  | some (k, _) =>
    let (w, s) := s.fresh
    if w.getLsbD 0 then s
    else
      let i : Fin 16 := Fin.ofNat 16 k
      let b := s.burstAt pa
      let hit := s.stk.bursts[i].contains b && !w.getLsbD 1
      let off := memBase (k / 4) + 0x100 * (k % 4)
      let n := if write then 2 else if hit then 0 else 1
      let s := (s.count (off + 0x3050) 1).count (off + 0x3040) n
      { s with stk := { s.stk with bursts := s.stk.bursts.set i (useBurst b s.stk.bursts[i]) } }

/-- A fleur write updates the burst buffer (R374): a burst that is held takes the bytes written. -/
def State.fleurWrote (s : State) (pa : Nat) : State :=
  match s.stackOf pa with
  | none => s
  | some (k, _) =>
    let i : Fin 16 := Fin.ofNat 16 k
    let b := s.burstAt pa
    { s with stk := { s.stk with
        bursts := s.stk.bursts.set i (s.stk.bursts[i].map (fun e => if e.num = b.num then b else e)) } }

/-- Failed attempts on a slice path (R505): path 0 pan port, 1 core port, 2 sluice port, 3 Brine port, 4 slice
array; after four the line is poisoned with event 0x0308. A caller that reads over a port takes the mark back after the
read: only the unit that received the word handles the line as poisoned. -/
def State.pathTries (s : State) (pa path n : Nat) : State :=
  if n < 4 then s
  else
    let c := (s.homeOf pa).getD 0
    let s := (s.markPoison pa).count 0x210460 1
    s.raise (s.sliceSrc c) 0x308 (pack [(low 42 (pa / 64), 6), (path, 48), (c, 52)])

/-- The accesses of units to lines whose words mismatch in this window: a read of `n` bytes at `pa`, or a write, meets the
failed attempts listed for the lines it touches, once. For a slow-tier line `stack` are those of its channel, and a word that
fails its fourth attempt is delivered poisoned (log entry 95). `port` is the path of the unit's slice port, as `pathTries` codes it.
Answers the lines that the port delivered poisoned, which only the reader handles so. -/
def State.meetFlaws (s : State) (pa n : Nat) (write : Bool) (port : Option Nat) : List Nat × State :=
  let hit (f : Flaw) : Bool := f.write == write && decide (pa / 64 ≤ f.line) && decide (64 * f.line < pa + n)
  (s.int.flaws.filter hit).foldl (fun (acc : List Nat × State) f =>
    let at_ := 64 * f.line
    let s1 := acc.2.stackTries at_ f.stack.val write
    match s1.slowChannel at_ with
    | some (x, ch) => (if f.stack == 4 && !write then f.line :: acc.1 else acc.1, if write then s1 else s1.slowTries x ch f.stack.val)
    | none =>
    if (s1.homeOf at_).isNone then (acc.1, s1)
    else
      let s1 := s1.pathTries at_ 4 f.array.val
      let s2 := match port with
        | some q => s1.pathTries at_ q f.port.val
        | none => s1
      if write then (acc.1, s2)
      else (if port.isSome && f.port == 4 then f.line :: acc.1 else acc.1, { s2 with poison := s1.poison }))
    ([], { s with int := { s.int with flaws := s.int.flaws.filter (fun f => !hit f) } })

/-- The slice port of a unit class, as `pathTries` codes it: pan, core, sluice and Brine ports have one (R505). -/
def slicePort (cls : Nat) : Option Nat := [1, 0, 2, 3][cls]?

/-! Near, far and heat (R357, R364). -/

/-- The allocation that holds a physical address. -/
def State.allocAt (s : State) (pa : Nat) : Option PageAlloc :=
  s.stk.allocs.find? (fun a => decide (a.pa ≤ pa) && decide (pa < a.pa + 65536 * a.frames))

/-- The set of a heat table a page lies in: 65,536 entries, 16 ways, by the page's first frame (R364). -/
def heatSet (pa : Nat) : Nat := pa / 65536 % 4096

/-- The total count of an entry. -/
def HeatEntry.total (e : HeatEntry) : Nat := e.counts[0] + e.counts[1] + e.counts[2] + e.counts[3]

/-- One counted access of a source die to a page (R364): saturating at 16 bits; a page not in the table replaces
the entry of its set with the lowest total, lowest way on ties, when the set holds 16. -/
def heatCount (pa : Nat) (src : DieIx) (t : List HeatEntry) : List HeatEntry :=
  let bump (e : HeatEntry) : HeatEntry := { e with counts := e.counts.set src (min 65535 (e.counts[src] + 1)) }
  if t.any (fun e => e.pa = pa) then t.map (fun e => if e.pa = pa then bump e else e)
  else
    let ways := t.filter (fun e => heatSet e.pa = heatSet pa)
    let fresh := bump ⟨pa, Vector.replicate 4 0⟩
    if ways.length < 16 then t ++ [fresh]
    else
      let lowest := ways.foldl (fun m e => min m e.total) ((ways.map HeatEntry.total).headD 0)
      match ways.find? (fun e => e.total = lowest) with
      | some v => t.map (fun e => if e.pa = v.pa then fresh else e)
      | none => t

/-- One access performed at the home slice of a line: near or far of the requesting die, remote to the slice, and
one in 2^SAMPLE accesses to a tracked page counted in the heat table (R357, R364). `die` is the requester's die,
`cluster` its cluster where it has one. -/
def State.touch (s : State) (pa : Nat) (die : Nat) (cluster : Option Nat) : State :=
  match s.homeOf pa with
  | none => s
  | some h =>
    let hd := h / 2
    let s := if hd = die then s.count (memBase hd + 0x3800) 1 else s.count (memBase hd + 0x3810) 1
    let s := if cluster = some h then s else s.count (cacheBase h + 0x420) 1
    match s.region pa, s.allocAt pa with
    | some (.near d), some a =>
      if a.shared ∨ a.pin ∨ d ≠ hd then s
      else
        let n := s.stk.sample[Fin.ofNat 8 h] + 1
        if n < 2 ^ s.fld (memBase 0 + 8) 3 1 then
          { s with stk := { s.stk with sample := s.stk.sample.set (Fin.ofNat 8 h) n } }
        else
          let t := s.stk.heat[Fin.ofNat 4 d]
          { s with stk := { s.stk with
              sample := s.stk.sample.set (Fin.ofNat 8 h) 0
              heat := s.stk.heat.set (Fin.ofNat 4 d) (heatCount a.pa (Fin.ofNat 4 die) t) } }
    | _, _ => s

/-! The context of one command or access. -/

/-- The clamped accesses of one descriptor (R330, R331). -/
structure OobNote where
  va : Nat
  count : Nat
  write : Bool
  zero : Bool
  deriving DecidableEq, Repr

/-- One command's or access's dealings with memory: the state so far; who asks (unit class of R342, partition,
event source, die, cluster, issuing core); the first translation fault (address, reason); the first poisoned line
read (virtual address); a poisoned descriptor, record, owner-table entry or index; whether a write overflowed;
clamped accesses; NaN blocks written; lines touched. -/
structure XCtx where
  s : State
  cls : Nat
  part : Option Nat
  src : Src
  die : Nat
  cluster : Option Nat
  core : Nat
  fault : Option (Nat × Nat)
  poison : Option Nat
  badRecord : Bool
  ovf : Bool
  /-- overflows on write so far, element by element and NaN block by NaN block (R65) -/
  ovfs : Nat
  oob : List OobNote
  nanBlocks : List (Nat × Nat)
  lines : List Nat
  /-- whether the bytes read and written are noted, and they: virtual address, physical address, length (the taps of
  R524, the counts of sluices) -/
  log : Bool := false
  rlog : List (Nat × Nat × Nat) := []
  wlog : List (Nat × Nat × Nat) := []
  /-- physical addresses of the contributions in the line update being built (R317) -/
  upd : List Nat := []
  /-- lines that the unit's slice port delivered poisoned (R505) -/
  portBad : List Nat := []
  /-- bytes of poisoned lines that this command has written; its writes of a line count as one write (R351) -/
  cover : List Nat := []
  /-- the stripes of a window command's pan, filled as its rows are generated; no plan in direct mode (R224 to R226) -/
  stripe : Option StripePlan := none
  stripes : List Stripe := []

/-- A context of a unit. -/
def XCtx.start (s : State) (cls : Nat) (src : Src) (cluster : Option Nat) (core : Nat) : XCtx :=
  ⟨s, cls, s.partOfDie src.die, src, src.die, cluster, core, none, none, false, false, 0, [], [], [], false, [], [], [], [], [], none, []⟩

/-- Records the first fault. -/
def XCtx.faulted (x : XCtx) (va : Int) (reason : Nat) : XCtx :=
  match x.fault with
  | some _ => x
  | none => { x with fault := some ((va % 2 ^ 56).toNat, reason) }

/-- Records the first poisoned line read. -/
def XCtx.poisonedAt (x : XCtx) (va : Nat) : XCtx :=
  match x.poison with
  | some _ => x
  | none => { x with poison := some va }

/-- An access of this context meets the mismatching words of the lines it touches; nothing where none is listed. -/
def XCtx.meet (x : XCtx) (pa n : Nat) (write : Bool) (port : Option Nat) : XCtx :=
  if x.s.int.flaws.isEmpty then x
  else
    let (bad, s) := x.s.meetFlaws pa n write port
    { x with s := s, portBad := bad ++ x.portBad }

/-- The table reads of a walk meet mismatching words (R344: they are read through their home slices). -/
def XCtx.meetWalk (x : XCtx) (va : Int) : XCtx :=
  if x.s.int.flaws.isEmpty ∨ va < 0 then x
  else (x.s.walkReads (x.part.getD 0) va.toNat).foldl (fun (x : XCtx) ea => x.meet ea 8 false none) x

/-- Translates one address; a failure is the command's fault (R342). -/
def XCtx.xlate (x : XCtx) (acc : AccKind) (pinned : Bool) (va : Int) : Option Nat × XCtx :=
  let x := x.meetWalk va
  let w := x.s.xlate x.part x.cls acc pinned va
  let x := if w.bad then x.poisonedAt va.toNat else x
  match w.reason with
  | some r => (none, x.faulted va r)
  | none => (some w.pa, { x with lines := setAdd (w.pa / 64) x.lines })

/-- Bytes of one page from a physical address, with the poison of the lines read noted at the virtual address of
each poisoned line. -/
def XCtx.pull (x : XCtx) (va pa n : Nat) : List Byte × XCtx :=
  let x := x.meet pa n false (slicePort x.cls)
  let port (i : Nat) : Bool := x.portBad.contains ((pa + i) / 64)
  let bad := (List.range n).find? (fun i => x.s.poisoned (pa + i) || port i)
  let x := match bad with
    | some i => x.poisonedAt (va + i)
    | none => x
  let ls := (List.range (n / 64 + 1)).map (fun i => (pa + min (64 * i) (n - 1)) / 64)
  let x := if x.log then { x with rlog := (va, pa, n) :: x.rlog } else x
  (if x.portBad.isEmpty then x.s.rdBytes pa n else (List.range n).map (fun i => if port i then 0xFF else x.s.rdByte (pa + i)),
    { x with lines := ls.foldl (fun a l => setAdd l a) x.lines })

/-- Reads `n` bytes (at most a page) at a virtual address, translating each page once. A failed translation gives
zero bytes, and the command faults. -/
def XCtx.rd (x : XCtx) (pinned : Bool) (va n : Nat) : List Byte × XCtx :=
  let first := min n (65536 - va % 65536)
  let (p, x) := x.xlate .read pinned va
  let (a, x) := match p with
    | some pa => x.pull va pa first
    | none => (List.replicate first 0, x)
  if n ≤ first then (a, x)
  else
    let va' := va + first
    let (p, x) := x.xlate .read pinned va'
    let (b, x) := match p with
      | some pa => x.pull va' pa (n - first)
      | none => (List.replicate (n - first) 0, x)
    (a ++ b, x)

/-- Reads a descriptor, record, owner-table entry or index: a poisoned line fails the command (R352). -/
def XCtx.rdRecord (x : XCtx) (va n : Nat) : List Byte × XCtx :=
  let before := x.poison
  let (b, x) := x.rd false va n
  (b, if before.isNone ∧ x.poison.isSome then { x with badRecord := true } else x)

/-- Reads a record and says whether it was lost: its own translation failed, or its line is poisoned. -/
def XCtx.tryRecord (x : XCtx) (va n : Nat) : List Byte × Bool × XCtx :=
  let (b, y) := ({ x with fault := none, poison := none, badRecord := false } : XCtx).rdRecord va n
  (b, y.fault.isSome || y.badRecord,
    { y with
      fault := match x.fault with
        | some f => some f
        | none => y.fault
      poison := match x.poison with
        | some p => some p
        | none => y.poison
      badRecord := x.badRecord || y.badRecord })

/-- Bytes of poisoned lines written: a line of which this command has written all 64 bytes is whole again (R351). -/
def XCtx.covered (x : XCtx) (pa n : Nat) : XCtx :=
  if x.s.poison.isEmpty then x
  else
    let cover := ((List.range n).map (pa + ·)).foldl (fun m a => if x.s.poisoned a then setAdd a m else m) x.cover
    let whole (l : Nat) : Bool := (List.range 64).all (fun i => cover.contains (64 * l + i))
    { x with cover := cover, s := { x.s with poison := x.s.poison.filter (fun l => !whole l) } }

/-- Stores bytes of one page, noted where the context keeps a log. -/
def XCtx.push (x : XCtx) (va pa : Nat) (bs : List Byte) : XCtx :=
  let x := if x.log then { x with wlog := (va, pa, bs.length) :: x.wlog } else x
  (({ x with s := x.s.store pa bs } : XCtx).covered pa bs.length).meet pa bs.length true (slicePort x.cls)

/-- Stores bytes at a virtual address; nothing is written to an address that fails. -/
def XCtx.wr (x : XCtx) (pinned : Bool) (va : Nat) (bs : List Byte) : XCtx :=
  let n := bs.length
  let first := min n (65536 - va % 65536)
  let (p, x) := x.xlate .write pinned va
  let x := match p with
    | some pa => x.push va pa (bs.take first)
    | none => x
  if n ≤ first then x
  else
    let (p, x) := x.xlate .write pinned (va + first : Nat)
    match p with
    | some pa => x.push (va + first) pa (bs.drop first)
    | none => x

/-- Something of what a unit reads or writes lies on a die out of its reach (R451). -/
def XCtx.held (x : XCtx) (s : State) : Bool :=
  !s.link.unreachable.isEmpty && x.lines.any (fun l => s.cutOff x.die (64 * l))

/-- Notes clamped accesses of a descriptor (R330, R331). -/
def XCtx.clamped (x : XCtx) (va n : Nat) (write zero : Bool) : XCtx :=
  if n = 0 then x
  else
    let old := x.oob.find? (fun o => o.va = va)
    let new : OobNote := match old with
      | some o => ⟨va, o.count + n, o.write || write, o.zero || zero⟩
      | none => ⟨va, n, write, zero⟩
    { x with oob := match old with
        | some _ => x.oob.map (fun o => if o.va = va then new else o)
        | none => x.oob ++ [new] }

/-- Adds one descriptor's count to its OOB_CNT, saturating, and raises event 0x1201 (R330). A page that does not
permit the write only sets the event's flag. -/
def XCtx.addOob (x : XCtx) (o : OobNote) : XCtx :=
  let w := x.s.xlate x.part x.cls .atomic false ((o.va + 120 : Nat) : Int)
  let s := match w.reason with
    | some _ => x.s
    | none =>
      let old := leNat ((List.range 8).map (fun i => x.s.byteAt (w.pa + i)))
      x.s.store w.pa (leBytes 8 (min (2 ^ 64 - 1) (old + o.count)))
  let payload := pack [(low 56 o.va, 0), (b2n o.write, 56), (b2n w.reason.isSome, 57), (b2n o.zero, 58)]
  { x with s := s.raise x.src 0x1201 payload }

/-- Payload of event 0x1202 (R342). -/
def XCtx.faultPayload (x : XCtx) (f : Nat × Nat) : BitVec 64 :=
  pack [(low 56 f.1, 0), (f.2, 56), (x.part.getD 0, 59), (x.cls, 61)]

/-- Payload of event 0x1302 (R352). -/
def XCtx.poisonPayload (x : XCtx) (va : Nat) : BitVec 64 :=
  pack [(low 56 va, 0), (x.cls, 56), (x.part.getD 0, 59)]

/-- The end of the command's dealings with memory: OOB_CNT additions with their events (R330), event 0x1202 for a
fault, 0x1302 for poison, 0x1102 for NaN blocks (R70), and the lines touched counted at their homes. -/
def XCtx.close (x : XCtx) : State :=
  let x := x.oob.foldl XCtx.addOob x
  let s := x.nanBlocks.foldl (fun s (va, f) => s.raise x.src 0x1102 (pack [(low 56 va, 0), (f, 56)])) x.s
  let s := match x.fault with
    | some f => s.raise x.src 0x1202 (x.faultPayload f)
    | none => s
  let s := match x.poison with
    | some va => s.raise x.src 0x1302 (x.poisonPayload va)
    | none => s
  x.lines.foldl (fun s l => s.touch (64 * l) x.die x.cluster) s

/-- What a context has met, to be carried to the command's next step. -/
def XCtx.notes (x : XCtx) : XNotes :=
  ⟨x.fault, x.poison, x.badRecord, x.oob.map (fun o => (o.va, o.count, o.write, o.zero)), x.nanBlocks, x.lines⟩

/-- A context that goes on from notes. -/
def XCtx.resume (x : XCtx) (n : XNotes) : XCtx :=
  { x with
    fault := n.fault
    poison := n.poison
    badRecord := n.badRecord
    oob := n.oob.map (fun (v, c, w, z) => ⟨v, c, w, z⟩)
    nanBlocks := n.nanBlocks
    lines := n.lines }

end Sys2Proof.Machine
end

