-- ==== Sys2Proof/Machine/Weave.lean ====
section
/-! DEFINITION. Weave descriptors and address generation (11_weave_descriptors.md): parsing and checks, indices to
addresses, clamping, reading and writing elements with block scales; window records and their geometry
(07_sliding_windows.md); pressed blocks (R229 to R234). -/

namespace Sys2Proof.Machine

/-! Parsing and checks. -/

/-- An event code and its payload: how a check fails. -/
abbrev Bad := Nat × BitVec 64

/-- A little-endian field of a record. -/
def recNat (bs : List Byte) (off n : Nat) : Nat := leNat ((bs.drop off).take n)

/-- A two's complement field of a record. -/
def recInt (bs : List Byte) (off n : Nat) : Int := codeInt (8 * n) (recNat bs off n)

/-- Whether `n` bytes of a record at `off` are all zero. -/
def recZero (bs : List Byte) (off n : Nat) : Bool := recNat bs off n == 0

/-- Event 0x1103: the offending field, the other operand's field, the issuing core (R53, R79). -/
def bad1103 (field other core : Nat) : Bad := (0x1103, pack [(field, 0), (other, 8), (core, 16)])

/-- Event 0x1105 (R81). -/
def bad1105 (field : Nat) (comp : Bool) (core : Nat) : Bad :=
  (0x1105, pack [(field, 0), (b2n comp, 8), (core, 16)])

/-- Event 0x1203: descriptor address and reason (R324). -/
def bad1203 (va reason : Nat) : Bad := (0x1203, pack [(low 56 va, 0), (reason, 56)])

/-- What the unit that reads a descriptor asks of it: STRIDE[0] = 1 (R335), and whether it may be pressed
(R229). -/
structure DescUse where
  streaming : Bool
  pressed : Bool
  deriving DecidableEq, Repr

/-- The reason of event 0x1203, in ascending order of the codes (R320 to R322, R324, R335). -/
def descReason (va : Nat) (bs : List Byte) (f : Fmt) (u : DescUse) : Option Nat :=
  let rank := recNat bs 1 1 % 8
  let border := recNat bs 2 1
  let sd := recNat bs 4 1
  let od := recNat bs 5 1
  let base := recNat bs 8 8
  let sbase := recNat bs 16 8
  let own := recNat bs 96 8
  let oext := recNat bs 104 4
  let stride (d : Nat) : Int := recInt bs (48 + 8 * d) 8
  let ext (d : Nat) : Nat := recNat bs (24 + 4 * d) 4
  let w := f.elem.bits
  let inner : List Nat := (List.range 6).filter (fun d => 1 ≤ d ∧ d < rank)
  if recNat bs 1 1 / 8 ≠ 0 ∨ 3 ≤ border ∨ recNat bs 3 1 / 8 ≠ 0 ∨ sd / 8 ≠ 0 ∨ od / 8 ≠ 0
      ∨ !recZero bs 6 2 ∨ !recZero bs 108 12 ∨ 2 ^ 56 ≤ base ∨ 2 ^ 56 ≤ sbase ∨ 2 ^ 56 ≤ own then some 1
  else if rank = 0 ∨ rank = 7 then some 2
  else if (List.range 6).any (fun d => rank ≤ d && (ext d != 0 || stride d != 0)) then some 3
  else if (if f.scaled then decide (rank ≤ sd) else decide (sd ≠ 0 ∨ sbase ≠ 0)) then some 4
  else if (if own = 0 then decide (od ≠ 0 ∨ oext ≠ 0)
      else decide (rank ≤ od ∨ oext = 0 ∨ own % 16 ≠ 0) ||
        (f.scaled && decide (sd = od) && decide (oext % f.blk ≠ 0))) then some 5
  else if va % 128 ≠ 0 ∨ (w = 16 ∧ base % 2 ≠ 0) ∨ (w = 32 ∧ base % 4 ≠ 0)
      ∨ (recNat bs 3 1 / 2 % 2 = 1 ∧ base % 64 ≠ 0) then some 6
  else if (w = 4 ∧ (stride 0 ≠ 1 ∨ inner.any (fun d => stride d % 2 ≠ 0)))
      ∨ (w = 6 ∧ (stride 0 ≠ 1 ∨ inner.any (fun d => stride d % 4 ≠ 0))) then some 7
  else if u.streaming ∧ stride 0 ≠ 1 then some 8
  else none

/-- Parses and checks a descriptor in the order of R324. `core` is the issuing core, for the payloads. -/
def parseDesc (va : Nat) (bs : List Byte) (core : Nat) (u : DescUse) : Except Bad Desc :=
  let field := recNat bs 0 1
  let flags := recNat bs 3 1
  let residual := flags % 2 == 1
  let comp := flags / 2 % 2 == 1
  match fmtOf (BitVec.ofNat 8 field) with
  | none => .error (bad1103 field 0 core)
  | some f =>
    if residual ∧ (field ≠ 0 ∨ comp) then .error (bad1105 field comp core)
    else if comp ∧ (!u.pressed ∨ (field ≠ 0x00 ∧ field ≠ 0x10 ∧ field ≠ 0x20)) then
      .error (bad1103 field 0 core)
    else
      match descReason va bs f u with
      | some r => .error (bad1203 va r)
      | none =>
        let rank := recNat bs 1 1 % 8
        .ok {
          va := va
          field := BitVec.ofNat 8 field
          fmt := f
          border := recNat bs 2 1 % 4
          residual := residual
          compressible := comp
          pinned := flags / 4 % 2 == 1
          scaleDim := recNat bs 4 1 % 8
          ownDim := recNat bs 5 1 % 8
          base := recNat bs 8 8
          scaleBase := recNat bs 16 8
          ext := (List.range rank).map (fun d => recNat bs (24 + 4 * d) 4)
          stride := (List.range rank).map (fun d => recInt bs (48 + 8 * d) 8)
          ownVa := recNat bs 96 8
          ownExt := recNat bs 104 4 }

/-- How reading a descriptor ends. -/
inductive Read (α : Type) where
  | ok (a : α)
  /-- a check failed: event code and payload -/
  | bad (b : Bad)
  /-- the address failed translation, or its line was poisoned: the context says which -/
  | lost
  deriving Repr

/-- Reads and checks a descriptor (R323, R324); a failed translation or a poisoned line is in the context. A unit
command fails on a poisoned line; THL (`raw`) takes its bytes as 0xFF (R352). -/
def XCtx.readDesc (x : XCtx) (va : Nat) (u : DescUse) (raw : Bool := false) : Read Desc × XCtx :=
  let (bs, x) := if raw then x.rd false va 128 else x.rdRecord va 128
  if x.fault.isSome ∨ x.badRecord then (.lost, x)
  else
    match parseDesc va bs x.core u with
    | .ok d => (.ok d, x)
    | .error b => (.bad b, x)

/-! From indices to addresses. -/

/-- The product of extents: elements of the tensor. -/
def Desc.elems (d : Desc) : Nat := d.ext.foldl (· * ·) 1

/-- Rows of the tensor as a matrix (R328). -/
def Desc.rows (d : Desc) : Nat := (d.ext.drop 1).foldl (· * ·) 1

/-- Columns. -/
def Desc.cols (d : Desc) : Nat := d.ext.headD 0

/-- Whether an extent is 0 (R331). -/
def Desc.empty (d : Desc) : Bool := d.ext.any (· == 0)

/-- Indices of a logical linear index, dimension 0 fastest (R92, R328). -/
def delinear : List Nat → Nat → List Nat
  | [], _ => []
  | e :: r, n => n % e :: delinear r (n / e)

/-- The logical linear index of indices (R92). -/
def linear : List Nat → List Nat → Nat
  | [], _ => 0
  | _, [] => 0
  | e :: r, i :: q => i + e * linear r q

/-- One index clamped to its range (R329). -/
def clampIx (e : Nat) (i : Int) : Nat := (max 0 (min ((e : Int) - 1) i)).toNat

/-- Indices clamped dimension by dimension (R329), and whether any was. -/
def clampAll : List Nat → List Int → List Nat × Bool
  | [], _ => ([], false)
  | _, [] => ([], false)
  | e :: r, i :: q =>
    let (l, b) := clampAll r q
    let c := clampIx e i
    (c :: l, b || decide ((c : Int) ≠ i))

/-- A matrix position clamped (R328, R329): row first, then decomposed; whether either was clamped. -/
def Desc.clampRC (d : Desc) (row col : Int) : List Nat × Bool :=
  let r := clampIx d.rows row
  let c := clampIx d.cols col
  (c :: delinear (d.ext.drop 1) r, decide ((r : Int) ≠ row) || decide ((c : Int) ≠ col))

/-- A linear position clamped (R329). -/
def Desc.clampLin (d : Desc) (p : Int) : List Nat × Bool :=
  let q := clampIx d.elems p
  (delinear d.ext q, decide ((q : Int) ≠ p))

/-- The element offset of indices, signed and exact (R325). -/
def elemOff : List Int → List Nat → Int
  | [], _ => 0
  | _, [] => 0
  | s :: r, i :: q => s * i + elemOff r q

/-- Byte address and starting bit of an element (R325). -/
def Desc.address (d : Desc) (idx : List Nat) : Int × Nat :=
  let bit := elemOff d.stride idx * d.fmt.elem.bits
  ((d.base : Int) + bit / 8, (bit % 8).toNat)

/-- Extents of the scale array (R327). -/
def Desc.scaleExt (d : Desc) : List Nat :=
  d.ext.zipIdx.map (fun (e, k) => if k = d.scaleDim then (e + d.fmt.blk - 1) / d.fmt.blk else e)

/-- Block indices of an element (R327). -/
def Desc.blockIdx (d : Desc) (idx : List Nat) : List Nat :=
  idx.zipIdx.map (fun (i, k) => if k = d.scaleDim then i / d.fmt.blk else i)

/-- The block's logical linear index in the scale array (R327). -/
def Desc.blockOf (d : Desc) (idx : List Nat) : Nat := linear d.scaleExt (d.blockIdx idx)

/-- The indices of the elements of a block that exist (R61). -/
def Desc.blockElems (d : Desc) (blk : Nat) : List (List Nat) :=
  let b := delinear d.scaleExt blk
  let first := (b[d.scaleDim]?).getD 0 * d.fmt.blk
  let n := min d.fmt.blk ((d.ext[d.scaleDim]?).getD 0 - first)
  (List.range n).map (fun j => b.zipIdx.map (fun (i, k) => if k = d.scaleDim then first + j else i))

/-! Elements. -/

/-- Bytes an element of `w` bits starting at bit `b` spans. -/
def spanBytes (w b : Nat) : Nat := (b + w + 7) / 8

/-- Whether a format's poisoned elements read as the canonical NaN (R352). -/
def poisonNan : Elem → Bool
  | .fp32 | .fp16 | .bf16 | .e4m3 | .e5m2 => true
  | _ => false

/-- The code of the element at (clamped) indices, and whether its line was poisoned. `shift` moves the base, for
an owner's chunk (R346). -/
def XCtx.readCode (x : XCtx) (d : Desc) (idx : List Nat) : Nat × Bool × XCtx :=
  let (a, b) := d.address idx
  let w := d.fmt.elem.bits
  if a < 0 then
    let (_, x) := x.xlate .read d.pinned a
    (0, false, x)
  else
    let before := x.poison
    let (bs, x) := ({ x with poison := none } : XCtx).rd d.pinned a.toNat (spanBytes w b)
    let bad := x.poison.isSome
    let x := if before.isSome then { x with poison := before } else x
    (leNat bs / 2 ^ b % 2 ^ w, bad, x)

/-- The scale code of a block; a poisoned line reads as the NaN code (R352). -/
def XCtx.readScale (x : XCtx) (d : Desc) (blk : Nat) : Nat × XCtx :=
  let (bs, x) := x.rd d.pinned (d.scaleBase + blk) 1
  let c := leNat bs
  -- a poisoned byte reads 0xFF, which is the NaN code of both scale types (R59)
  (c, x)

/-- The value of the element at clamped indices (R54, R60). -/
def XCtx.readVal (x : XCtx) (d : Desc) (idx : List Nat) : Val × XCtx :=
  let (c, bad, x) := x.readCode d idx
  let raw : Nat := if bad ∧ poisonNan d.fmt.elem then d.fmt.elem.nanCode else c
  if d.fmt.scaled then
    let (sc, x) := x.readScale d (d.blockOf idx)
    (d.fmt.scaledVal sc raw, x)
  else (d.fmt.decode raw, x)

/-- A read of a tensor with a zero extent: +0, counted (R331). -/
def XCtx.emptyRead (x : XCtx) (d : Desc) : Val × XCtx := (vZero false, x.clamped d.va 1 false true)

/-- The value at a matrix position (R328, R329), counted when clamped (R330). -/
def XCtx.readRC (x : XCtx) (d : Desc) (row col : Int) : Val × XCtx :=
  if d.empty then x.emptyRead d
  else
    let (idx, oob) := d.clampRC row col
    x.clamped d.va (b2n oob) false false |>.readVal d idx

/-- The value at a logical linear position. -/
def XCtx.readLin (x : XCtx) (d : Desc) (p : Int) : Val × XCtx :=
  if d.empty then x.emptyRead d
  else
    let (idx, oob) := d.clampLin p
    x.clamped d.va (b2n oob) false false |>.readVal d idx

/-- The integer an element of an index tensor holds (R429), or of an integer operand. -/
def Val.int : Val → Int
  | .fin s n d e => (Val.fin s n d e).truncInt
  | _ => 0

/-- Stores the code of an element: only its bits change (R326). -/
def XCtx.writeCode (x : XCtx) (d : Desc) (idx : List Nat) (code : Nat) : XCtx :=
  let (a, b) := d.address idx
  let w := d.fmt.elem.bits
  if a < 0 then (x.xlate .write d.pinned a).2
  else if w % 8 = 0 then x.wr d.pinned a.toNat (leBytes (w / 8) code)
  else
    let n := spanBytes w b
    let put (x : XCtx) (va : Nat) (i : Nat) : XCtx :=
      let (p, x) := x.xlate .write d.pinned va
      match p with
      | none => x
      | some pa =>
        let old := (x.s.byteAt pa).toNat
        let mask := (2 ^ w - 1) * 2 ^ b / 256 ^ i % 256
        let new := Nat.lor (Nat.land old (255 - mask)) (Nat.land (code * 2 ^ b / 256 ^ i % 256) mask)
        x.push va pa [BitVec.ofNat 8 new]
    (List.range n).foldl (fun x i => put x (a.toNat + i) i) x

/-- One write of a command: the element's logical linear index, its value and its rounding. -/
structure ElemWrite where
  lin : Nat
  val : Val
  rnd : Rnd
  deriving DecidableEq, Repr

/-- Strides that keep the elements apart: each positive and beyond the span of the dimensions before it. -/
def apart : Int → List Int → List Nat → Bool
  | _, [], _ => true
  | _, _, [] => true
  | span, s :: r, e :: q => decide (span ≤ s) && apart (span + s * ((e : Int) - 1)) r q

/-- Whether strides map two logical elements of the tensor to one address. -/
def Desc.aliased (d : Desc) : Bool := !apart 1 d.stride d.ext

/-- Whether two logical elements of a tensor are one in memory: the same element, or strides map both to one address of one
owner's chunk (R332, R346). -/
def Desc.sameElem (d : Desc) (a b : Nat) : Bool :=
  a == b || (d.aliased &&
    (let i := delinear d.ext a
     let j := delinear d.ext b
     let chunk (k : List Nat) : Nat := if d.ownVa = 0 then 0 else (k[d.ownDim]?).getD 0 / d.ownExt
     chunk i == chunk j && d.address i == d.address j))

/-- The last write to an element among a command's writes (R332). -/
def Desc.lastWrite (d : Desc) (ws : List ElemWrite) (lin : Nat) : Option ElemWrite :=
  ws.reverse.find? (fun w => d.sameElem w.lin lin)

/-- Values without repeats, first occurrence kept. -/
def dedup (l : List Nat) : List Nat := l.foldl (fun a k => if a.contains k then a else a ++ [k]) []

/-- What a command's writes to a tensor store: codes by logical linear index, scale codes by block, and where a write is
an overflow (R65): linear indices, or blocks where the format has block scales. -/
structure Plan where
  desc : Desc
  codes : List (Nat × Nat)
  scales : List (Nat × Nat)
  bad : List Nat
  deriving DecidableEq, Repr

/-- One block of a block-scaled tensor written whole (R66 to R70, R627): kept elements are read, and the scale is
chosen from every value. -/
def XCtx.planBlock (x : XCtx) (d : Desc) (ws : List ElemWrite) (p : Plan) (blk : Nat) : Plan × XCtx :=
  let els := d.blockElems blk
  let (vs, x) := els.foldl (fun (acc : List (Val × Rnd) × XCtx) idx =>
    match d.lastWrite ws (linear d.ext idx) with
    | some w => (acc.1 ++ [(w.val, w.rnd)], acc.2)
    | none =>
      let (v, x) := acc.2.readVal d idx
      (acc.1 ++ [(v, Rnd.rne)], x)) ([], x)
  let (sc, codes, ovfs) := writeBlock d.fmt vs
  let x := { x with ovf := x.ovf || ovfs != 0, ovfs := x.ovfs + ovfs }
  let x := if vs.any (fun v => !v.1.isFin) then
      { x with nanBlocks := x.nanBlocks ++ [(((d.address (els.headD [])).1 % 2 ^ 56).toNat, d.field.toNat)] }
    else x
  ({ p with
    codes := p.codes ++ (els.zip codes).map (fun (idx, c) => (linear d.ext idx, c))
    scales := p.scales ++ [(blk, sc)]
    bad := if ovfs = 0 then p.bad else p.bad ++ [blk] }, x)

/-- What a command's writes store, in the command's element order (R332); writes to a tensor that holds no element
are dropped and counted (R331). -/
def XCtx.plan (x : XCtx) (d : Desc) (ws : List ElemWrite) : Plan × XCtx :=
  if d.empty then (⟨d, [], [], []⟩, x.clamped d.va ws.length true true)
  else if d.fmt.scaled then
    let blks := dedup (ws.map (fun w => d.blockOf (delinear d.ext w.lin)))
    blks.foldl (fun (p, x) b => x.planBlock d ws p b) ((⟨d, [], [], []⟩ : Plan), x)
  else
    ws.foldl (fun (p, x) w =>
      let (c, o) := d.fmt.elem.writeUnscaled w.rnd w.val
      ({ p with codes := p.codes ++ [(w.lin, c)], bad := if o then p.bad ++ [w.lin] else p.bad }, { x with ovf := x.ovf || o, ovfs := x.ovfs + b2n o }))
      ((⟨d, [], [], []⟩ : Plan), x)

/-- The share of a plan that some of its writes have: their elements, with the whole of every block they touch. -/
def Plan.cut (p : Plan) (lins : List Nat) : Plan :=
  if p.desc.fmt.scaled then
    let blk (l : Nat) : Nat := p.desc.blockOf (delinear p.desc.ext l)
    let blks := dedup (lins.map blk)
    { p with
      codes := p.codes.filter (fun c => blks.contains (blk c.1))
      scales := p.scales.filter (fun c => blks.contains c.1)
      bad := p.bad.filter blks.contains }
  else { p with codes := p.codes.filter (fun c => lins.contains c.1), bad := p.bad.filter lins.contains }

/-- Stores what a plan names. -/
def XCtx.put (x : XCtx) (p : Plan) : XCtx :=
  let x := p.codes.foldl (fun x (l, c) => x.writeCode p.desc (delinear p.desc.ext l) c) x
  p.scales.foldl (fun x (b, c) => x.wr p.desc.pinned (p.desc.scaleBase + b) [BitVec.ofNat 8 c]) x

/-- Applies a read to each of a list, left to right. -/
def XCtx.collect {α β : Type} (x : XCtx) (f : XCtx → α → β × XCtx) : List α → List β × XCtx
  | [] => ([], x)
  | a :: l =>
    let (b, x) := f x a
    let (bs, x) := x.collect f l
    (b :: bs, x)

/-- Destination elements of a command that met a fault become unspecified (R342): codes, and scales of their
blocks. -/
def XCtx.scramble (x : XCtx) (p : Plan) : XCtx :=
  let (cs, x) := x.collect (fun x (l, _) =>
    let (w, s) := x.s.fresh
    ((l, w.toNat % 2 ^ p.desc.fmt.elem.bits), { x with s := s })) p.codes
  let (sc, x) := x.collect (fun x (b, _) =>
    let (w, s) := x.s.fresh
    ((b, w.toNat % 256), { x with s := s })) p.scales
  x.put ⟨p.desc, cs, sc, []⟩

/-- A command's writes to a tensor. -/
def XCtx.writeElems (x : XCtx) (d : Desc) (ws : List ElemWrite) : XCtx :=
  let (p, x) := x.plan d ws
  x.put p

/-- A write at a matrix position: clamped and counted (R329, R330). -/
def Desc.atRC (d : Desc) (row col : Int) : Nat × Bool :=
  if d.empty then (0, false)
  else
    let (idx, oob) := d.clampRC row col
    (linear d.ext idx, oob)

/-- A write at a linear position: clamped and counted. -/
def Desc.atLin (d : Desc) (p : Int) : Nat × Bool :=
  if d.empty then (0, false)
  else
    let q := clampIx d.elems p
    (q, decide ((q : Int) ≠ p))

/-! Window records (07_sliding_windows.md). -/

/-- One DIMi field (R214). -/
def parseDim (bs : List Byte) (off : Nat) : WinDim where
  ksize := recNat bs off 1
  stride := recNat bs (off + 1) 1
  dil := recNat bs (off + 2) 1
  idil := recNat bs (off + 3) 1
  padLo := recInt bs (off + 4) 2
  padHi := recInt bs (off + 6) 2

/-- A dimension that is not windowed. -/
def WinDim.unit : WinDim := ⟨1, 1, 1, 1, 0, 0⟩

/-- Virtual input length of a dimension (R216). -/
def WinDim.virt (w : WinDim) (h : Nat) : Int := ((h : Int) - 1) * w.idil + 1

/-- Output length O_i of a dimension (R216), the mathematical floor. -/
def WinDim.out (w : WinDim) (h : Nat) : Int :=
  (w.virt h + w.padLo + w.padHi - w.dil * ((w.ksize : Int) - 1) - 1) / w.stride + 1

/-- Extents of the input: channels, H_0, H_1 (1 where there is one spatial dimension), batch. -/
def WinRec.chans (r : WinRec) : Nat := r.input.ext.headD 0
def WinRec.h0 (r : WinRec) : Nat := (r.input.ext[1]?).getD 0
def WinRec.h1 (r : WinRec) : Nat := if r.sdims = 1 then 1 else (r.input.ext[2]?).getD 0
def WinRec.batch (r : WinRec) : Nat := (r.input.ext[r.sdims + 1]?).getD 0
def WinRec.o0 (r : WinRec) : Int := r.dim0.out r.h0
def WinRec.o1 (r : WinRec) : Int := if r.sdims = 1 then 1 else r.dim1.out r.h1

/-- K_w = C·KSIZE_0·KSIZE_1 (R274). -/
def WinRec.kw (r : WinRec) : Nat := r.chans * r.dim0.ksize * r.dim1.ksize

/-- Output positions (R216); none for an empty output. -/
def WinRec.positions (r : WinRec) : Nat :=
  if r.o0 ≤ 0 ∨ r.o1 ≤ 0 then 0 else (r.o0 * r.o1).toNat * r.batch

/-- The lower spatial dimension whose output length is not positive, and that length (R221). -/
def WinRec.emptyDim (r : WinRec) : Option (Nat × Int) :=
  if r.o0 ≤ 0 then some (0, r.o0) else if r.o1 ≤ 0 then some (1, r.o1) else none

/-- Positions the command covers (R214). -/
def WinRec.count (r : WinRec) : Nat := if r.mcount = 0 then r.positions - r.m0 else r.mcount

/-- Whether the record's own fields break R215 (the reduction length is checked by the command). -/
def winFieldsBad (bs : List Byte) : Bool :=
  let shape := recNat bs 0 1
  let sd := shape % 4
  let dimBad (o : Nat) : Bool :=
    recNat bs o 1 == 0 || recNat bs (o + 1) 1 == 0 || recNat bs (o + 2) 1 == 0 || recNat bs (o + 3) 1 == 0
      || decide (16 < recNat bs (o + 3) 1)
  decide (shape / 16 ≠ 0) || decide (sd = 0 ∨ sd = 3) || !recZero bs 1 1 || !recZero bs 4 4 || !recZero bs 48 16
    || !recZero bs 31 1 || dimBad 8 || (if sd = 1 then !recZero bs 16 8 else dimBad 16)

/-- How reading a window record ends: R215's refusal has cause 0x01 of event 0x1001. -/
inductive WinRead where
  | ok (r : WinRec)
  | refused
  | bad (b : Bad)
  | lost
  deriving Repr

/-- Reads a window record and the input descriptor it names (R213 to R215). The input must have STRIDE[0] = 1
(R335). `raw` as for a descriptor. A record whose address is not a multiple of 64 is refused as a record with bad fields is
(DESIGN CHOICE, log entry 102). -/
def XCtx.readWindow (x : XCtx) (va : Nat) (raw : Bool := false) : WinRead × XCtx :=
  let (bs, x) := if raw then x.rd false va 64 else x.rdRecord va 64
  if x.fault.isSome ∨ x.badRecord then (.lost, x)
  else if va % 64 ≠ 0 ∨ winFieldsBad bs then (.refused, x)
  else
    let (r, x) := x.readDesc (recNat bs 24 8) ⟨true, false⟩ raw
    match r with
    | .lost => (.lost, x)
    | .bad b => (.bad b, x)
    | .ok d =>
      let sd := recNat bs 0 1 % 4
      let w : WinRec := {
        sdims := sd
        walk := recNat bs 0 1 / 4 % 2 == 1
        keep := recNat bs 0 1 / 8 % 2 == 1
        stripe := recNat bs 2 2
        dim0 := parseDim bs 8
        dim1 := if sd = 1 then WinDim.unit else parseDim bs 16
        input := d
        m0 := recNat bs 32 8
        mcount := recNat bs 40 8 }
      if d.ext.length ≠ sd + 2 then (.refused, x)
      else if d.border ≠ 0 ∧ (1 < w.dim0.idil ∨ 1 < w.dim1.idil) then (.refused, x)
      else if w.emptyDim.isNone ∧ (w.positions < w.m0 + w.mcount ∨ w.positions < w.m0) then (.refused, x)
      else (.ok w, x)

/-- What a tap along one dimension reads (R218, R219): an inserted zero or a ZERO border tap (`none`), or an
input index. -/
def WinDim.tap (w : WinDim) (border h : Nat) (o t : Nat) : Option Nat :=
  let p : Int := (o : Int) * w.stride + (t : Int) * w.dil - w.padLo
  if p % w.idil ≠ 0 then none
  else
    let q := p / w.idil
    if 0 ≤ q ∧ q < h then some q.toNat
    else
      match border with
      | 1 => some (clampIx h q)
      | 2 =>
        if h = 1 then some 0
        else
          let r := (q % (2 * (h : Int) - 2)).toNat
          some (if r < h then r else 2 * h - 2 - r)
      | _ => none

/-- The input element that element `k` of output position `m` reads (R217 to R219), none for a zero the device
supplies. -/
def WinRec.tapIdx (r : WinRec) (m k : Nat) : Option (List Nat) :=
  let c := k % r.chans
  let t0 := k / r.chans % r.dim0.ksize
  let t1 := k / r.chans / r.dim0.ksize
  let o0 := m % r.o0.toNat
  let o1 := m / r.o0.toNat % r.o1.toNat
  let b := m / r.o0.toNat / r.o1.toNat
  match r.dim0.tap r.input.border r.h0 o0 t0, r.dim1.tap r.input.border r.h1 o1 t1 with
  | some i, some j => some (if r.sdims = 1 then [c, i, b] else [c, i, j, b])
  | _, _ => none

/-- The value of element `k` of output position `m` (R217 to R220). Where the input holds no element every tap lies in the
border, which is not counted (R220). -/
def XCtx.readTap (x : XCtx) (r : WinRec) (m k : Nat) : Val × XCtx :=
  match r.tapIdx m k with
  | some idx => if r.input.empty then (vZero false, x) else x.readVal r.input idx
  | none => (vZero false, x)

/-! Elements with their codes, for operands that a pan holds and signs (R95, R508). -/

/-- The cell that reads as +0 with a scale of one (R331). -/
def Fmt.zeroCell (f : Fmt) : Cell := (0, if f.e4m3Scale then 0x38 else 127)

/-- The value of a cell (R54, R60). -/
def Fmt.cellVal (f : Fmt) (c : Cell) : Val := if f.scaled then f.scaledVal c.2 c.1 else f.decode c.1

/-- The codes of the element at clamped indices. -/
def XCtx.readCell (x : XCtx) (d : Desc) (idx : List Nat) : Cell × XCtx :=
  let (c, bad, x) := x.readCode d idx
  let raw : Nat := if bad ∧ poisonNan d.fmt.elem then d.fmt.elem.nanCode else c
  if d.fmt.scaled then
    let (sc, x) := x.readScale d (d.blockOf idx)
    ((raw, sc), x)
  else ((raw, 0), x)

/-- Reads bytes at an address that may lie outside the address space. -/
def XCtx.rdAt (x : XCtx) (pinned : Bool) (a : Int) (n : Nat) : List Byte × XCtx :=
  if a < 0 then (List.replicate n 0, (x.xlate .read pinned a).2) else x.rd pinned a.toNat n

/-- Stores bytes at an address that may lie outside the address space. -/
def XCtx.wrAt (x : XCtx) (pinned : Bool) (a : Int) (bs : List Byte) : XCtx :=
  if a < 0 then (x.xlate .write pinned a).2 else x.wr pinned a.toNat bs

/-- The codes at a matrix position, counted when clamped. -/
def XCtx.cellRC (x : XCtx) (d : Desc) (row col : Int) : Cell × XCtx :=
  if d.empty then (d.fmt.zeroCell, x.clamped d.va 1 false true)
  else
    let (idx, oob) := d.clampRC row col
    x.clamped d.va (b2n oob) false false |>.readCell d idx

/-- The codes of element `k` of output position `m`, as `readTap` reads them. -/
def XCtx.cellTap (x : XCtx) (r : WinRec) (m k : Nat) : Cell × XCtx :=
  match r.tapIdx m k with
  | some idx => if r.input.empty then (r.input.fmt.zeroCell, x) else x.readCell r.input idx
  | none => (r.input.fmt.zeroCell, x)

/-! Stripes of a window command (R223 to R228). The stripe dimension is the last windowed one. -/

def WinRec.sDim (r : WinRec) : WinDim := if r.sdims = 1 then r.dim0 else r.dim1
def WinRec.sExt (r : WinRec) : Nat := if r.sdims = 1 then r.h0 else r.h1
def WinRec.sOut (r : WinRec) : Nat := (if r.sdims = 1 then r.o0 else r.o1).toNat

/-- Full extent of the other spatial dimension, which a stripe holds whole. -/
def WinRec.sOther (r : WinRec) : Nat := if r.sdims = 1 then 1 else r.h0

/-- Bytes of one input row along the stripe dimension: its elements and its block scales (R225). -/
def WinRec.rowBytes (r : WinRec) : Nat :=
  let n := r.chans * r.sOther
  let f := r.input.fmt
  let blocks (k : Nat) : Nat := (k + f.blk - 1) / f.blk
  let scales := if !f.scaled then 0
    else if r.input.scaleDim = 0 then blocks r.chans * r.sOther
    else if r.sdims = 2 ∧ r.input.scaleDim = 1 then r.chans * blocks r.h0
    else n
  (n * f.elem.bits + 7) / 8 + scales

/-- Rows that the taps of output `o` add to a stripe that begins at output 0 (R224). Outputs o − DIL/g and o share a tap
when the tap numbers differ by STRIDE/g, g being the greatest common divisor of STRIDE and DIL; a tap on an inserted zero
reads no row. -/
def WinDim.newRows (w : WinDim) (o : Nat) : Nat :=
  let g := Nat.gcd w.stride w.dil
  let first := if o < w.dil / g then 0 else w.ksize - min w.ksize (w.stride / g)
  ((List.range w.ksize).filter (fun t =>
    decide (first ≤ t) && decide ((((o * w.stride + t * w.dil : Nat) : Int) - w.padLo) % w.idil = 0))).length

/-- One half of the stripe buffer (R223). -/
def stripeHalf : Nat := 4 * 2 ^ 20

/-- The outputs from `o` on, `n` at most, whose rows fit one half beside the rows there. -/
def WinRec.fit (r : WinRec) : Nat → Nat → Nat → Nat
  | 0, o, _ => o
  | n + 1, o, rows =>
    let rows := rows + r.sDim.newRows o
    if stripeHalf < rows * r.rowBytes then o else r.fit n (o + 1) rows

/-- S_auto (R225); 0 selects direct mode (R226). The rows of a stripe are counted as R225's example counts them, those
that fall in the border with the rest. -/
def WinRec.stripeAuto (r : WinRec) : Nat := r.fit r.sOut 0 0

/-- The stripe height in use (R225). -/
def WinRec.height (r : WinRec) : Nat := if r.stripe = 0 then r.stripeAuto else min r.stripe r.stripeAuto

/-- Image and output row along the stripe dimension of an output position (R217). -/
def WinRec.place (r : WinRec) (m : Nat) : Nat × Nat :=
  if r.sdims = 1 then (m / r.o0.toNat, m % r.o0.toNat) else (m / r.o0.toNat / r.o1.toNat, m / r.o0.toNat % r.o1.toNat)

/-- The stripes of a command that begins a sequence: they start at the output row that holds M0 (R225). None in direct mode,
and none for an empty output. -/
def WinRec.plan (r : WinRec) : Option StripePlan :=
  if r.emptyDim.isSome ∨ r.height = 0 then none
  else some ⟨r.height, (r.place r.m0).1, (r.place r.m0).2⟩

/-- First output row of the stripe that holds an output row: each image starts a new stripe (R225). -/
def StripePlan.startOf (p : StripePlan) (image row : Nat) : Nat :=
  if image = p.image ∧ p.row ≤ row then p.row + (row - p.row) / p.height * p.height else row / p.height * p.height

/-- Input rows that a stripe fetches: those that some tap of its outputs reads, border rows under CLAMP and REFLECT among
them; the last stripe of an image is cut (R224, R225). -/
def WinRec.stripeRows (r : WinRec) (p : StripePlan) (start : Nat) : List Nat :=
  let outs := (List.range (min p.height (r.sOut - start))).map (start + ·)
  dedup (outs.flatMap (fun o => (List.range r.sDim.ksize).filterMap (fun t => r.sDim.tap r.input.border r.sExt o t)))

/-- The element of an input row: channel, the other spatial index, the row, the image. -/
def WinRec.elemAt (r : WinRec) (c other row image : Nat) : List Nat :=
  if r.sdims = 1 then [c, row, image] else [c, other, row, image]

/-- Fetches a stripe: its rows whole, across all channels and the other dimension (R224). The buffer holds two (R223). -/
def XCtx.fillStripe (x : XCtx) (r : WinRec) (p : StripePlan) (image start : Nat) : XCtx :=
  let (rows, x) := (r.stripeRows p start).foldl (fun (acc : List (Nat × List Cell) × XCtx) j =>
    let els := (List.range r.sOther).flatMap (fun i => (List.range r.chans).map (fun c => r.elemAt c i j image))
    let (l, x) := els.foldl (fun (a : List Cell × XCtx) idx =>
      let (c, x) := a.2.readCell r.input idx
      (a.1 ++ [c], x)) ([], acc.2)
    (acc.1 ++ [(j, l)], x)) ([], x)
  { x with stripes := (x.stripes ++ [(⟨image, start, rows⟩ : Stripe)]).drop (x.stripes.length + 1 - 2) }

/-- The codes of element `k` of output position `m` as a pan reads them: from its stripe, filled where it is not held, or, in
direct mode, one by one (R224, R226, R227). -/
def XCtx.winCell (x : XCtx) (r : WinRec) (m k : Nat) : Cell × XCtx :=
  match x.stripe with
  | none => x.cellTap r m k
  | some p =>
    if r.input.empty then x.cellTap r m k
    else
      let (b, o) := r.place m
      let st := p.startOf b o
      let here (z : Stripe) : Bool := z.image == b && z.start == st
      let x := if x.stripes.any here then x else x.fillStripe r p b st
      match r.tapIdx m k with
      | none => (r.input.fmt.zeroCell, x)
      | some idx =>
        let row := ((x.stripes.find? here).bind (fun z => assoc ((idx[r.sdims]?).getD 0) z.rows)).getD []
        let other := if r.sdims = 1 then 0 else (idx[1]?).getD 0
        ((row[other * r.chans + idx.headD 0]?).getD r.input.fmt.zeroCell, x)

/-! Pressed blocks (R230 to R234). -/

/-- Code width v of a pressed block for its source and ratio (R230). -/
def pressWidth (e : Elem) (half : Bool) : Nat :=
  match e with
  | .fp32 => if half then 15 else 19
  | _ => if half then 7 else 9

/-- Bytes of a pressed block. -/
def pressBytes (e : Elem) (half : Bool) : Nat := 16 * (pressWidth e half + 1)

/-- e_min of R231. -/
def pressEmin (e : Elem) : Int :=
  match e with
  | .fp16 => -14
  | _ => -126

/-- The exponent of a sub-block, none when it is all zero (R231). -/
def subExp (emin : Int) (vs : List Val) : Option Int :=
  match amaxOf vs with
  | .fin _ n d e => if n = 0 then none else some (max (magLog2 n d e) emin)
  | _ => none

/-- The largest of optional exponents. -/
def maxExp (es : List (Option Int)) : Option Int :=
  es.foldl (fun a e => match a, e with
    | none, e => e
    | a, none => a
    | some a, some e => some (max a e)) none

/-- Presses 128 values (R231): the block as a number, and whether it is a NaN block. -/
def pressBlock (vs : List Val) (v : Nat) (emin : Int) : Nat × Bool :=
  if vs.any (fun a => !a.isFin) then (0xFF, true)
  else
    let subs := chunks 4 vs.length vs
    let es := subs.map (subExp emin)
    match maxExp es with
    | none =>
      ((vs.zipIdx.map (fun (a, i) => b2n a.sign * 2 ^ (128 + v * i + v - 1))).foldl (· + ·) 0, false)
    | some top =>
      let shifts := es.map (fun e => match e with
        | none => 7
        | some e => min (top - e).toNat 7)
      let head := (shifts.zipIdx.map (fun (h, j) => h * 2 ^ (8 + 3 * j))).foldl (· + ·) (top + 127).toNat
      let code (a : Val) (i : Nat) : Nat :=
        let sh : Int := ((shifts[i / 4]?).getD 0 : Nat)
        let q := ((a.abs.div (vPow2 (top - sh - v + 2))).roundInt).toNat
        (b2n a.sign * 2 ^ (v - 1) + min q (2 ^ (v - 1) - 1)) * 2 ^ (128 + v * i)
      ((vs.zipIdx.map (fun (a, i) => code a i)).foldl (· + ·) head, false)

/-- Expands value `i` of a pressed block (R232). -/
def expandVal (blk v i : Nat) : Val :=
  let xc := blk % 256
  let c := blk / 2 ^ (128 + v * i) % 2 ^ v
  let neg := c / 2 ^ (v - 1) % 2 == 1
  let q := c % 2 ^ (v - 1)
  if xc = 0 then vZero neg
  else if xc = 255 then .nan
  else
    let sh := blk / 2 ^ (8 + 3 * (i / 4)) % 8
    .fin neg q 1 ((xc : Int) - 127 - sh - v + 2)

end Sys2Proof.Machine
end

