-- ==== Sys2Proof/Machine/CoreOps.lean ====
section
/-! DEFINITION. What the meanings of core commands share: when a core can issue, how an instruction retires, precise
traps and trap entry, the scoreboard, waits and their end, staged blocks, and how units answer a core. -/

namespace Sys2Proof.Machine

/-! Traps (R255 to R257). -/

/-- The counters of a core lie in the block of its physical index. -/
def coreCtr (c : CoreIx) (off : Nat) : Nat := coreBase (c.val / 16) (c.val % 16) + off

/-- A word with bits [55:3] only, as CORE_PC, TRAP_VEC and TRAP_EPC hold addresses. -/
def pcBits (v : BitVec 64) : BitVec 64 := v &&& 0x00FFFFFFFFFFFFF8

/-- A due trap (R257): the trap registers are written; with no handler, or for a precise trap inside one, the core
stops with event 0x1110 or 0x1111; otherwise the handler is entered. -/
def State.enterTrap (s : State) (c : CoreIx) (cause code : Nat) (info epc : BitVec 64) (precise : Bool) : State :=
  let k := s.core[c]
  let k' : CoreSt := { k with
    trapEpc := pcBits epc
    trapCause := BitVec.ofNat 64 (code * 65536 + cause)
    trapInfo := info
    stall := none
    wait := none }
  let stop (ev : Nat) : State :=
    (s.onCore c (fun _ => { k' with mode := .stopped })).raise (s.coreSrc c.val) ev
      (pack [(cause, 0), (c.val, 8), (bitsOf epc 50 3, 16)])
  if precise ∧ k.trapActive then stop 0x1111
  else if k.trapVec = 0 then stop 0x1110
  else (s.onCore c (fun _ => { k' with trapActive := true, pc := k.trapVec })).count (coreCtr c 0x430) 1

/-- A precise trap at the instruction the core issues: it has no other effect (R255). -/
def State.precise (s : State) (c : CoreIx) (cause : Nat) (info : BitVec 64) : State :=
  s.enterTrap c cause 0 info s.core[c].pc true

/-! Issue. -/

/-- The module has power and is out of reset: it boots or is in service (R608). -/
def State.powered (s : State) : Bool := s.board.phase == .boot || s.board.phase == .run

/-- The compute clocks run: the module has power and is in M0, or enters M2 or M3, whose entry takes power away only as it
completes (R555, R558). -/
def State.clocked (s : State) : Bool := s.powered && (s.fld 0x100000 7 4 == 0 || s.fld 0x100000 7 4 == 4)

/-- Firmware is powered and can write registers: booting or in service, and not in M3 (R554). -/
def State.awake (s : State) : Bool := s.powered && decide (s.fld 0x100000 7 4 ≠ 3)

/-- The compute domains are off: in M2, and until its exit has ended (R557). -/
def State.domainsOff (s : State) : Bool := s.fld 0x100000 7 4 == 2 || s.pwr.leaving == some 2

/-- Whether an access not yet performed will write scalar register `r` (scoreboard). -/
def CoreSt.sBusy (k : CoreSt) (r : RegIx) : Bool :=
  r != 0 && k.acc.any (fun a => match a.op with
    | .ld rd _ _ => rd == r
    | .amo _ _ rd _ _ => rd == r
    | .ctlRd rd _ => rd == r
    | _ => false)

/-- Whether an access not yet performed will write vector register `r`. -/
def CoreSt.vBusy (k : CoreSt) (r : RegIx) : Bool :=
  k.acc.any (fun a => match a.op with
    | .vld vd _ _ _ => vd == r
    | _ => false)

/-- A deferred trap is due at the next instruction boundary (R255, R257). -/
def CoreSt.trapDue (k : CoreSt) : Bool := !k.recs.isEmpty && !k.trapActive

/-- The core is at an instruction boundary and issues the next instruction: RUNNING, neither stalled nor waiting,
no trap due, the PC aligned (R249, R256). -/
def CoreSt.ready (k : CoreSt) : Bool :=
  k.mode == .running && k.stall.isNone && k.wait.isNone && !k.kill && !k.trapDue && k.pc.toNat % 8 == 0

/-- The core issues an instruction that reads or writes the scalar registers `ss` and vector registers `vs`: none
of them awaits a result (scoreboard). -/
def State.canIssue (s : State) (c : CoreIx) (ss vs : List RegIx) : Bool :=
  s.clocked && s.core[c].ready && ss.all (fun r => !s.core[c].sBusy r) && vs.all (fun r => !s.core[c].vBusy r)

/-- The instruction has issued: counted (CORE_INSN_CNT), the core state changed by `f`, the next word at
`PC + 8` (R260). -/
def State.retire (s : State) (c : CoreIx) (f : CoreSt → CoreSt) : State :=
  (s.onCore c (fun k => { f k with pc := k.pc + 8 })).count (coreCtr c 0x400) 1

/-- An instruction that issues when the core can, and otherwise changes nothing: the core is not at its boundary or
its scoreboard holds the instruction back. -/
def issueWhen (c : CoreIx) (ss vs : List RegIx) (f : State → State) (s : State) : Res :=
  .next (if s.canIssue c ss vs then f s else s)

/-- A register-only instruction. -/
def issueReg (c : CoreIx) (ss vs : List RegIx) (f : CoreSt → CoreSt) (s : State) : Res :=
  issueWhen c ss vs (fun s => s.retire c f) s

/-! Waits (R241, R285 to R288, R307 to R310). -/

/-- Virtual-space accesses of the core issued and not performed. -/
def CoreSt.virtPending (k : CoreSt) : Bool :=
  k.acc.any (fun a => match a.op with
    | .ctlRd .. => false
    | .ctlWr .. => false
    | _ => true)

/-- Commands of a target issued and not completed. -/
def CoreSt.outOf (k : CoreSt) : Target → Nat
  | .pan => k.outPan
  | .slu => k.outSlu
  | .brn => k.outBrn
  | .xtl => k.outXtl

/-- Whether every unit command of the core has completed. -/
def CoreSt.unitsDone (k : CoreSt) : Bool := k.outPan == 0 && k.outSlu == 0 && k.outBrn == 0 && k.outXtl == 0

/-- Whether a wait's condition holds; BAR is settled by its cluster. -/
def CoreSt.waitDone (k : CoreSt) (tide : BitVec 64) : WaitKind → Bool
  | .fenceL => true
  | .fenceS => !k.virtPending
  | .fenceA => !k.virtPending && k.unitsDone
  | .fenceUQ t => k.outOf t == 0
  | .fenceUT j => k.tok[j].count == 0
  | .tokenWait j _ => k.tok[j].count == 0
  | .bar _ => false
  | .tide t _ => decide (t.toNat ≤ tide.toNat)
  | .halt => !k.virtPending && k.unitsDone

/-- A wait that ends: the destination is written and the next word issues. A HALT halts the core, unless a deferred
trap is due, which is taken with TRAP_EPC at the HALT. -/
def CoreSt.endWait (k : CoreSt) (tide : BitVec 64) : WaitKind → CoreSt
  | .tokenWait j rd =>
    { k.sput rd (BitVec.ofNat 64 (b2n k.tok[j].err)) with wait := none, pc := k.pc + 8 }
  | .tide _ rd => { k.sput rd tide with wait := none, pc := k.pc + 8 }
  | .halt =>
    if k.trapDue then { k with wait := none }
    else { k with wait := none, pc := k.pc + 8, mode := .halted }
  | _ => { k with wait := none, pc := k.pc + 8 }

/-- Ends the core's wait when its condition holds. -/
def CoreSt.settle (k : CoreSt) (tide : BitVec 64) : CoreSt :=
  match k.wait with
  | none => k
  | some w => if k.waitDone tide w.kind then k.endWait tide w.kind else k

/-- A killed core reaches HALTED once every command it issued has completed (R258); a fenced one stays FENCED. -/
def CoreSt.settleKill (k : CoreSt) : CoreSt :=
  if k.kill && k.unitsDone then
    { k with
      kill := false
      mode := if k.mode = .fenced then .fenced else .halted
      stall := none
      wait := none }
  else k

/-- Ends what a core waits for, where it can end. -/
def State.settle (s : State) (c : CoreIx) : State :=
  s.onCore c (fun k => (k.settle s.tide.num).settleKill)

/-- A barrier completes on every participant together: each core of the granule has arrived with the same id and
its virtual-space accesses are performed (R287, R309). -/
def State.settleBar (s : State) (cl : ClusterIx) (id : Nat) : State :=
  match s.disp[cl].running with
  | none => s
  | some g =>
    let here := (assoc id s.disp[cl].bars).getD []
    if g.cores.all (fun c => here.contains c && !s.core[c].virtPending) then
      let s := g.cores.foldl (fun s c => s.onCore c (fun k => { k with wait := none, pc := k.pc + 8 })) s
      s.onDisp cl (fun d => { d with bars := assocDel id d.bars })
    else s

/-- Settles every barrier of a cluster. -/
def State.settleBars (s : State) (cl : ClusterIx) : State :=
  (s.disp[cl].bars.map (·.1)).foldl (fun s id => s.settleBar cl id) s

/-- The instruction begins a wait; it ends at once when its condition already holds. -/
def State.beginWait (s : State) (c : CoreIx) (w : WaitKind) : State :=
  ((s.onCore c (fun k => { k with wait := some ⟨w, s.tide.num, false⟩ })).count (coreCtr c 0x400) 1).settle c

/-! How units answer a core (R242, R256). -/

/-- A unit completes a command: its token is signalled (R242), and FENCE.U no longer waits for it. -/
def State.finish (s : State) (cmd : UnitCmd) (err : Bool) : State :=
  ((s.sendToken cmd.core cmd.tk err).onCore cmd.core (fun k => k.doneOne cmd.op.target)).settle cmd.core

/-- A unit refuses a command, or completes it with a fault: deferred cause 0x08 with the event's code and payload,
and the token with error status (R242, R255). -/
def State.refuse (s : State) (cmd : UnitCmd) (code : Nat) (payload : BitVec 64) : State :=
  (s.deferTrap cmd.core 8 code payload).finish cmd true

/-- A refusal whose event the unit `u` raises too. -/
def State.refuseRaise (s : State) (u : Src) (cmd : UnitCmd) (b : Bad) : State :=
  (s.raise u b.1 b.2).refuse cmd b.1 b.2

/-! The step overflow flag (R83, R84, R203). -/

/-- The gate slot of a step. -/
def State.gateSlot (s : State) (part : Nat) (step : BitVec 64) : Option GateSlot :=
  s.gate.slots.find? (fun g => g.part = part ∧ g.step = step)

/-- A step given up (R198). -/
def State.givenUp (s : State) (p : Nat) (step : BitVec 64) : Bool :=
  (s.gateSlot p step).isNone && (s.gate.horizon[Fin.ofNat 4 p]).any (fun h => decide (step.toNat ≤ h.toNat))

/-- Whether the step's local status has been sent (R199, R203): a step given up was decided, so its status was sent. -/
def State.stepSent (s : State) (part : Nat) (step : BitVec 64) : Bool :=
  ((s.gateSlot part step).bind (·.localSt)).isSome || s.givenUp part step

/-- An overflow on write of a step by a unit of a cluster: the step's flag is set, with event 0x1101 the first time.
Work of no step has no flag, and work after the step's local status was sent sets nothing (R203). -/
def State.setOverflow (s : State) (part cluster : Nat) (step : BitVec 64) : State :=
  if step = BitVec.allOnes 64 then s
  else if s.stepSent part step then s
  else if s.gate.ovf.contains (part, step) then s
  else
    ({ s with gate := { s.gate with ovf := s.gate.ovf ++ [(part, step)] } } : State).raiseMod 8 0x1101
      (pack [(bitsOf step 47 0, 16), (cluster, 0)]) part

/-- The context of a core's own accesses. -/
def State.coreCtx (s : State) (c : CoreIx) : XCtx :=
  XCtx.start s 0 (s.coreSrc c.val) (some (c.val / 16)) c.val

/-- The end of a core's access: a failed translation is deferred cause 0x05 (R342). -/
def XCtx.closeCore (x : XCtx) (c : CoreIx) : State :=
  let s := x.close
  let s := if x.ovf then s.setOverflow (x.part.getD 0) (c.val / 16) (s.stepOfCore c) else s
  match x.fault with
  | some f => s.deferTrap c 5 0 (BitVec.ofNat 64 f.1)
  | none => s

/-- Free values that the registers and the local memory of a core take. -/
def coreFrees : Nat := 73

/-- The state of a core whose power has returned: every register that R259 leaves unspecified is a free value, and so is
every byte of local memory, which has lost its contents (R173, R555). -/
def coreFresh (base : Nat) (k : CoreSt) : CoreSt :=
  { k with
    sreg := Vector.ofFn (fun (r : Fin 32) => if r = 0 then 0 else Config.freeWord (base + r.val))
    vreg := Vector.ofFn (fun (r : Fin 32) => Config.freeVec (base + 32 + r.val))
    preg := Vector.ofFn (fun (r : Fin 8) => if r = 0 then 0 else (Config.freeVec (base + 64 + r.val)).setWidth 256)
    local_ := Memory.empty.lose 0 (2 ^ 20) (base + 72) }

/-- Every core as its power returns (R259). -/
def State.freshCores (s : State) : State :=
  { s with
    core := Vector.ofFn (fun (c : Fin 128) => coreFresh (s.free + coreFrees * c.val) s.core[c])
    free := s.free + coreFrees * 128 }

end Sys2Proof.Machine
end

