-- ==== Sys2Proof/Machine/BoardOps.lean ====
section
/-! DEFINITION. The alert register and its in-band interrupt (R613). -/

namespace Sys2Proof.Machine

/-- An alert cause arises: its sticky bit sets, and with in-band interrupts enabled a bit that changes to 1 raises
one with the register as its data byte. -/
def State.alert (s : State) (bit : Fin 5) : State :=
  let old := s.board.alert
  let new := old ||| BitVec.ofNat 5 (2 ^ bit.val)
  if new = old then s
  else
    { s with board := { s.board with
        alert := new
        ibi := if s.board.ibiEn then s.board.ibi ++ [new.setWidth 8] else s.board.ibi } }

end Sys2Proof.Machine
end

