-- ==== Sys2Proof/Machine/Enclose.lean ====
section
/-! DEFINITION. Exact bounds of the functions that R117, R118, R120 and R235 name: an interval that holds the real value,
and the FP32 codes that lie within 2 ulp of it. Which of those codes the hardware gives is open (log entry 7). -/

namespace Sys2Proof.Machine

/-- Binary places of an interval's ends. -/
def encP : Nat := 640

/-- The reals from `lo · 2^−640` to `hi · 2^−640`. -/
structure Encl where
  lo : Int
  hi : Int
  deriving DecidableEq, Repr

def floorDiv (a : Int) (d : Nat) : Int := a / (d : Int)
def ceilDiv (a : Int) (d : Nat) : Int := -(-a / (d : Int))

/-- `n / d`. -/
def encFrac (n : Int) (d : Nat) : Encl := ⟨floorDiv (n * 2 ^ encP) d, ceilDiv (n * 2 ^ encP) d⟩

def encInt (n : Int) : Encl := ⟨n * 2 ^ encP, n * 2 ^ encP⟩

/-- A finite value. -/
def encVal : Val → Encl
  | .fin s n d e =>
    let m : Int := if s then -(n : Int) else n
    if 0 ≤ e then encFrac (m * 2 ^ e.toNat) d else encFrac m (d * 2 ^ (-e).toNat)
  | _ => encInt 0

def encAdd (a b : Encl) : Encl := ⟨a.lo + b.lo, a.hi + b.hi⟩
def encNeg (a : Encl) : Encl := ⟨-a.hi, -a.lo⟩
def encSub (a b : Encl) : Encl := encAdd a (encNeg b)

def encMul (a b : Encl) : Encl :=
  let p := a.lo * b.lo
  let q := a.lo * b.hi
  let r := a.hi * b.lo
  let t := a.hi * b.hi
  ⟨floorDiv (min (min p q) (min r t)) (2 ^ encP), ceilDiv (max (max p q) (max r t)) (2 ^ encP)⟩

/-- Division by a positive integer. -/
def encDiv (a : Encl) (d : Nat) : Encl := ⟨floorDiv a.lo d, ceilDiv a.hi d⟩

/-- The reciprocal of an interval of positive numbers. -/
def encInvPos (a : Encl) : Encl :=
  ⟨floorDiv (2 ^ (2 * encP)) a.hi.toNat, ceilDiv (2 ^ (2 * encP)) (max a.lo.toNat 1)⟩

/-- The root of an interval of numbers not below 0. -/
def encSqrt (a : Encl) : Encl :=
  let lo := isqrt (a.lo.toNat * 2 ^ encP)
  let r := isqrt (a.hi.toNat * 2 ^ encP)
  ⟨lo, if r * r = a.hi.toNat * 2 ^ encP then r else r + 1⟩

/-- Room for the tail of a series cut where its terms are below 2^−601. -/
def encSlack : Int := 2 ^ 40

/-- The sum of `weight k t_k` over `fuel` terms, with `t_(k+1) = next k t_k`, and the slack of its tail. -/
def encSum (next weight : Nat → Encl → Encl) : Nat → Nat → Encl → Encl → Encl
  | 0, _, _, acc => ⟨acc.lo - encSlack, acc.hi + encSlack⟩
  | fuel + 1, k, t, acc => encSum next weight fuel (k + 1) (next k t) (encAdd acc (weight k t))

/-- Squares an interval of numbers not below 0, `n` times. -/
def encSquares : Nat → Encl → Encl
  | 0, a => a
  | n + 1, a => encSquares n (encMul a a)

/-- `e^x` for 0 ≤ x < 512: the series at x/1024, squared ten times. -/
def encExpPos (x : Encl) : Encl :=
  let y := encDiv x 1024
  encSquares 10 (encSum (fun k t => encDiv (encMul t y) (k + 1)) (fun _ t => t) 120 0 (encInt 1) (encInt 0))

/-- `e^x`; below −256 it lies between 0 and 2^−300, and from 256 it exceeds 2^300, beyond any FP32 number. -/
def encExp (x : Encl) : Encl :=
  if x.hi < -(2 ^ (encP + 8)) then ⟨0, 2 ^ (encP - 300)⟩
  else if 2 ^ (encP + 8) ≤ x.lo then ⟨2 ^ (encP + 300), 2 ^ (encP + 301)⟩
  else if x.hi < 0 then encInvPos (encExpPos (encNeg x))
  else if x.lo < 0 then ⟨(encInvPos (encExpPos ⟨0, -x.lo⟩)).lo, (encExpPos ⟨0, x.hi⟩).hi⟩
  else encExpPos x

/-- The odd series `Σ t^(2k+1) / (2k+1)` of an interval, with alternating signs where `alt`. -/
def encOdd (alt : Bool) (fuel : Nat) (t : Encl) : Encl :=
  let q := encMul t t
  encSum (fun _ u => if alt then encNeg (encMul u q) else encMul u q) (fun k u => encDiv u (2 * k + 1)) fuel 0 t (encInt 0)

def encLn2 : Encl :=
  let a := encOdd false 200 (encFrac 1 3)
  encAdd a a

/-- Machin's formula: 16 arctan(1/5) − 4 arctan(1/239). -/
def encPi : Encl := encSub (encMul (encInt 16) (encOdd true 140 (encFrac 1 5))) (encMul (encInt 4) (encOdd true 50 (encFrac 1 239)))

/-- The natural logarithm of a positive value. -/
def encLog : Val → Encl
  | .fin _ n d e =>
    let k := n.log2
    let b := encOdd false 200 (encFrac ((n : Int) - (2 ^ k * d : Nat)) (n + 2 ^ k * d))
    encAdd (encMul (encInt (e + k)) encLn2) (encAdd b b)
  | _ => encInt 0

/-- The sine (or cosine) of a reduced argument, |y| < 1. -/
def encSinSmall (y : Encl) : Encl :=
  let q := encMul y y
  encSum (fun k t => encNeg (encDiv (encMul t q) ((2 * k + 2) * (2 * k + 3)))) (fun _ t => t) 70 0 y (encInt 0)

def encCosSmall (y : Encl) : Encl :=
  let q := encMul y y
  encSum (fun k t => encNeg (encDiv (encMul t q) ((2 * k + 1) * (2 * k + 2)))) (fun _ t => t) 70 0 (encInt 1) (encInt 0)

/-- The sine of x + quarter·π/2: x less the nearest multiple of π/2. -/
def encSin (quarter : Nat) (x : Encl) : Encl :=
  let h := encDiv encPi 2
  let q := floorDiv (2 * x.lo + h.lo) (2 * h.lo).toNat
  let y := encSub x (encMul (encInt q) h)
  match (q + quarter) % 4 with
  | 0 => encSinSmall y
  | 1 => encCosSmall y
  | 2 => encNeg (encSinSmall y)
  | _ => encNeg (encCosSmall y)

/-- The logistic function 1/(1 + e^(−x)). -/
def encSigmoid (x : Encl) : Encl :=
  if x.hi < -(2 ^ (encP + 8)) then ⟨0, 2 ^ (encP - 300)⟩ else encInvPos (encAdd (encInt 1) (encExp (encNeg x)))

/-- tanh(x) = 2σ(2x) − 1. -/
def encTanh (x : Encl) : Encl :=
  let a := encSigmoid (encAdd x x)
  encSub (encAdd a a) (encInt 1)

/-- The error function: its series up to 11; beyond it lies within 2^−160 of ±1. -/
def encErf (z : Encl) : Encl :=
  if z.hi < -11 * 2 ^ encP then ⟨-(2 ^ encP), -(2 ^ encP) + 2 ^ (encP - 160)⟩
  else if 11 * 2 ^ encP < z.lo then ⟨2 ^ encP - 2 ^ (encP - 160), 2 ^ encP⟩
  else
    let q := encMul z z
    let a := encSum (fun k t => encNeg (encDiv (encMul t q) (k + 1))) (fun k t => encDiv t (2 * k + 1)) 900 0 z (encInt 0)
    encMul (encAdd a a) (encInvPos (encSqrt encPi))

def encHalf (a : Encl) : Encl := encDiv a 2

/-- Φ(x) = (1 + erf(x/√2))/2. -/
def encPhi (x : Encl) : Encl := encHalf (encAdd (encInt 1) (encErf (encMul x (encInvPos (encSqrt (encInt 2))))))

/-- 2·√(2/π)·(x + 0.044715·x³), so that (1 + tanh)/2 of half of it is the logistic function of it. -/
def encGeluArg (x : Encl) : Encl :=
  let c := encMul (encFrac 44715 1000000) (encMul x (encMul x x))
  encMul (encAdd (encAdd x c) (encAdd x c)) (encSqrt (encMul (encInt 2) (encInvPos encPi)))

/-- Its derivative. -/
def encGeluSlope (x : Encl) : Encl :=
  let c := encMul (encFrac 134145 1000000) (encMul x x)
  let a := encAdd (encInt 1) c
  encMul (encAdd a a) (encSqrt (encMul (encInt 2) (encInvPos encPi)))

/-- Whether |x| exceeds 16. -/
def encFar (x : Encl) : Bool := decide (x.hi < -16 * 2 ^ encP) || decide (16 * 2 ^ encP < x.lo)

/-- What vanishes faster than e^(−x²/2) beyond 16: its magnitude is below 2^−160. -/
def encTail : Encl := ⟨-(2 ^ (encP - 160)), 2 ^ (encP - 160)⟩

/-- x·p for the p that the two forms of GELU tend to: 0 below, x above. -/
def encGelu (x p : Encl) : Encl :=
  if encFar x then encAdd encTail (if x.hi < 0 then encInt 0 else x) else encMul x p

/-- The special function of FN code `fn` (R283) of a finite FP32 value that R283 does not answer otherwise. -/
def encSf (fn : Nat) (v : Val) : Encl :=
  let x := encVal v
  match fn with
  | 0 => encExp x
  | 1 => encExp (if x.hi < -(2 ^ (encP + 10)) || 2 ^ (encP + 10) < x.lo then x else encMul x encLn2)
  | 2 => encLog v
  | 3 =>
    let a := encLog v
    encMul a (encInvPos encLn2)
  | 4 => if v.sign then encNeg (encInvPos (encNeg x)) else encInvPos x
  | 5 => encSqrt x
  | 6 => encInvPos (encSqrt x)
  | 7 => encSin 0 x
  | 8 => encSin 1 x
  | 9 => encTanh x
  | 10 => encSigmoid x
  | _ => encErf x

/-- The forward activation of code `a` (R117) of a finite FP32 value. -/
def encAct (a : Nat) (v : Val) : Encl :=
  let x := encVal v
  match a with
  | 2 => encGelu x (encSigmoid (encGeluArg x))
  | 3 => encGelu x (encPhi x)
  | 4 => encMul x (encSigmoid x)
  | 5 => encSigmoid x
  | _ => encTanh x

/-- The derivative of activation `a` (R118) at a finite FP32 value. -/
def encDeriv (a : Nat) (v : Val) : Encl :=
  let x := encVal v
  let both (u : Encl) : Encl := encMul (encSigmoid u) (encSigmoid (encNeg u))
  let far (e : Encl) : Encl := if encFar x then encAdd encTail (if x.hi < 0 then encInt 0 else encInt 1) else e
  match a with
  | 2 =>
    let u := encGeluArg x
    far (encAdd (encSigmoid u) (encMul (encMul x (encGeluSlope x)) (both u)))
  | 3 =>
    let density := encMul (encExp (encNeg (encHalf (encMul x x)))) (encInvPos (encSqrt (encAdd encPi encPi)))
    far (encAdd (encPhi x) (encMul x density))
  | 4 => encMul (encSigmoid x) (encAdd (encInt 1) (encMul x (encSigmoid (encNeg x))))
  | 5 => both x
  | _ => encMul (encInt 4) (both (encAdd x x))

/-! FP32 codes near an interval. -/

/-- The value of a finite magnitude code, in units of 2^−640. -/
def encMag (c : Nat) : Int :=
  if c / 2 ^ 23 = 0 then (c * 2 ^ (encP - 149) : Nat) else ((2 ^ 23 + c % 2 ^ 23) * 2 ^ (c / 2 ^ 23 + encP - 150) : Nat)

/-- The value of a place in the order of the FP32 numbers: 0, and the codes above and below it. -/
def encPlace (i : Int) : Int := if 0 ≤ i then encMag i.toNat else -(encMag (-i).toNat)

/-- The codes of a place: both zeros for 0. -/
def placeCodes (i : Int) : List Nat :=
  if i = 0 then [0, 2 ^ 31] else if 0 < i then [i.toNat] else [2 ^ 31 + (-i).toNat]

/-- The place of the code that a bound in units of 2^−640 rounds to. -/
def placeOf (v : Int) : Int :=
  let c := (fFP32.ieee (.fin false v.natAbs 1 (-(encP : Int)))).1
  if v < 0 then -(c : Int) else c

/-- The place of 2^128. -/
def topPlace : Int := 0x7F800000

/-- 2 ulp of a magnitude, with ulp as R86 defines it but for FP32. -/
def twoUlp (m : Nat) : Int :=
  let b : Int := if m = 0 then -126 else max ((m.log2 : Int) - encP) (-126)
  2 ^ (b - 22 + encP).toNat

/-- The FP32 codes within 2 ulp of an interval's value; an infinity where the value rounds to it. -/
def nearCodes (e : Encl) : List Nat :=
  let u := twoUlp (max e.lo.natAbs e.hi.natAbs)
  let lo := e.lo - u
  let hi := e.hi + u
  let start := placeOf lo - 1
  let fin := ((List.range 14).map (fun (k : Nat) => start + (k : Int))).flatMap (fun i =>
    if -topPlace < i ∧ i < topPlace ∧ lo ≤ encPlace i ∧ encPlace i ≤ hi then placeCodes i else [])
  fin ++ (if placeOf e.hi = topPlace then [0x7F800000] else []) ++ (if placeOf e.lo = -topPlace then [0xFF800000] else [])

/-- The code among those near an interval's value that a free value picks. -/
def pickNear (free : BitVec 32) (e : Encl) : Nat :=
  let l := nearCodes e
  (l[free.toNat % l.length]?).getD 0

/-- The FP32 code that every point of an interval rounds to, or one near it where they differ. -/
def roundEncl (free : BitVec 32) (e : Encl) : Nat :=
  let code (v : Int) : Nat := (fFP32.ieee (.fin (decide (v < 0)) v.natAbs 1 (-(encP : Int)))).1
  if code e.lo = code e.hi then code e.lo else pickNear free e

end Sys2Proof.Machine
end

