-- ==== Sys2Proof/Machine/Operands.lean ====
section
/-! DEFINITION. The operand forms of R263 to R277: second scalar operands, addresses, vector element types, operand
B, and the registers each form reads (for the scoreboard). -/


namespace Sys2Proof
open Machine

/-! Scalar operands. -/

/-- The second operand of a scalar instruction (R264): the immediate is sign-extended. -/
def SOp.value (k : CoreSt) : SOp → BitVec 64
  | .reg rb => k.sget rb
  | .imm v => v.signExtend 64

/-- Registers the operand reads. -/
def SOp.regs : SOp → List RegIx
  | .reg rb => [rb]
  | .imm _ => []

/-- The shift amount of SLL, SRL and SRA: bits [5:0] (R264). -/
def ShOp.amount (k : CoreSt) : ShOp → Nat
  | .reg rb => (k.sget rb).toNat % 64
  | .imm v => v.toNat

def ShOp.regs : ShOp → List RegIx
  | .reg rb => [rb]
  | .imm _ => []

end Sys2Proof

namespace Sys2Proof.Machine

/-- The address of R270: `s[RA] + IMM` modulo 2^64. -/
def CoreSt.addr (k : CoreSt) (ra : RegIx) (imm : BitVec 32) : BitVec 64 := k.sget ra + imm.signExtend 64

/-- The target of a branch or JAL: `PC + 8·OFF` (R267). -/
def CoreSt.target (k : CoreSt) (off : BitVec 32) : BitVec 64 := k.pc + 8 * off.signExtend 64

end Sys2Proof.Machine

namespace Sys2Proof
open Machine

/-- Bytes of SZ (R270). -/
def MemSz.bytes : MemSz → Nat
  | .b => 1
  | .h => 2
  | .w => 4
  | .d => 8

/-- Bytes of an atomic's operand (R284). -/
def AmoSz.bytes : AmoSz → Nat
  | .w => 4
  | .d => 8
  | .f => 4

end Sys2Proof

namespace Sys2Proof.Machine

/-- A loaded value extended to 64 bits (R270). -/
def extend (sz : MemSz) (sgn : Bool) (v : Nat) : BitVec 64 :=
  if sgn then BitVec.ofInt 64 (codeInt (8 * sz.bytes) v) else BitVec.ofNat 64 v

end Sys2Proof.Machine

namespace Sys2Proof
open Machine

/-! Vector element types (R277). -/

/-- Width in bits. -/
def VTy.width : VTy → Nat
  | .f32 => 32
  | .bf16 => 16
  | .f16 => 16
  | .i32 => 32
  | .i16 => 16
  | .i8 => 8
  | .e4m3 => 8
  | .e5m2 => 8

/-- Lanes per register. -/
def VTy.lanes (t : VTy) : Nat := 2048 / t.width

/-- T's code. -/
def VTy.code : VTy → Nat
  | .f32 => 0
  | .bf16 => 1
  | .f16 => 2
  | .i32 => 3
  | .i16 => 4
  | .i8 => 5
  | .e4m3 => 6
  | .e5m2 => 7

/-- The floating-point layout, none for an integer type. -/
def VTy.layout : VTy → Option FFmt
  | .f32 => some fFP32
  | .bf16 => some fBF16
  | .f16 => some fFP16
  | .e4m3 => some fE4M3
  | .e5m2 => some fE5M2
  | _ => none

def FTy.ty : FTy → VTy
  | .f32 => .f32
  | .bf16 => .bf16
  | .f16 => .f16

def FTy.layout : FTy → FFmt
  | .f32 => fFP32
  | .bf16 => fBF16
  | .f16 => fFP16

def ITy.ty : ITy → VTy
  | .i32 => .i32
  | .i16 => .i16
  | .i8 => .i8

def ATy.ty : ATy → VTy
  | .f t => t.ty
  | .i t => t.ty

/-- Registers operand B reads: scalar and vector. -/
def VB.sregs : VB → List RegIx
  | .vec _ => []
  | .bc sr => [sr]

def VB.vregs : VB → List RegIx
  | .vec vb => [vb]
  | .bc _ => []

/-- Lane `i` of operand B (R277): the vector's element, or s[SR][w−1:0]. -/
def VB.lane (k : CoreSt) (w : Nat) (i : Nat) : VB → Nat
  | .vec vb => laneGet w (k.vget vb) i
  | .bc sr => (k.sget sr).toNat % 2 ^ w

/-- The lanes of a type, in ascending order. -/
def VTy.indices (t : VTy) : List Nat := List.range t.lanes

end Sys2Proof

namespace Sys2Proof.Machine

/-- Writes a lane for each enabled element: a disabled element keeps its previous value (R237). `f i` gives the code
and the flags of lane `i`. -/
def CoreSt.mapLanes (k : CoreSt) (vd : RegIx) (p : PredIx) (t : VTy) (f : Nat → Nat × Flags) : CoreSt :=
  let pr := k.pget p
  let r := t.indices.foldl (fun (acc : BitVec 2048 × Flags) i =>
      if predBit pr i then
        let (c, fl) := f i
        (laneSet t.width acc.1 i c, acc.2.or fl)
      else acc) (k.vget vd, Flags.none)
  (k.vput vd r.1).orFlags r.2

/-- The lanes enabled by a predicate. -/
def CoreSt.enabled (k : CoreSt) (p : PredIx) (t : VTy) : List Nat := t.indices.filter (predBit (k.pget p))

/-- A register with element 0 set and every other bit +0 (R282). -/
def lane0 (c : Nat) : BitVec 2048 := BitVec.ofNat 2048 c

end Sys2Proof.Machine
end

