-- ==== Sys2Proof/Machine/Flags.lean ====
section
/-! DEFINITION. The results and exception flags of one lane (R236, R278 to R283). -/

namespace Sys2Proof.Machine

/-! Floating-point lanes (R278). -/

/-- A signalling NaN of a layout: a NaN whose leading mantissa bit is 0. An operation of IEEE 754 on one is an
invalid operation (DEDUCED, log entry 12). -/
def FFmt.sNan (f : FFmt) (c : Nat) : Bool :=
  f.top == .ieee && (f.decode c).isNan && c / 2 ^ (f.mb - 1) % 2 == 0

/-- Only NV. -/
def Flags.invalid (b : Bool) : Flags := { Flags.none with nv := b }

/-- Rounds an exact result once and adds the flags of the operation itself. -/
def FFmt.done (f : FFmt) (v : Val) (fl : Flags) : Nat × Flags :=
  let (c, g) := f.ieee v
  (c, g.or fl)

/-- An invalid operation: a NaN result of operands none of which is a NaN, or a signalling operand. -/
def FFmt.invalidOf (f : FFmt) (ops : List Nat) (r : Val) : Flags :=
  Flags.invalid (ops.any f.sNan || (r.isNan && !(ops.any (fun c => (f.decode c).isNan))))

def FFmt.addF (f : FFmt) (a b : Nat) : Nat × Flags :=
  let r := (f.decode a).add (f.decode b)
  f.done r (f.invalidOf [a, b] r)

def FFmt.subF (f : FFmt) (a b : Nat) : Nat × Flags :=
  let r := (f.decode a).sub (f.decode b)
  f.done r (f.invalidOf [a, b] r)

def FFmt.mulF (f : FFmt) (a b : Nat) : Nat × Flags :=
  let r := (f.decode a).mul (f.decode b)
  f.done r (f.invalidOf [a, b] r)

/-- `±(a × b) ± c`, rounded once. For 0 × ∞ beside a NaN addend IEEE 754 leaves the flag to the implementation: it
is a free value of Config (log entry 12). -/
def FFmt.fmaF (f : FFmt) (negProd negC : Bool) (a b c : Nat) : Nat × Flags :=
  let p := (f.decode a).mul (f.decode b)
  let p := if negProd then p.neg else p
  let vc := f.decode c
  let r := p.add (if negC then vc.neg else vc)
  let zeroInf := p.isNan && !(f.decode a).isNan && !(f.decode b).isNan
  let fl := if zeroInf && vc.isNan && !f.sNan c then Flags.invalid Config.fmaNanInvalid
    else f.invalidOf [a, b, c] r
  f.done r fl

/-- VMIN, VMAX: NaN if either operand is NaN; −0 below +0 (R278). -/
def FFmt.minMaxF (f : FFmt) (mx : Bool) (a b : Nat) : Nat × Flags :=
  (f.minMax mx a b, Flags.invalid (f.sNan a || f.sNan b))

/-- VABS and VNEG act on the sign bit; a NaN is canonical (R57). -/
def FFmt.absF (f : FFmt) (a : Nat) : Nat × Flags :=
  if (f.decode a).isNan then (f.nan, Flags.none) else (a % 2 ^ (f.eb + f.mb), Flags.none)

def FFmt.negF (f : FFmt) (a : Nat) : Nat × Flags :=
  if (f.decode a).isNan then (f.nan, Flags.none) else (Nat.xor a (2 ^ (f.eb + f.mb)), Flags.none)

/-- VDIV: a finite non-zero dividend over zero is a division by zero. -/
def FFmt.divF (f : FFmt) (a b : Nat) : Nat × Flags :=
  let x := f.decode a
  let y := f.decode b
  let r := x.div y
  let dz := x.isFin && !x.isZero && y.isZero
  f.done r { f.invalidOf [a, b] r with dz := dz }

def FFmt.sqrtF (f : FFmt) (a : Nat) : Nat × Flags :=
  let r := (f.decode a).sqrt
  f.done r (f.invalidOf [a] r)

/-! Integer lanes (R279). -/

def intMin (w : Nat) : Int := -(2 ^ (w - 1))
def intMax (w : Nat) : Int := 2 ^ (w - 1) - 1

/-- The lesser or greater of two codes, signed or unsigned. -/
def intMinMax (w : Nat) (mx sgn : Bool) (a b : Nat) : Nat :=
  let less : Bool := if sgn then decide (codeInt w a < codeInt w b) else decide (a < b)
  if less != mx then a else b

/-- Shifts by the low log2(w) bits of b. -/
def intSll (w a b : Nat) : Nat := a * 2 ^ (b % w) % 2 ^ w
def intSrl (w a b : Nat) : Nat := a / 2 ^ (b % w)
def intSra (w a b : Nat) : Nat := intCode w (codeInt w a / 2 ^ (b % w))

/-- A lane function without flags. -/
def noFlags (c : Nat) : Nat × Flags := (c, Flags.none)

/-! Conversions (R280). -/


end Sys2Proof.Machine

namespace Sys2Proof
open Machine

/-- The value a code of a type means. -/
def VTy.decode (t : VTy) (c : Nat) : Val :=
  match t.layout with
  | some f => f.decode c
  | none => vInt (codeInt t.width c)

end Sys2Proof

namespace Sys2Proof.Machine

/-- One conversion: the destination code and its flags. A saturation sets OF; a NaN or out-of-range input to an
integer destination sets NV; an inexact result sets NX, a tiny one UF (R236, R280). -/
def convert (src dst : VTy) (c : Nat) : Nat × Flags :=
  let v := src.decode c
  let snan := match src.layout with
    | some f => f.sNan c
    | none => false
  match dst.layout with
  | some f =>
    let (code, _) := f.write .rne v
    let (_, fl) := f.ieee v
    (code, { fl with nv := snan })
  | none =>
    let w := dst.width
    match v with
    | .nan => (0, Flags.invalid true)
    | .inf s => (intCode w (if s then intMin w else intMax w), { Flags.invalid true with of := true })
    | .fin s n d e =>
      let i := Val.roundInt (.fin s n d e)
      if i < intMin w ∨ intMax w < i then
        (intCode w (clampInt (intMin w) (intMax w) i), { Flags.invalid true with of := true })
      else (intCode w i, { Flags.none with nx := decide ((magCut n d e 0).2.1 ≠ 0) })

/-! Comparisons (R281). -/


end Sys2Proof.Machine

namespace Sys2Proof
open Machine

/-- A comparison of two codes. Comparisons set no flag (DESIGN CHOICE, log entry 12). -/
def Cmp.holds (k : Cmp) (lt eq un : Bool) : Bool :=
  match k with
  | .eq => !un && eq
  | .ne => un || !eq
  | .lt => !un && lt
  | .le => !un && (lt || eq)
  | .gt => !un && !lt && !eq
  | .ge => !un && !lt

def CmpSel.ty : CmpSel → VTy
  | .f t _ => t.ty
  | .un t => t.ty
  | .i t _ => t.ty
  | .ltu t => t.ty
  | .leu t => t.ty

def CmpSel.holds (s : CmpSel) (a b : Nat) : Bool :=
  let w := s.ty.width
  match s with
  | .f t k =>
    let x := t.layout.decode a
    let y := t.layout.decode b
    k.holds (x.lt y) (x.eq y) (x.isNan || y.isNan)
  | .un t => (t.layout.decode a).isNan || (t.layout.decode b).isNan
  | .i _ k => k.holds (decide (codeInt w a < codeInt w b)) (decide (a = b)) false
  | .ltu _ => decide (a < b)
  | .leu _ => decide (a ≤ b)

end Sys2Proof

namespace Sys2Proof.Machine

/-! Special functions (R235, R283). -/

/-- How a special function answers where R117, R235 or R283 fix the answer: the code and its flags. -/
def sfFixed (fn : Nat) (c : Nat) : Option (Nat × Flags) :=
  let v := d32 c
  let nan := fFP32.nan
  let posInf := fFP32.infCode
  let negInf := posInf + 2 ^ 31
  let one := 0x3F800000
  let dz : Flags := { Flags.none with dz := true }
  let bad : Option (Nat × Flags) := some (nan, Flags.invalid true)
  let clean (c : Nat) : Option (Nat × Flags) := some (c, Flags.none)
  match v with
  | .nan => some (nan, Flags.invalid (fFP32.sNan c))
  | .inf s =>
    match fn with
    | 0 | 1 => clean (if s then 0 else posInf)
    | 2 | 3 => if s then bad else clean posInf
    | 4 => clean (if s then 2 ^ 31 else 0)
    | 5 => if s then bad else clean posInf
    | 6 => if s then bad else clean 0
    | 7 | 8 => bad
    | 9 => clean (if s then one + 2 ^ 31 else one)
    | 10 => clean (if s then 0 else one)
    | _ => clean (if s then one + 2 ^ 31 else one)
  | .fin s n _ _ =>
    match fn with
    | 2 | 3 => if n = 0 then some (negInf, dz) else if s then bad else none
    | 4 => if n = 0 then some (if s then negInf else posInf, dz) else none
    | 5 => if s ∧ n ≠ 0 then bad else none
    | 6 => if n = 0 then some (if s then negInf else posInf, dz) else if s then bad else none
    | _ => none

/-- One lane of a special function: elsewhere a code within 2 ulp of the exact function (R235), which of them being
open (log entry 7). -/
def sfLane (fn : Nat) (c : Nat) : Nat × Flags :=
  match sfFixed fn c with
  | some r => r
  | none => (pickNear (Config.specialFn fn (BitVec.ofNat 32 c)) (encSf fn (d32 c)), Flags.none)

end Sys2Proof.Machine
end

