-- ==== Sys2Proof/Machine/Handle.lean ====
section
/-! DEFINITION. Accesses on their way to their home (R302, R303), and tensor handles: loading, reading, writing,
staged blocks (R238 to R240, R273 to R276, R304). -/

namespace Sys2Proof.Machine

/-! Accesses performed at their home (R302, R313). -/

/-- A virtual-space access or a window access. -/
def AccOp.isCtl : AccOp → Bool
  | .ctlRd .. => true
  | .ctlWr .. => true
  | _ => false

/-- Bytes an access reads or writes. -/
def AccOp.bytes : AccOp → Nat
  | .ld _ sz _ => sz.bytes
  | .st sz _ => sz.bytes
  | .vld .. => 64
  | .vst .. => 64
  | .amo _ sz _ _ _ => sz.bytes
  | _ => 0

/-- What an atomic stores, none when CAS stores nothing (R284). `w` is the operand's width in bits. -/
def amoNew (fn : Fin 5) (sz : AmoSz) (prior b c : Nat) : Option Nat :=
  let w := 8 * sz.bytes
  let b := b % 2 ^ w
  match fn, sz with
  | 0, .f => some (add32 prior b)
  | 0, _ => some ((prior + b) % 2 ^ w)
  | 1, .f => some (fFP32.minMax false prior b)
  | 1, _ => some (if codeInt w prior < codeInt w b then prior else b)
  | 2, .f => some (fFP32.minMax true prior b)
  | 2, _ => some (if codeInt w prior < codeInt w b then b else prior)
  | 3, _ => some b
  | _, _ => if prior = c % 2 ^ w then some b else none

/-- What RD receives of the prior value (R284). -/
def amoResult (sz : AmoSz) (prior : Nat) : BitVec 64 :=
  match sz with
  | .w => BitVec.ofInt 64 (codeInt 32 prior)
  | _ => BitVec.ofNat 64 prior

/-- The bytes of a line merged into a vector register under a byte mask (R272). -/
def lineMerge (v : BitVec 2048) (line : Nat) (mask : BitVec 64) (bs : List Byte) : BitVec 2048 :=
  bs.zipIdx.foldl (fun v (b, i) => if mask.getLsbD i then laneSet 8 v (64 * line + i) b.toNat else v) v

/-- Stores the bytes of a line that a mask enables; a whole line clears its poison (R351). -/
def State.storeMasked (s : State) (pa : Nat) (mask : BitVec 64) (bs : List Byte) : State :=
  if mask = BitVec.allOnes 64 then s.store pa bs
  else bs.zipIdx.foldl (fun s (b, i) => if mask.getLsbD i then s.wrByte (pa + i) b else s) s

/-- Event 0x1302 for a core access that reads a poisoned line (R352). -/
def State.poisonEvent (s : State) (c : CoreIx) (va : Nat) : State :=
  let x := s.coreCtx c
  s.raise x.src 0x1302 (x.poisonPayload va)

/-- The other lines of a VLD that has raised event 0x1302 do not raise it again. -/
def CoreSt.vldSeen (k : CoreSt) (vd : RegIx) : CoreSt :=
  { k with acc := k.acc.map (fun a => match a.op with
      | .vld r l m _ => if r = vd then { a with op := .vld r l m true } else a
      | _ => a) }

/-- Carries out a virtual-space access at its physical address. -/
def State.carryOut (s : State) (c : CoreIx) (a : Access) : State :=
  let n := a.op.bytes
  let bs := s.rdBytes a.pa n
  let bad := s.poisoned a.pa
  match a.op with
  | .ld rd sz sgn =>
    let s := s.onCore c (fun k => k.sput rd (extend sz sgn (leNat bs)))
    if bad then s.poisonEvent c a.va else s
  | .st sz data => s.store a.pa (leBytes sz.bytes data.toNat)
  | .vld vd line mask seen =>
    let s := s.onCore c (fun k => k.vput vd (lineMerge (k.vget vd) line.val mask bs))
    if bad && !seen then (s.poisonEvent c a.va).onCore c (fun k => k.vldSeen vd) else s
  | .vst data mask => s.storeMasked a.pa mask (leBytes 64 data.toNat)
  | .amo fn sz rd b v =>
    let prior := leNat bs
    let s := match amoNew fn sz prior b.toNat v.toNat with
      | some x => s.wrBytes a.pa (leBytes sz.bytes x)
      | none => s
    let s := s.onCore c (fun k => k.sput rd (amoResult sz prior))
    let s := (s.count (cacheBase ((s.homeOf a.pa).getD 0) + 0x430) 1).takeUpdate ((s.homeOf a.pa).getD 0)
    if bad then s.poisonEvent c a.va else s
  | _ => s

/-- A virtual-space access leaves the pending list and is performed at its home, the new one when its line has moved
(R367). -/
def State.performOne (s : State) (c : CoreIx) (i : Nat) (b : Access) : State :=
  let a : Access := { b with pa := s.forward b.pa }
  let s := s.onCore c (fun k => { k with acc := k.acc.eraseIdx i })
  (s.carryOut c a).touch a.pa (c.val / 32) (some (c.val / 16))

/-- Performs the first pending virtual-space access, `n` times. -/
def State.drainGo (c : CoreIx) : Nat → State → State
  | 0, s => s
  | n + 1, s =>
    match s.core[c].acc.zipIdx.find? (fun (a, _) => !a.op.isCtl) with
    | some (a, i) => State.drainGo c n (s.performOne c i a)
    | none => s

/-- Performs every pending virtual-space access of a core in program order, before the tensor address engine acts
for it (R302; log entry 13). -/
def State.drain (s : State) (c : CoreIx) : State := State.drainGo c s.core[c].acc.length s

/-! Handles. -/

/-- The address of the descriptor whose OOB_CNT a handle's clamped accesses count in (R330). -/
def HndSrc.descVa : HndSrc → Nat
  | .weave d => d.va
  | .window w => w.input.va

/-- Values of a staged block in the order stored, kept contents first. -/
def Staged.writes (st : Staged) : List ElemWrite :=
  (st.keep ++ st.vals).map (fun (l, v) => ⟨l, v, .rne⟩)

/-- Writes the staged block (R239, R276). -/
def XCtx.writeStaged (x : XCtx) (d : Desc) (st : Staged) : XCtx := x.writeElems d st.writes

/-- Adds a handle's clamped accesses to OOB_CNT with event 0x1201, where any are held (R330). -/
def State.handleOob (s : State) (c : CoreIx) (h : HndIx) : State :=
  match s.core[c].hnd[h] with
  | none => s
  | some q =>
    if q.oob = 0 then s
    else
      (((s.coreCtx c).addOob ⟨q.src.descVa, q.oob, q.oobWrite, q.oobZero⟩).closeCore c).onCore c (fun k =>
        { k with hnd := k.hnd.set h (some { q with oob := 0, oobWrite := false, oobZero := false }) })

/-- Writes a handle's staged block and adds its clamped accesses to OOB_CNT (R239, R330). -/
def State.flushHandle (s : State) (c : CoreIx) (h : HndIx) : State :=
  match s.core[c].hnd[h] with
  | none => s
  | some q =>
    let s := match q.src, q.staged with
      | .weave d, some st =>
        (((s.coreCtx c).writeStaged d st).closeCore c).onCore c (fun k =>
          { k with hnd := k.hnd.set h (some { q with staged := none }) })
      | _, _ => s
    s.handleOob c h

/-- Writes every staged block of a core (FENCE.S, HALT, BAR). -/
def State.flushHandles (s : State) (c : CoreIx) : State :=
  (List.range 16).foldl (fun s h => s.flushHandle c (Fin.ofNat 16 h)) s

/-- The result of loading a handle: its source, or an event (code, payload) for cause 0x07, or nothing (the fault is
in the context). -/
inductive Loaded where
  | ok (h : HndSrc)
  | refused (b : Bad)
  | lost
  deriving Repr

/-- Reads the source of THL (R238, R273). A window record that R215 refuses has event 0x1001, cause 0x01. -/
def XCtx.loadSrc (x : XCtx) (kind : HndKind) (va : Nat) : Loaded × XCtx :=
  match kind with
  | .weave =>
    match x.readDesc va ⟨false, false⟩ true with
    | (.ok d, x) => (.ok (.weave d), x)
    | (.bad b, x) => (.refused b, x)
    | (.lost, x) => (.lost, x)
  | .window =>
    match x.readWindow va true with
    | (.ok w, x) => (.ok (.window w), x)
    | (.refused, x) => (.refused (0x1001, pack [(1, 0), (x.core, 8)]), x)
    | (.bad b, x) => (.refused b, x)
    | (.lost, x) => (.lost, x)

/-- THL's effect once its address is aligned. -/
def State.loadHandle (s : State) (c : CoreIx) (h : HndIx) (kind : HndKind) (va cursor : BitVec 64) : State :=
  let s := s.drain c
  if 2 ^ 56 ≤ va.toNat then
    let x := s.coreCtx c
    (s.raise x.src 0x1202 (x.faultPayload (low 56 va.toNat, 6))).deferTrap c 5 0 va
  else
    match (s.coreCtx c).loadSrc kind va.toNat with
    | (.ok src, x) =>
      let s := (x.closeCore c).flushHandle c h
      s.onCore c (fun k => { k with hnd := k.hnd.set h (some ⟨src, cursor, none, 0, false, false⟩) })
    | (.refused b, x) => ((x.closeCore c).raise (x.s.coreSrc c.val) b.1 b.2).deferTrap c 7 b.1 b.2
    | (.lost, x) => x.closeCore c

/-- Lane types a handle's format permits to TLD and TST (R275): F32, BF16, I32. -/
def laneAllowed (f : Fmt) (store : Bool) (t : VTy) : Bool :=
  if f.scaled then
    match t with
    | .f32 => true
    | .bf16 => store
    | _ => false
  else
    match f.elem, t with
    | .int8, .i32 => true
    | .int32, .i32 => true
    | .int8, _ => false
    | .int32, _ => false
    | _, .f32 => true
    | .bf16, .bf16 => true
    | .e4m3, .bf16 => true
    | .e5m2, .bf16 => true
    | _, .bf16 => store
    | _, _ => false

/-- The format behind a handle. -/
def HndSrc.fmt : HndSrc → Fmt
  | .weave d => d.fmt
  | .window w => w.input.fmt

/-- The value of a staged element, when its block is staged (R304). -/
def Staged.value (st : Staged) (lin : Nat) : Option Val :=
  ((st.vals.reverse.find? (fun w => w.1 = lin)).orElse (fun _ => st.keep.find? (fun w => w.1 = lin))).map (·.2)

/-- Elements a window handle walks: its rows times K_w (R274). -/
def WinRec.elems (r : WinRec) : Nat := r.count * r.kw

/-- The value at a handle's logical position, counted when clamped (R274, R329). -/
def XCtx.readPos (x : XCtx) (h : Handle) (p : Int) : Val × XCtx :=
  match h.src with
  | .weave d =>
    match h.staged with
    | some st =>
      let (lin, oob) := d.atLin p
      match st.value lin with
      | some v => (v, x.clamped d.va (b2n oob) false false)
      | none => x.readLin d p
    | none => x.readLin d p
  | .window r =>
    if r.elems = 0 then x.emptyRead r.input
    else
      let q := clampIx r.elems p
      let x := x.clamped r.input.va (b2n (decide ((q : Int) ≠ p))) false false
      x.readTap r (r.m0 + q / r.kw) (q % r.kw)

/-- A value widened to a lane of a type: exactly, and an unspecified value where FP32 cannot hold it (log entry 14). -/
def XCtx.widen (x : XCtx) (t : VTy) (v : Val) : Nat × XCtx :=
  match t.layout with
  | none => (intCode 32 v.int, x)
  | some f =>
    let (c, fl) := f.ieee v
    if fl.nx then
      let (w, s) := x.s.fresh
      (w.toNat % 2 ^ t.width, { x with s := s })
    else (c, x)

/-- Moves the clamped accesses of the context to the handle (R330). -/
def XCtx.toHandle (x : XCtx) (q : Handle) : Handle × XCtx :=
  (x.oob.foldl (fun (q : Handle) o =>
      { q with oob := q.oob + o.count, oobWrite := q.oobWrite || o.write, oobZero := q.oobZero || o.zero }) q,
    { x with oob := [] })

/-- A vector of unspecified values. -/
def State.freshVec (s : State) : BitVec 2048 × State :=
  (List.range 32).foldl (fun (acc : BitVec 2048 × State) i =>
    let (w, s) := acc.2.fresh
    (laneSet 64 acc.1 i w.toNat, s)) (0, s)

/-- TLD's effect through a valid handle (R274, R275). -/
def State.handleLoad (s : State) (c : CoreIx) (vd : RegIx) (h : HndIx) (p : PredIx) (t : VTy) (adv : Bool)
    (q : Handle) : State :=
  let k := s.core[c]
  let (v, x) := (k.enabled p t).foldl (fun (acc : BitVec 2048 × XCtx) (i : Nat) =>
      let (val, x) := acc.2.readPos q (q.cursor.toInt + (i : Int))
      let (code, x) := x.widen t val
      (laneSet t.width acc.1 i code, x)) (k.vget vd, s.coreCtx c)
  let (q, x) := x.toHandle q
  let q := if adv then { q with cursor := q.cursor + BitVec.ofNat 64 t.lanes } else q
  let bad := x.fault.isSome
  let s := x.closeCore c
  let (v, s) := if bad then s.freshVec else (v, s)
  s.onCore c (fun k => { k.vput vd v with hnd := k.hnd.set h (some q) })

/-- The lane value a TST stores: exact. -/
def storeVal (t : VTy) (c : Nat) : Val := t.decode c

/-- The block contents when a block is staged (R276). -/
def XCtx.stage (x : XCtx) (d : Desc) (blk : Nat) : Staged × XCtx :=
  let (vs, x) := (d.blockElems blk).foldl (fun (acc : List (Nat × Val) × XCtx) idx =>
    let (v, x) := acc.2.readVal d idx
    (acc.1 ++ [(linear d.ext idx, v)], x)) ([], x)
  (⟨blk, vs, []⟩, x)

/-- Whether every element of a staged block has been stored. -/
def Staged.complete (st : Staged) : Bool := st.keep.all (fun e => st.vals.any (fun v => v.1 = e.1))

/-- One lane stored through a block-scaled handle (R239). -/
def XCtx.stageLane (x : XCtx) (d : Desc) (st : Option Staged) (lin : Nat) (v : Val) : Option Staged × XCtx :=
  let blk := d.blockOf (delinear d.ext lin)
  let (st, x) : Staged × XCtx :=
    match st with
    | some a => if a.block = blk then (a, x) else (x.writeStaged d a).stage d blk
    | none => x.stage d blk
  let st := { st with vals := st.vals ++ [(lin, v)] }
  if st.complete then (none, x.writeStaged d st) else (some st, x)

/-- A store that meets a fault writes nothing (R255): what it met is kept, what it wrote is not. -/
def XCtx.orNothing (x : XCtx) (y : XCtx) : XCtx :=
  if y.fault.isSome then { x with fault := y.fault, poison := y.poison, lines := y.lines } else y

/-- TST's effect through a valid weave handle (R239, R274 to R276). -/
def State.handleStore (s : State) (c : CoreIx) (vd : RegIx) (h : HndIx) (p : PredIx) (t : VTy) (adv : Bool)
    (q : Handle) (d : Desc) : State :=
  let k := s.core[c]
  let lane (i : Nat) : Val := storeVal t (laneGet t.width (k.vget vd) i)
  let at_ (i : Nat) : Nat × Bool := d.atLin (q.cursor.toInt + i)
  let is := k.enabled p t
  let x := s.coreCtx c
  let cursor := if adv then q.cursor + BitVec.ofNat 64 t.lanes else q.cursor
  let (staged, x) : Option Staged × XCtx :=
    if d.empty then (q.staged, x.clamped d.va is.length true true)
    else
      let x := is.foldl (fun x i => x.clamped d.va (b2n (at_ i).2) true false) x
      if d.fmt.scaled then
        let (st, y) := is.foldl (fun (acc : Option Staged × XCtx) i =>
          acc.2.stageLane d acc.1 (at_ i).1 (lane i)) (q.staged, x)
        match st with
        | some a =>
          let n := cursor.toInt
          let inside : Bool :=
            decide (0 ≤ n) && decide (n < d.elems) && d.blockOf (delinear d.ext n.toNat) == a.block
          if adv && !inside then (none, x.orNothing (y.writeStaged d a)) else (some a, x.orNothing y)
        | none => (none, x.orNothing y)
      else (none, x.orNothing (x.writeElems d (is.map (fun i => ⟨(at_ i).1, lane i, .rne⟩))))
  let (q', x) := x.toHandle q
  let wrote := d.fmt.scaled && !is.isEmpty && !d.empty &&
    (staged.isNone || (q.staged.isSome && decide (q.staged.map (·.block) ≠ staged.map (·.block))))
  let s := (x.closeCore c).onCore c (fun k =>
    { k with hnd := k.hnd.set h (some { q' with cursor := cursor, staged := staged }) })
  -- R330: the handle's count is added where a staged block is written
  if wrote then s.handleOob c h else s

end Sys2Proof.Machine
end

