-- ==== Sys2Proof/Machine/CoreRegs.lean ====
section
/-! DEFINITION. The core registers as reads and writes see them (08_cores.md, Core registers): each is held in the
core's state, and the window and the CSR instructions go through here. -/

namespace Sys2Proof.Machine

/-- CORE_STATUS.STATE. -/
def CoreSt.stateCode (k : CoreSt) : Nat :=
  match k.mode with
  | .halted => 0
  | .stopped => 4
  | .fenced => 5
  | .running => if k.stall.isSome then 2 else if k.wait.isSome then 3 else 1

/-- The logical cluster of a physical one: twice its die's logical number plus its place in the die (R369). -/
def State.logicalCluster (s : State) (cl : Nat) : Nat :=
  match s.stk.lmap[Fin.ofNat 4 (cl / 2)] with
  | some (_, l, _) => 2 * l + cl % 2
  | none => 0

/-- CORE_ID. -/
def State.coreId (s : State) (c : CoreIx) : BitVec 64 :=
  pack [(s.partNum (c.val / 32), 32), (s.logicalCluster (c.val / 16), 24), (c.val / 16, 16), (c.val, 8),
    (s.logicalOf c, 0)]

/-- TOKEN_VIEW. -/
def CoreSt.tokenView (k : CoreSt) : BitVec 64 :=
  pack ((List.range 8).map (fun j => (k.tok[Fin.ofNat 8 j].count % 64 + 64 * b2n k.tok[Fin.ofNat 8 j].err, 8 * j)))

/-- A core register read at its offset in the core block; none where the chapter lists no register or counter.
The fills of the vector, special-function and tensor-address buffers are those of `coreFills`. -/
def State.coreRead (s : State) (c : CoreIx) (off : Nat) : Option (BitVec 64) :=
  let k := s.core[c]
  match off with
  | 0x00 => some (pack [(k.recs.length, 8), (b2n k.lost, 5), (b2n k.trapActive, 4), (k.stateCode, 0)])
  | 0x08 => some (pack [(b2n k.kill, 1)])
  | 0x10 => some (pcBits k.pc)
  | 0x18 => some k.trapVec
  | 0x20 => some k.trapEpc
  | 0x28 => some k.trapCause
  | 0x30 => some k.trapInfo
  | 0x38 => some (k.fstat.setWidth 64)
  | 0x40 => some (s.coreId c)
  | 0x48 => some (pack [(k.bufXtl.length, 24), (k.bufBrn.length, 20), (k.bufSlu.length, 16), (k.bufPan.length, 12)])
  | 0x50 => some k.tokenView
  | _ =>
    if off % 8 ≠ 0 then none
    else if isCtr off ctrsOf_core then some (s.ctrAt (coreCtr c off))
    else if 8 ≤ off ∧ isCtr (off - 8) ctrsOf_core then some (mapGet zero64 s.shadow (coreCtr c (off - 8)))
    else none

/-! Counters of what the model does not hold (log entry 60). Each is held as it was last read, 0 after reset, and goes on by
a free amount before it is read again, so that it is never cleared and never goes back (R48). -/

/-- An open counter goes on by a free amount; nothing counts before the module is in service. -/
def State.openStep (s : State) (key : Nat) : State :=
  if s.board.phase = .run then
    let (x, s) := s.fresh
    let v := s.ctrAt key
    { s with ctr := mapPut zero64 key (v + BitVec.ofNat 64 (x.toNat % (2 ^ 64 - v.toNat))) s.ctr }
  else s

/-- The shadow of an open counter becomes known at its first read after a snapshot, and holds until the next (R49). -/
def State.latchOpen (s : State) (key : Nat) : State :=
  match s.tide.snapSeen with
  | none => s
  | some l =>
    if l.contains key then s
    else
      let s := s.openStep key
      { s with shadow := mapPut zero64 key (s.ctrAt key) s.shadow, tide := { s.tide with snapSeen := some (key :: l) } }

/-- What a read gives: the value `v` held, or that of the open counter under `key`, or of its shadow. -/
def State.readOpen (s : State) (o : Option (Nat × Bool)) (v : BitVec 64) : BitVec 64 × State :=
  match o with
  | none => (v, s)
  | some (key, true) =>
    let s := s.latchOpen key
    (mapGet zero64 s.shadow key, s)
  | some (key, false) =>
    let s := (s.latchOpen key).openStep key
    (s.ctrAt key, s)

/-- The fills of queues that depend on time inside a tide: a field at bit `lo` reads a free value from 0 to its depth `top`
(log entry 37). Nothing is queued before the module is in service. -/
def State.readFills (s : State) (fs : List (Nat × Nat)) (v : BitVec 64) : BitVec 64 × State :=
  if s.board.phase = .run then
    fs.foldl (fun (q : BitVec 64 × State) (f : Nat × Nat) =>
      let (w, t) := q.2.fresh
      (q.1 + BitVec.ofNat 64 (w.toNat % (f.2 + 1) * 2 ^ f.1), t)) (v, s)
  else (v, s)

/-- The vector, special-function and tensor-address fills of ISSUE_STATUS, of 8, 4 and 8 entries (R246). -/
def coreFills (off : Nat) : List (Nat × Nat) := if off = 0x48 then [(0, 8), (4, 4), (8, 8)] else []

/-- A core's open counters, of time inside a tide: the counter under which one is kept, and whether `off` is its shadow. -/
def openCsr (c : CoreIx) (off : Nat) : Option (Nat × Bool) :=
  if off = 0x410 ∨ off = 0x420 then some (coreCtr c off, false)
  else if off = 0x418 ∨ off = 0x428 then some (coreCtr c (off - 8), true)
  else none

/-- CORE_CTL.START: a HALTED or STOPPED core starts at CORE_PC; otherwise nothing (R259). -/
def State.startCore (s : State) (c : CoreIx) : State :=
  if s.core[c].mode = .halted ∨ s.core[c].mode = .stopped then
    s.onCore c (fun k => { k with mode := .running, stall := none, wait := none })
  else s

/-- Drops the commands in a core's buffers: each leaves its token's COUNT and its queue's count (log entry 15). -/
def CoreSt.discard (k : CoreSt) : CoreSt :=
  let drop (k : CoreSt) (cmd : UnitCmd) : CoreSt :=
    let dec (k : CoreSt) (j : TokIx) : CoreSt :=
      { k with tok := k.tok.set j { k.tok[j] with count := k.tok[j].count - 1 } }
    let k := dec (k.doneOne cmd.op.target) cmd.tk
    match cmd.op with
    | .panTwin _ _ _ _ _ _ tw => dec k tw
    | _ => k
  let k := (k.bufPan ++ k.bufSlu ++ k.bufBrn ++ k.bufXtl).foldl drop k
  { k with bufPan := [], bufSlu := [], bufBrn := [], bufXtl := [], stall := none }

/-- Marks the granule a killed core belongs to, and its step for the commit gate (R258, R199). -/
def State.markKilled (s : State) (c : CoreIx) : State :=
  match s.disp[clusterOf c].running with
  | some g =>
    if g.cores.contains c then
      let s := s.onDisp (clusterOf c) (fun d => { d with running := some { g with killed := true } })
      let e := (s.partNum (c.val / 32), g.step)
      if g.step = BitVec.allOnes 64 ∨ s.gate.killed.contains e then s
      else { s with gate := { s.gate with killed := s.gate.killed ++ [e] } }
    else s
  | none => s

/-- CORE_CTL.KILL (R258): buffers discarded, event 0x1115; the core is HALTED once its commands have completed. -/
def State.killCore (s : State) (c : CoreIx) : State :=
  let s := (s.markKilled c).raise (s.coreSrc c.val) 0x1115 (pack [(c.val, 0)])
  s.onCore c (fun k => ({ k.discard with kill := true, wait := none } : CoreSt).settleKill)

/-- A write of a core register: only its writable bits. START and KILL, and CORE_PC, are firmware only; the caller has
checked who writes. -/
def State.coreWrite (s : State) (c : CoreIx) (off : Nat) (v : BitVec 64) : State :=
  match off with
  | 0x00 => if v.getLsbD 5 then s.onCore c (fun k => { k with lost := false }) else s
  | 0x08 =>
    let s := if v.getLsbD 1 then s.killCore c else s
    if v.getLsbD 0 then s.startCore c else s
  | 0x10 =>
    if s.core[c].mode = .halted ∨ s.core[c].mode = .stopped then s.onCore c (fun k => { k with pc := pcBits v }) else s
  | 0x18 => s.onCore c (fun k => { k with trapVec := pcBits v })
  | 0x20 => s.onCore c (fun k => { k with trapEpc := pcBits v })
  | 0x38 => s.onCore c (fun k => { k with fstat := k.fstat &&& ~~~(v.setWidth 5) })
  | _ => s

/-- Whether an offset of the core block is a register that only firmware may write (R290). -/
def coreFwOnly (off : Nat) : Bool :=
  match findReg off regsOf_core with
  | some d => d.fwOnly
  | none => false

end Sys2Proof.Machine
end

