-- ==== Sys2Proof/Machine/FenceOps.lean ====
section
/-! DEFINITION. Charges, suspect bits and fence bits of the integrity unit (R517, R518, R521), shared by the pans'
replays, self-tests, classifications and firmware's writes. -/

namespace Sys2Proof.Machine

/-- Fence map bit of a unit, as event 0x0303 names it: kind 0 engine (pan, engine), 1 pan, 2 core, 3 cache way
(cluster, way), 4 sluice, 5 slow-tier channel (crystallizer, channel). -/
def fenceBit (kind ix sub : Nat) : Nat × Nat :=
  match kind with
  | 0 => (0x210100 + 8 * (ix / 4), 16 * (ix % 4) + sub)
  | 1 => (0x210110, ix)
  | 2 => (0x210118 + 8 * (ix / 64), ix % 64)
  | 3 => (0x210140 + 8 * ix, sub)
  | 4 => (0x210128, ix)
  | _ => (0x210180 + 8 * (ix / 4), 16 * (ix % 4) + sub)

/-- Whether a unit's fence bit is set. -/
def State.fenceSet (s : State) (kind ix sub : Nat) : Bool :=
  (s.reg (fenceBit kind ix sub).1).getLsbD (fenceBit kind ix sub).2

/-- Sets or clears one bit of a register. -/
def State.setBit (s : State) (off b : Nat) (v : Bool) : State :=
  s.setReg off (setBits (s.reg off) b b (b2n v))

/-- INT_CTL.MODE is SERVICE. -/
def State.inService (s : State) : Bool := (s.reg 0x210000).getLsbD 0

/-- The channels of a crystallizer change, and with them the interleave and the capacity: what its slow tier held becomes
unspecified, since every 2 KiB run now lies elsewhere (R177, R210; log entry 95). -/
def State.reinterleave (s : State) (x : Nat) : State :=
  let lo := 2 ^ 42 + x * 2 ^ 38
  { s with mem := s.mem.lose lo (lo + 2 ^ 38) s.free, free := s.free + 1 }

/-- A slow-tier channel leaves service at once (R210, R521): XTL_CHAN_MAP mirrors it, the capacity falls by its 16 GiB, every
bound shard of the crystallizer is damaged, event 0x1409. -/
def State.retireXch (s : State) (x ch : Nat) : State :=
  let i : XtlIx := Fin.ofNat 8 x
  let s := (s.setBit (xtlBase x + 0x18) ch true).reinterleave x
  let q := s.xtl[i]
  let s := { s with xtl := s.xtl.set i { q with
    shards := q.shards.map (fun (h : Nat × Shard) => (h.1, { h.2 with damaged := true })) } }
  s.raise (s.xtlSrc x) 0x1409 (pack [(x, 0), (ch, 4)])

/-- A fence bit set with event 0x0303 (R518, R522); reason 0 repeatedly suspect, 1 self-test, 2 class permanent, 3
firmware. A bit that is set already stays as it is. -/
def State.fenceOne (s : State) (kind ix sub reason : Nat) : State :=
  if s.fenceSet kind ix sub then s
  else
    let (o, b) := fenceBit kind ix sub
    let s := ((s.setBit o b true).count 0x210490 1).raiseMod 2 0x303 (pack [(kind, 0), (reason, 4), (ix, 8), (sub, 16)])
    if kind = 5 then s.retireXch ix sub else s

/-- As `fenceOne`; a pan whose 16 engines are all fenced is fenced whole (R518). -/
def State.fence (s : State) (kind ix sub reason : Nat) : State :=
  let s := s.fenceOne kind ix sub reason
  if kind = 0 ∧ (List.range 16).all (fun e => s.fenceSet 0 ix e) then s.fenceOne 1 ix 0 reason else s

/-- The unit has received SUSPECT_N charges within the SUSPECT_WIN tides that end with a tide (R517). -/
def State.repeatedly (s : State) (u : Nat × Nat × Nat) (now : BitVec 64) : Bool :=
  let win := max 1 (s.fld 0x210010 63 32)
  let n := max 1 (s.fld 0x210010 7 0)
  decide (n ≤ (s.int.charges.filter (fun (v, t) => v = u ∧ now.toNat < t.toNat + win)).length)

/-- A charge (R517): the suspect bit, and in SERVICE with AUTO_FENCE the fence of a repeatedly suspect unit (R518).
`failed` is a self-test failure, which fences at once; `reason` is that of event 0x0303. -/
def State.charge (s : State) (kind ix sub : Nat) (failed : Bool) (reason : Nat) : State :=
  let (o, b) := fenceBit kind ix sub
  let u := (kind, ix, sub)
  let s := s.setBit (o + 0x100) b true
  let s := { s with int := { s.int with charges := s.int.charges ++ [(u, s.tide.num)] } }
  if s.inService ∧ (s.reg 0x210000).getLsbD 3 ∧ (failed ∨ s.repeatedly u s.tide.num) then s.fence kind ix sub reason
  else s

end Sys2Proof.Machine
end

