-- ==== Sys2Proof/Machine/PanMath.lean ====
section
/-! DEFINITION. What a pan computes (04_pans.md, 05_twin_pans.md): operands, passes in the reference order, the tally
check, the rake, and the signatures of 16_integrity.md. -/

namespace Sys2Proof.Machine

/-! Operands. -/

/-- Codes of element (i, k) of a source; `f` is its format. -/
def XCtx.matCell (x : XCtx) (f : Fmt) (src : MatSrc) (i k : Nat) : Cell × XCtx :=
  match src with
  | .mem d turn r0 c0 => if turn then x.cellRC d ((c0 + k : Nat) : Int) ((r0 + i : Nat) : Int)
      else x.cellRC d ((r0 + i : Nat) : Int) ((c0 + k : Nat) : Int)
  | .win w => if w.walk then x.winCell w (w.m0 + k) i else x.winCell w (w.m0 + i) k
  | .cells w l => ((l[i * w + k]?).getD f.zeroCell, x)
  | .ones => (f.zeroCell, x)
  | .unknown => (f.zeroCell, x)

/-- The value of a source's element by its codes. -/
def MatSrc.value (src : MatSrc) (f : Fmt) (c : Cell) : Val :=
  match src with
  | .ones => vNat 1
  | _ => f.cellVal c

/-- The value of element (i, k). -/
def XCtx.matVal (x : XCtx) (f : Fmt) (src : MatSrc) (i k : Nat) : Val × XCtx :=
  let (c, x) := x.matCell f src i k
  (src.value f c, x)

/-- The part of a job that holds row `i`, and the row's place in it. -/
def partAt : List PanPart → Nat → Option (PanPart × Nat)
  | [], _ => none
  | p :: l, i => if i < p.rows then some (p, i) else partAt l (i - p.rows)

/-- Rows of a job. -/
def PanJob.rows (j : PanJob) : Nat := (j.parts.map (·.rows)).foldl (· + ·) 0

/-- Logical linear index of the destination position of result (i, n) of a part in a tensor, and whether it was
clamped (R296, R328, R329). -/
def PanPart.at (p : PanPart) (d : Desc) (i n : Nat) : Nat × Bool :=
  if p.vec then d.atLin ((p.dcol + n : Nat) : Int)
  else d.atRC ((p.drow + i : Nat) : Int) ((p.dcol + n : Nat) : Int)

/-- The continuation element added to result (i, n), as an FP32 code or an integer (R75, R78, R296). -/
def XCtx.contAt (x : XCtx) (p : PanPart) (i n : Nat) : Option Int × XCtx :=
  match p.cont with
  | none => (none, x)
  | some d =>
    if d.empty then (some 0, x.clamped d.va 1 false true)
    else
      let (lin, oob) := p.at d i n
      let (c, x) := x.clamped d.va (b2n oob) false false |>.readCell d (delinear d.ext lin)
      (some (if d.fmt.elem = .int32 then codeInt 32 c.1 else (c.1 : Int)), x)

/-! Passes. -/

/-- FP32 results of products whose first has logical index `start` (R74, R75): the accumulator with every segment, the
accumulator with the whole segments only, and the exact sum of a last segment that index `start + |ps|` cuts. `lead` is the
exact sum of the first segment's products that come before `start`. -/
def refDotFrom (start : Nat) (ps : List Val) (cont : Option Nat) (lead : Option Val) : Nat × Nat × Option Val :=
  let w := 32 - start % 32
  let first := lead.toList ++ ps.take w
  let sums := ((if first.isEmpty then [] else [first]) ++ chunks 32 ps.length (ps.drop w)).map segSum
  let add (l : List Val) : Nat :=
    match cont, l.map r32 with
    | none, [] => 0
    | none, s :: r => r.foldl add32 s
    | some c, r => r.foldl add32 c
  if (start + ps.length) % 32 = 0 then (add sums, add sums, none) else (add sums, add sums.dropLast, sums.getLast?)

/-- The raw result of products from an accumulator, an FP32 code, or an integer on the integer path (R74, R78); and what a
later cut of K goes on from. -/
def rawDot (ip : Bool) (start : Nat) (ps : List Val) (cont : Option Int) (lead : Option Val) : Int × Int × Option Val :=
  if ip then
    let v := intDot (ps.map Val.int) cont
    (v, v, none)
  else
    let (r, a, o) := refDotFrom start ps (cont.map Int.toNat) lead
    ((r : Int), (a : Int), o)

/-- The value of a raw result. -/
def rawVal (ip : Bool) (r : Int) : Val := if ip then vInt r else d32 r.toNat

/-- How one row group compares (R127, R128). -/
inductive Tally where
  | ok | skip | bad
  deriving DecidableEq, Repr

/-- The sum of exact values. -/
def exactSum (vs : List Val) : Val := segSum vs

/-- The compare of one row group (R126 to R128): streaming values `as` from logical index `start`, the stationary columns,
the accumulators the columns started from, the open segments they started in, and the raw results. K counts the logical
indices accumulated so far, this pass included. -/
def tallyGroup (ip : Bool) (start : Nat) (as : List Val) (cols : List (List Val)) (cins : Option (List Int))
    (leads : List Val) (raws : List Int) : Tally :=
  let kTot := start + as.length
  let byRow : List (List Val) := (List.range as.length).map (fun k => cols.map (fun q => q[k]?.getD (vZero false)))
  if ip then
    let t0 := (as.zip byRow).map (fun (a, r) => (a.mul (exactSum r)).int)
    let t : Int := t0.foldl (· + ·) ((cins.getD []).foldl (· + ·) 0)
    let sum : Int := raws.foldl (· + ·) 0
    if sum = t then .ok else .bad
  else
    let cVals := (cins.getD []).map (fun c => d32 c.toNat)
    let c0 := cins.map (fun _ => r32 (exactSum cVals))
    let c1 := cins.map (fun _ => r32 (exactSum (cVals.map Val.abs)))
    let lead (l : List Val) : Option Val := if l.isEmpty then none else some (exactSum l)
    let t := d32 (refDotFrom start ((as.zip byRow).map (fun (a, r) => a.mul (d32 (r32 (exactSum r))))) c0 (lead leads)).1
    let big := d32 (refDotFrom start ((as.zip byRow).map (fun (a, r) =>
      a.abs.mul (d32 (r32 (exactSum (r.map Val.abs)))))) c1 (lead (leads.map Val.abs))).1
    if !big.isFin then .skip
    else
      let sum := match raws with
        | [] => vZero false
        | r :: l => d32 (l.foldl (fun (a : Nat) (b : Int) => add32 a b.toNat) r.toNat)
      if !sum.isFin || !t.isFin then .bad
      else if (sum.sub t).abs.le ((big.mul (vNat ((kTot + 31) / 32))).mul (vPow2 (-21))) then .ok else .bad

/-- Key of a partial in the accumulation store. -/
def accKey (i n : Nat) : Nat := i * 2 ^ 20 + n

/-- Replaces or adds a partial. -/
def accPut (k : Nat) (v : Int) (l : List (Nat × Int)) : List (Nat × Int) := mapPut (fun _ => (0 : Int)) k v l

def accGet (l : List (Nat × Int)) (k : Nat) : Int := mapGet (fun _ => (0 : Int)) l k

/-- What one pass adds up. -/
structure PassOut where
  acc : List (Nat × Int)
  pend : List (Nat × Val)
  fails : Nat
  skips : Nat
  /-- first mismatching row with its lowest mismatching group -/
  first : Option (Nat × Nat)
  /-- mismatching groups -/
  groups : List Nat
  /-- steps of the commands with a raw result that is an infinity or a NaN (R83) -/
  nonFinite : List (BitVec 64)
  /-- faults met in a request's own rows -/
  bads : List (Nat × (Nat × Nat))
  /-- cells of the rows streamed, which the cross side of a PAN.TWIN sends on the twin bus (R147) -/
  bus : List Cell
  deriving DecidableEq, Repr

/-- The accumulation store before a pass. -/
def PassOut.start (acc : List (Nat × Int)) (pend : List (Nat × Val)) : PassOut := ⟨acc, pend, 0, 0, none, [], [], [], []⟩

/-- Notes a fault of a request, the first it meets. -/
def addBad (req : Nat) (f : Option (Nat × Nat)) (l : List (Nat × (Nat × Nat))) : List (Nat × (Nat × Nat)) :=
  match f with
  | some f => if l.any (fun a => a.1 == req) then l else l ++ [(req, f)]
  | none => l

/-- Does something and says which fault it met of itself; the context keeps its first. -/
def XCtx.ownFault {α : Type} (x : XCtx) (f : XCtx → α × XCtx) : (α × Option (Nat × Nat)) × XCtx :=
  let (a, y) := f { x with fault := none }
  ((a, y.fault), { y with fault := match x.fault with
    | some e => some e
    | none => y.fault })

/-- A raw result as an upset leaves it. -/
def upsetRaw (ip : Bool) (ups : List Upset) (i n : Nat) (r : Int) : Int :=
  match ups.find? (fun u => u.row = i ∧ u.col = n) with
  | some u => if ip then u.val.toInt else ((u.val.toNat % 2 ^ 32 : Nat) : Int)
  | none => r

/-- One row of a pass: raw results for its columns, then the compare of each group of 256 (R127). Against a tile of
unspecified values the results are free, are not compared, and set no flag (R138). -/
def XCtx.passRow (x : XCtx) (j : PanJob) (p : PanPass) (cols : List (List Val)) (ups : List Upset) (tally : Bool)
    (o : PassOut) (i : Nat) : PassOut × XCtx :=
  match partAt j.parts i with
  | none => (o, x)
  | some (part, r) =>
    let start := j.kappa + p.k0
    let (((cells, cins), bad), x) := x.ownFault (fun x =>
      let (cells, x) := x.collect (fun x k => x.matCell part.fmt part.src r (p.k0 + k)) (List.range p.kc)
      let (cins, x) := x.collect (fun x n =>
        if p.k0 = 0 then x.contAt part r (p.n0 + n) else (some (accGet o.acc (accKey i (p.n0 + n))), x)) (List.range p.nc)
      ((cells, cins), x))
    let as := cells.map (part.src.value part.fmt)
    let leads := (List.range p.nc).map (fun n => assoc (accKey i (p.n0 + n)) o.pend)
    let dots := (cols.zip (cins.zip leads)).map (fun (c, cin, lead) =>
      rawDot j.intPath start (List.zipWith Val.mul as c) cin lead)
    let (dots, x) := match j.stat with
      | .unknown => x.collect (fun x _ =>
          let (w, s) := x.s.fresh
          let v : Int := if j.intPath then w.toInt else (bitsOf w 31 0 : Int)
          ((v, v, (none : Option Val)), { x with s := s })) (List.range p.nc)
      | _ => (dots, x)
    -- an upset changes the result that the column carries on
    let dots := dots.zipIdx.map (fun ((v, a, op), n) =>
      let w := upsetRaw j.intPath ups i (p.n0 + n) v
      if w = v then (v, a, op) else (w, w, none))
    let raws := dots.map (·.1)
    let last := p.k0 + p.kc == j.k
    let key (n : Nat) : Nat := accKey i (p.n0 + n)
    let acc := dots.zipIdx.foldl (fun a ((v, w, _), n) => accPut (key n) (if last then v else w) a) o.acc
    let pend := dots.zipIdx.foldl (fun (a : List (Nat × Val)) ((_, _, op), n) =>
      match op with
      | some v => if last then a else (key n, v) :: a
      | none => a) (o.pend.filter (fun a => !(List.range p.nc).any (fun n => key n == a.1)))
    let known : Bool := match j.stat with
      | .unknown => false
      | _ => true
    let nf := known && !j.intPath && raws.any (fun v => nonFinite32 v.toNat)
    let res : List Tally :=
      if tally ∧ known then
        (List.range ((p.nc + 255) / 256)).map (fun g =>
          let cut {α : Type} (l : List α) : List α := (l.drop (256 * g)).take 256
          let cs := cut cins
          tallyGroup j.intPath start as (cut cols)
            (if cs.all Option.isSome ∧ !cs.isEmpty then some (cs.filterMap id) else none) ((cut leads).filterMap id) (cut raws))
      else []
    let fails := (res.zipIdx.filter (fun (t, _) => t == .bad)).map (·.2)
    ({ acc := acc
       pend := pend
       fails := o.fails + fails.length
       skips := o.skips + (res.filter (· == .skip)).length
       first := match o.first, fails with
         | some f, _ => some f
         | none, g :: _ => some (i, g)
         | none, [] => none
       groups := fails.foldl (fun a g => setAdd g a) o.groups
       nonFinite := if nf ∧ !o.nonFinite.contains part.cmd.step then o.nonFinite ++ [part.cmd.step] else o.nonFinite
       bads := addBad part.req bad o.bads
       bus := if j.role = 1 then o.bus ++ cells else o.bus }, x)

/-- One pass (R96, R112): every row against its tile. -/
def XCtx.runPass (x : XCtx) (j : PanJob) (p : PanPass) (ups : List Upset) (tally : Bool) (o : PassOut) : PassOut × XCtx :=
  let (cols, x) := x.collect (fun x n =>
    x.collect (fun x k => x.matVal j.tFmt j.stat (p.k0 + k) (p.n0 + n)) (List.range p.kc)) (List.range p.nc)
  p.rows.foldl (fun (o, x) i => x.passRow j p cols ups tally o i) (o, x)

/-- Engines of a pass's array that lie in row group `g` (R107, R129): the lowest one is last. -/
def PanJob.engines (j : PanJob) (array g : Nat) : List Nat :=
  if j.fold = 16 then [array]
  else if j.fold = 4 then
    let c := 2 * (array % 2) + g
    [8 * (array / 2) + c, 8 * (array / 2) + 4 + c]
  else
    let c := (j.engCols[g]?).getD 0
    [c, 4 + c, 8 + c, 12 + c]

/-! The rake (R115 to R123). -/

/-- Bytes of command block words. -/
def blockBytes (ws : List (BitVec 64)) : List Byte := ws.flatMap (fun w => leBytes 8 w.toNat)

def Rake.op (r : Rake) (b : Nat) : Bool := recNat r.bytes 0 1 / 2 ^ b % 2 == 1
def Rake.act (r : Rake) : Nat := recNat r.bytes 1 1 % 128
def Rake.deriv (r : Rake) : Bool := recNat r.bytes 1 1 / 128 % 2 == 1
def Rake.tag (r : Rake) : Nat := recNat r.bytes 2 2
def Rake.scaleKind (r : Rake) : Nat := recNat r.bytes 4 1 % 4
def Rake.biasKind (r : Rake) : Nat := recNat r.bytes 4 1 / 4 % 4
def Rake.blkDim (r : Rake) : Nat := recNat r.bytes 4 1 / 16 % 2

/-- A block that R124 refuses at PAN.RAKE. -/
def rakeInvalid (bs : List Byte) : Bool :=
  let r : Rake := ⟨bs, none, none, none, none, none⟩
  decide (recNat bs 0 1 / 64 ≠ 0) || decide (6 < r.act) || decide (recNat bs 4 1 / 32 ≠ 0) || !recZero bs 5 3
    || !recZero bs 56 8 || decide (r.scaleKind = 3) || decide (r.biasKind = 3)
    || (r.deriv && (decide (r.act = 0) || r.op 2))
    || [16, 24, 32, 40, 48].any (fun o => decide (recNat bs (o + 7) 1 ≠ 0))

/-- A scale or bias factor for a destination position (R116). -/
def XCtx.rakeFactor (x : XCtx) (on : Bool) (kind scalar : Nat) (vec : Option Desc) (off row col : Nat) : Val × XCtx :=
  if !on then (vNat off, x)
  else
    match kind, vec with
    | 1, some d => x.readLin d (col : Nat)
    | 2, some d => x.readLin d (row : Nat)
    | _, _ => (d32 scalar, x)

/-- The forward activation `a` of an FP32 code (R117): ReLU exactly; NaN and infinite inputs as the rule gives them;
else a code within 2 ulp of the exact function, which of them being open (log entry 7). -/
def actForward (a c : Nat) : Nat :=
  match d32 c with
  | .nan => fFP32.nan
  | v =>
    if a = 1 then (if (vZero false).lt v then c else 0)
    else
      match v with
      | .inf neg =>
        if neg then (match a with
          | 5 => 0
          | 6 => 0xBF800000
          | _ => 0x80000000)
        else (match a with
          | 5 => 0x3F800000
          | 6 => 0x3F800000
          | _ => fFP32.infCode)
      | v => pickNear (Config.activation a (BitVec.ofNat 32 c)) (encAct a v)

/-- The derivative of activation `a` (R118): ReLU exactly; of a finite z a code within 2 ulp of the exact derivative,
which of them being open; of an infinite z sigmoid′ and tanh′ are 0 by R117's limits, and the rule states no value of the
others (log entry 7). -/
def actDeriv (a c : Nat) : Nat :=
  if a = 1 then (if (vZero false).lt (d32 c) then 0x3F800000 else 0)
  else
    match d32 c with
    | .nan => fFP32.nan
    | .inf _ => if a = 5 ∨ a = 6 then 0 else (Config.activationDeriv a (BitVec.ofNat 32 c)).toNat
    | v => pickNear (Config.activationDeriv a (BitVec.ofNat 32 c)) (encDeriv a v)

/-- exp of the soft-maximum stage (R120), rounded once as R116 says of every operation of stage 6 (DEDUCED, log
entry 7). -/
def rakeExp (c : Nat) : Nat :=
  match d32 c with
  | .nan => fFP32.nan
  | .inf neg => if neg then 0 else fFP32.infCode
  | v => roundEncl (Config.activation 7 (BitVec.ofNat 32 c)) (encExp (encVal v))

/-- Stages 2 and 4 of one result at destination (row, col): the value after stage 2 and after stage 4. `hold` is its place
in the hold tensor, and whether it was clamped there (R330). -/
def XCtx.rakeElem (x : XCtx) (r : Rake) (row col : Nat) (hold : Nat × Bool) (y : Val) : (Val × Val) × XCtx :=
  let (y1, x) :=
    if r.op 0 || r.op 1 then
      let (sc, x) := x.rakeFactor (r.op 0) r.scaleKind (recNat r.bytes 8 4) r.scaleVec 1 row col
      let (b, x) := x.rakeFactor (r.op 1) r.biasKind (recNat r.bytes 12 4) r.biasVec 0 row col
      (d32 (r32 ((y.mul sc).add b)), x)
    else (y, x)
  if r.act = 0 then ((y1, y1), x)
  else if r.deriv then
    match r.hold with
    | none => ((y1, y1), x)
    | some h =>
      let (z, x) := if h.empty then x.emptyRead h
        else x.clamped h.va (b2n hold.2) false false |>.readVal h (delinear h.ext hold.1)
      ((y1, d32 (mul32 (r32 y1) (actDeriv r.act (r32 z)))), x)
  else ((y1, d32 (actForward r.act (r32 y1))), x)

/-- Groups of a row aligned to 256 destination columns (R119). -/
def colGroups : List (Nat × Nat) → List (List Nat)
  | [] => []
  | (c, v) :: l =>
    let rest := colGroups l
    match l, rest with
    | (c', _) :: _, g :: gs => if c / 256 = c' / 256 then (v :: g) :: gs else [v] :: rest
    | _, _ => [v] :: rest

/-- FP32 sum of codes, left to right. -/
def sumCodes : List Nat → Nat
  | [] => 0
  | a :: l => l.foldl add32 a

/-- Row statistics (R119) from (column, code): sum and sum of squares. -/
def rowStats (l : List (Nat × Nat)) : Nat × Nat :=
  let gs := colGroups l
  (sumCodes (gs.map sumCodes), sumCodes (gs.map (fun g => sumCodes (g.map (fun v => mul32 v v)))))

/-- Soft-maximum statistics (R120): row maximum and sum of exponentials. -/
def softStats (l : List (Nat × Nat)) : Nat × Nat :=
  let codes := l.map (·.2)
  if codes.any (fun c => (d32 c).isNan) then (fFP32.nan, fFP32.nan)
  else if codes.any (fun c => d32 c == .inf false) then (fFP32.infCode, fFP32.nan)
  else
    let ninf := fFP32.signBit true + fFP32.infCode
    let one (g : List Nat) : Nat × Nat :=
      let gm := g.foldl (fFP32.minMax true) ninf
      (gm, if gm = ninf then 0 else sumCodes (g.map (fun v => rakeExp (sub32 v gm))))
    let join (a b : Nat × Nat) : Nat × Nat :=
      let m := fFP32.minMax true a.1 b.1
      let term (q : Nat × Nat) : Nat := if q.1 = ninf then 0 else mul32 q.2 (rakeExp (sub32 q.1 m))
      (m, add32 (term a) (term b))
    match (colGroups l).map one with
    | [] => (ninf, 0)
    | g :: gs => gs.foldl join g

/-! Overlap of a destination with the command's operands (R139, R164). -/

/-- Bytes an element and its scale occupy: address and length. -/
def Desc.spans (d : Desc) (idx : List Nat) : List (Int × Nat) :=
  let (a, b) := d.address idx
  (a, spanBytes d.fmt.elem.bits b) :: (if d.fmt.scaled then [((d.scaleBase + d.blockOf idx : Nat), 1)] else [])

/-- Bytes a source's elements occupy. -/
def MatSrc.spans (src : MatSrc) (rows cols : Nat) : List (Int × Nat) :=
  let cells := (List.range rows).flatMap (fun i => (List.range cols).map (fun k => (i, k)))
  match src with
  | .mem d turn r0 c0 =>
    if d.empty then []
    else cells.flatMap (fun (i, k) =>
      d.spans (d.clampRC (if turn then (c0 + k : Nat) else (r0 + i : Nat)) (if turn then (r0 + i : Nat) else (c0 + k : Nat))).1)
  | .win w =>
    if w.input.empty then []
    else cells.flatMap (fun (i, k) =>
      match (if w.walk then w.tapIdx (w.m0 + k) i else w.tapIdx (w.m0 + i) k) with
      | some idx => w.input.spans idx
      | none => [])
  | _ => []

/-- Bytes that a part's destination positions occupy in a tensor. -/
def PanPart.tensorSpans (p : PanPart) (n : Nat) (d : Desc) : List (Int × Nat) :=
  if d.empty then []
  else (List.range p.rows).flatMap (fun i => (List.range n).flatMap (fun c => d.spans (delinear d.ext (p.at d i c).1)))

/-- Bytes of the continuation elements of a part. -/
def PanPart.contSpans (p : PanPart) (n : Nat) : List (Int × Nat) :=
  match p.cont with
  | some c => p.tensorSpans n c
  | none => []

/-- Bytes every operand of a job occupies but for the continuations of the gather side, whose accumulation in place is
exempt (R163). -/
def PanJob.spans (j : PanJob) (r : Rake) : List (Int × Nat) :=
  let part (p : PanPart) : List (Int × Nat) :=
    let cells := (List.range p.rows).flatMap (fun i => (List.range j.n).map (fun n => (i, n)))
    let vec (d : Option Desc) (kind : Nat) : List (Int × Nat) :=
      match d with
      | some d =>
        if d.empty ∨ kind = 0 then []
        else cells.flatMap (fun (i, n) => d.spans (d.clampLin (if kind = 1 then (p.dcol + n : Nat) else (p.drow + i : Nat))).1)
      | none => []
    p.src.spans p.rows j.k
      ++ (if j.role = 2 then [] else p.contSpans j.n)
      ++ vec r.scaleVec r.scaleKind ++ vec r.biasVec r.biasKind
      ++ (match r.hold with
        | some h => p.tensorSpans j.n h
        | none => [])
  j.parts.flatMap part ++ j.statAt.spans j.k j.n

/-- Every operand byte of a job, continuations among them, as the other side of a PAN.TWIN meets them (R164). -/
def PanJob.allSpans (j : PanJob) (r : Rake) : List (Int × Nat) :=
  j.spans r ++ (if j.role = 2 then j.parts.flatMap (fun p => p.contSpans j.n) else [])

/-- Bytes that a part's destination must not meet: operands of the command, and on the gather side the continuations of its
other parts (R139, R163, R164). -/
def PanJob.spansFor (j : PanJob) (spans : List (Int × Nat)) (p : PanPart) : List (Int × Nat) :=
  if j.role = 2 then spans ++ (j.parts.filter (· ≠ p)).flatMap (fun q => q.contSpans j.n) else spans

/-- Whether two byte ranges meet. -/
def spansMeet (a b : Int × Nat) : Bool := decide (a.1 < b.1 + b.2) && decide (b.1 < a.1 + a.2)

/-! Writing (R115 stages 3 to 7). -/

/-- Codes that overlap an operand become unspecified; an unspecified value is no overflow (R3, R139). -/
def XCtx.blur (x : XCtx) (p : Plan) (beyond : Nat → Bool) : Plan × XCtx :=
  let (codes, x) := x.collect (fun x (l, c) =>
    if beyond l then
      let (w, s) := x.s.fresh
      ((l, w.toNat % 2 ^ p.desc.fmt.elem.bits), { x with s := s })
    else ((l, c), x)) p.codes
  if p.desc.fmt.scaled then ({ p with codes := codes }, x)
  else
    let bad := p.bad.filter (fun l => !beyond l)
    ({ p with codes := codes, bad := bad }, { x with ovfs := x.ovfs - (p.bad.length - bad.length) })

/-- A unit's rows within each part: part, first row in the part, count, first job row. -/
def runParts : List PanPart → Nat → Nat → Nat → List (PanPart × Nat × Nat × Nat)
  | [], _, _, _ => []
  | p :: l, base, r0, rn =>
    let lo := max base r0
    let hi := min (base + p.rows) (r0 + rn)
    (if lo < hi then [(p, lo - base, hi - lo, lo)] else []) ++ runParts l (base + p.rows) r0 rn

def unitParts (ps : List PanPart) (u : PanUnit) : List (PanPart × Nat × Nat × Nat) :=
  u.runs.flatMap (fun (r0, rn) => runParts ps 0 r0 rn)

/-- Writes of the rake to one tensor: 0 the destination of the part it names, 1 hold, 2 row statistics, 3 soft-maximum
statistics. `req` and `step` are those of the command that writes, `fault` the one it met. Each write has its place in the
command's element order, row by row (R332). -/
structure RakeWrites where
  kind : Nat
  part : Option PanPart
  desc : Desc
  req : Nat
  step : BitVec 64
  fault : Option (Nat × Nat)
  ws : List (Nat × ElemWrite)
  deriving DecidableEq, Repr

/-- Its elements. -/
def RakeWrites.lins (w : RakeWrites) : List Nat := w.ws.map (fun a => a.2.lin)

/-- Inserts by key, before what has the same key. -/
def insertKeyed {α : Type} (a : Nat × α) : List (Nat × α) → List (Nat × α)
  | [] => [a]
  | b :: l => if a.1 ≤ b.1 then a :: b :: l else b :: insertKeyed a l

/-- Sorted by key, equal keys in the order they have. -/
def sortKeyed {α : Type} (l : List (Nat × α)) : List (Nat × α) := l.foldr insertKeyed []

/-- Whether two lots of writes go to one tensor and are planned together: a command's blocks do not depend on how it is
cut into passes (R122, R627). -/
def RakeWrites.joins (a b : RakeWrites) : Bool := a.kind == b.kind && a.part == b.part

/-- Whether an element of a destination overlaps an operand (R139); `spans` are the operand bytes. -/
def Desc.beyond (d : Desc) (spans : List (Int × Nat)) (l : Nat) : Bool :=
  !d.empty && (d.spans (delinear d.ext l)).any (fun a => spans.any (spansMeet a))

/-- The rake over one unit from its raw results: what it writes. `seed` is that of stochastic rounding; the step is each
command's own (R73, R135). -/
def XCtx.rakeUnit (x : XCtx) (j : PanJob) (r : Rake) (u : PanUnit) (acc : List (Nat × Int)) (seed : Nat) :
    List RakeWrites × XCtx :=
  let one (x : XCtx) (q : PanPart × Nat × Nat × Nat) : List RakeWrites × XCtx :=
    let (p, lo, cnt, base) := q
    let rk := if p.vec then Rake.raw else r
    let cells := (List.range cnt).flatMap (fun i => (List.range u.nn).map (fun n => (lo + i, base + i, u.n0 + n)))
    let got : (List (Nat × Nat × Val × Val) × Option (Nat × Nat)) × XCtx := x.ownFault (fun x =>
      x.collect (fun x (i, ji, n) =>
        let hl := match rk.hold with
          | some h => p.at h i n
          | none => (0, false)
        let (y, x) := x.rakeElem rk (p.drow + i) (p.dcol + n) hl (rawVal j.intPath (accGet acc (accKey ji n)))
        ((i, n, y), x)) cells)
    let ys := got.1.1
    let x := got.2
    let lot (kind : Nat) (part : Option PanPart) (d : Desc) (ws : List (Nat × ElemWrite)) : RakeWrites :=
      ⟨kind, part, d, p.req, p.cmd.step, got.1.2, ws⟩
    let key (i n : Nat) : Nat := accKey (base + i - lo) n
    -- stage 7: destination
    let nOob := if p.dst.empty then 0 else (ys.filter (fun (i, n, _) => (p.at p.dst i n).2)).length
    let x := x.clamped p.dst.va nOob true false
    let ws := ys.map (fun (i, n, y) =>
      let l := (p.at p.dst i n).1
      let rnd : Rnd := if rk.op 5 then .stoch (genWord seed (0x10000 + rk.tag) p.cmd.step.toNat l % 65536) else .rne
      (key i n, (⟨l, y.2, rnd⟩ : ElemWrite)))
    -- stage 3: hold
    let put (x : XCtx) : List RakeWrites × XCtx :=
      match rk.hold with
      | some h =>
        if rk.op 2 then
          let x := x.clamped h.va (if h.empty then 0 else (ys.filter (fun (i, n, _) => (p.at h i n).2)).length) true false
          ([lot 1 none h (ys.map (fun (i, n, y) => (key i n, ⟨(p.at h i n).1, y.1, .rne⟩)))], x)
        else ([], x)
      | none => ([], x)
    let (ph, x) := put x
    -- stages 5 and 6: statistics, rows ascending
    let stat (x : XCtx) (kind : Nat) (d : Option Desc) (on : Bool) (f : List (Nat × Nat) → Nat × Nat) :
        List RakeWrites × XCtx :=
      match d with
      | some d =>
        if on then
          let ws := (List.range cnt).flatMap (fun i =>
            let row : List (Nat × Nat) := (ys.filter (fun q => q.1 = lo + i)).map (fun q => (p.dcol + q.2.1, r32 q.2.2.2))
            let (a, b) := f row
            [(lo + i, 0, a), (lo + i, 1, b)])
          let to_ (i c : Nat) : Nat × Bool := d.atRC ((p.drow + i : Nat) : Int) (c : Nat)
          let x := x.clamped d.va (if d.empty then 0 else (ws.filter (fun (i, c, _) => (to_ i c).2)).length) true false
          ([lot kind none d (ws.map (fun (i, c, v) => (key i c, ⟨(to_ i c).1, d32 v, .rne⟩)))], x)
        else ([], x)
      | none => ([], x)
    let (pr, x) := stat x 2 rk.rowstat (rk.op 3) rowStats
    let (ps, x) := stat x 3 rk.smstat (rk.op 4) softStats
    (lot 0 (some p) p.dst ws :: (ph ++ pr ++ ps), x)
  let (ls, x) := x.collect one (unitParts j.parts u)
  (ls.flatten, x)

/-- Each member once, in order. -/
def uniq {α : Type} [DecidableEq α] (l : List α) : List α := l.foldl (fun a k => if a.contains k then a else a ++ [k]) []

/-- What the rake writes for one unit, and the steps of the commands that overflow in it (R65, R83). -/
structure RakeOut where
  plans : List Plan
  ovf : List (BitVec 64)
  deriving DecidableEq, Repr

/-- What a command stores in one tensor, and the elements that each request writes. -/
structure RakePlan where
  kind : Nat
  plan : Plan
  lots : List (Nat × List Nat)
  deriving DecidableEq, Repr

/-- The tensors that lots of writes go to, each once: destinations, then hold, then the statistics. -/
def rakeTensors (l : List RakeWrites) : List RakeWrites :=
  let firsts := l.foldl (fun (a : List RakeWrites) w => if a.any w.joins then a else a ++ [w]) []
  (List.range 4).flatMap (fun k => firsts.filter (fun w => w.kind == k))

/-- The rake over the units of a command (stages 2 to 7): what each unit writes, what the command writes in all, and the
faults that single requests met. PAN_OVF_CNT counts stages 3 and 7 (R121); a statistic that is an infinity or a NaN sets the
step's flag as any rake write (R65, R83). -/
def XCtx.rakeUnits (x : XCtx) (j : PanJob) (r : Rake) (us : List PanUnit) (acc : List (Nat × Int))
    (spans : List (Int × Nat)) (seed : Nat) : (List RakeOut × List RakePlan × List (Nat × (Nat × Nat))) × XCtx :=
  let (ls, x) := x.collect (fun x u => x.rakeUnit j r u acc seed) us
  let all := ls.flatten
  let (ps, x) := x.collect (fun x (t : RakeWrites) =>
    let (p, y) := x.plan t.desc ((sortKeyed ((all.filter t.joins).flatMap (·.ws))).map (·.2))
    match t.kind, t.part with
    | 0, some a =>
      let (p, y) := y.blur p (t.desc.beyond (j.spansFor spans a))
      ((t, p), y)
    | 2, _ | 3, _ => ((t, p), { y with ovfs := x.ovfs })
    | _, _ => ((t, p), y)) (rakeTensors all)
  let out (l : List RakeWrites) : RakeOut :=
    let cuts := ps.flatMap (fun (t, p) =>
      let mine := l.filter t.joins
      if mine.isEmpty then [] else [p.cut (mine.flatMap RakeWrites.lins)])
    let steps := ps.flatMap (fun (t, p) =>
      (l.filter t.joins).flatMap (fun w => if (p.cut w.lins).bad.isEmpty then [] else [w.step]))
    ⟨cuts, uniq steps⟩
  let plans := ps.map (fun (t, p) => (⟨t.kind, p, (all.filter t.joins).map (fun w => (w.req, w.lins))⟩ : RakePlan))
  ((ls.map out, plans, all.foldl (fun a w => addBad w.req w.fault a) []), x)

/-! Signatures (R508). The byte form of an element is its code in whole bytes, little-endian (log entry 21). -/

/-- One byte into a CRC-64 register, most significant bit first. -/
def crc64Byte (r : BitVec 64) (b : Nat) : BitVec 64 :=
  (List.range 8).foldl (fun r _ => if r.msb then (r <<< 1) ^^^ 0x42F0E1EBA9EA3693 else r <<< 1)
    (r ^^^ (BitVec.ofNat 64 b <<< 56))

/-- CRC-64 of ECMA-182: register 0 at the start, nothing inverted. -/
def crc64 (bs : List Byte) : BitVec 64 := bs.foldl (fun r b => crc64Byte r b.toNat) 0

/-- Bytes of an element's code, with its scale. -/
def cellBytes (f : Fmt) (c : Cell) : List Byte :=
  leBytes ((f.elem.bits + 7) / 8) c.1 ++ (if f.scaled then [BitVec.ofNat 8 c.2] else [])

/-- Bytes a plan writes: each code, and each scale after the block's last code. -/
def Plan.bytes (p : Plan) : List Byte :=
  let blk (l : Nat) : Nat := p.desc.blockOf (delinear p.desc.ext l)
  let last (i l : Nat) : Bool := p.desc.fmt.scaled && !(p.codes.drop (i + 1)).any (fun (m, _) => blk m = blk l)
  p.codes.zipIdx.flatMap (fun ((l, c), i) =>
    leBytes ((p.desc.fmt.elem.bits + 7) / 8) c
      ++ (if last i l then [BitVec.ofNat 8 ((assoc (blk l) p.scales).getD 0)] else []))

/-- RESSIG of a unit. -/
def RakeOut.sig (o : RakeOut) : BitVec 64 := crc64 (o.plans.flatMap Plan.bytes)

/-- OPSIG of a unit: stationary elements, streaming elements, continuation, rake vectors and the hold tensor read. -/
def XCtx.opSig (x : XCtx) (j : PanJob) (r : Rake) (u : PanUnit) : BitVec 64 × XCtx :=
  let grid (a b : Nat) : List (Nat × Nat) := (List.range a).flatMap (fun i => (List.range b).map (fun k => (i, k)))
  let (st, x) := x.collect (fun x (k, n) =>
    let (c, x) := x.matCell j.tFmt j.stat k (u.n0 + n)
    (cellBytes j.tFmt c, x)) (grid j.k u.nn)
  let rows := unitParts j.parts u
  let (sm, x) := x.collect (fun x (p, lo, cnt, _) =>
    let (l, x) := x.collect (fun x (i, k) =>
      let (c, x) := x.matCell p.fmt p.src (lo + i) k
      (cellBytes p.fmt c, x)) (grid cnt j.k)
    (l.flatten, x)) rows
  let (ct, x) := x.collect (fun x (p, lo, cnt, _) =>
    let (l, x) := x.collect (fun x (i, n) =>
      let (c, x) := x.contAt p (lo + i) (u.n0 + n)
      (leBytes 8 (intCode 64 (c.getD 0)), x)) (grid cnt u.nn)
    (l.flatten, x)) rows
  let (rk, x) := x.collect (fun x (p, lo, cnt, _) =>
    let (l, x) := x.collect (fun x (i, n) =>
      let (sc, x) := x.rakeFactor (r.op 0) r.scaleKind 0 r.scaleVec 1 (p.drow + lo + i) (p.dcol + u.n0 + n)
      let (b, x) := x.rakeFactor (r.op 1) r.biasKind 0 r.biasVec 0 (p.drow + lo + i) (p.dcol + u.n0 + n)
      let (z, x) := match r.hold with
        | some h => if r.deriv then (if h.empty then x.emptyRead h else x.readVal h (delinear h.ext (p.at h (lo + i) (u.n0 + n)).1))
            else (vZero false, x)
        | none => (vZero false, x)
      (leBytes 4 (r32 sc) ++ leBytes 4 (r32 b) ++ leBytes 4 (r32 z), x)) (grid cnt u.nn)
    (l.flatten, x)) rows
  (crc64 (st.flatten ++ sm.flatten ++ ct.flatten ++ rk.flatten), x)

end Sys2Proof.Machine
end

