-- ==== Sys2Proof/Machine/PanJobs.lean ====
section
/-! DEFINITION. How a pan turns a command into a product (04_pans.md, 05_twin_pans.md, 07_sliding_windows.md):
operand pairs and classes, arrays and folds, the checks made when a command begins, passes and replay units. -/

namespace Sys2Proof.Machine

/-! Classes, arrays and folds. -/

/-- Formats of 4 and 6 bits (R98). -/
def Elem.narrow : Elem → Bool
  | .e2m3 | .e3m2 | .e2m1 => true
  | _ => false

/-- The class a tile loads in (R136): 0 8-bit and block integer, 1 4/6-bit, 2 16-bit, 3 integer; none when NARROW
names another format. -/
def ldsClass (f : Fmt) (narrow : Bool) : Option Nat :=
  if f.elem.narrow then some (if narrow then 1 else 0)
  else if narrow then none
  else
    match f.elem with
    | .bf16 | .fp16 => some 2
    | .int8 => some (if f.scaled then 0 else 3)
    | _ => some 0

/-- The class of an operand pair that R79 accepts (R98). -/
def pairClass (a b : Fmt) : Option Nat :=
  let small (f : Fmt) : Bool := f.elem.narrow || f.elem == .e4m3 || f.elem == .e5m2
  if small a ∧ small b then some (if a.elem.narrow ∧ b.elem.narrow then 1 else 0)
  else if a.elem = b.elem ∧ (a.elem = .bf16 ∨ a.elem = .fp16) then some 2
  else if a.elem = .int8 ∧ b.elem = .int8 then
    (if a.scaled ∧ b.scaled then some 0 else if a.scaled ∨ b.scaled then none else some 3)
  else none

/-- Array depth D of a class and fold (R97). -/
def panDepth (cls fold : Nat) : Nat :=
  (if fold = 1 then 1024 else if fold = 4 then 512 else 256) * (if cls = 1 then 2 else 1) / (if cls = 2 then 2 else 1)

/-- Whether an engine is out. -/
def PanSt.out (q : PanSt) (e : Nat) : Bool := q.whole || q.fenced.getLsbD e

/-- Engine columns usable in FOLD1 (R144). -/
def PanSt.cols (q : PanSt) : List Nat :=
  (List.range 4).filter (fun j => (List.range 4).all (fun i => !q.out (4 * i + j)))

/-- PAN_STATUS.WIDTH. -/
def PanSt.width (q : PanSt) : Nat := q.cols.length

/-- Arrays of a fold that are available (R107, R144). -/
def PanSt.arrays (q : PanSt) (fold : Nat) : List Nat :=
  if fold = 16 then (List.range 16).filter (fun e => !q.out e)
  else if fold = 4 then
    (List.range 4).filter (fun a =>
      let b := 8 * (a / 2) + 2 * (a % 2)
      !q.out b && !q.out (b + 1) && !q.out (b + 4) && !q.out (b + 5))
  else if q.width = 0 then [] else [0]

/-- Columns of one array in cells. -/
def PanSt.side (q : PanSt) (fold : Nat) : Nat := if fold = 1 then 256 * q.width else if fold = 4 then 512 else 256

/-- The fold R108 chooses, moved to a larger one while it has no array; `four` replaces FOLD16 by FOLD4. -/
def PanSt.autoFold (q : PanSt) (cls k : Nat) (four : Bool) : Option Nat :=
  let want := if k ≤ panDepth cls 16 ∧ ¬ four then [16, 4, 1] else if k ≤ panDepth cls 4 then [4, 1] else [1]
  want.find? (fun f => !(q.arrays f).isEmpty)

/-- The fold of a command (R109, R146); none when it has no array. -/
def PanSt.foldOf (q : PanSt) (sel : FoldSel) (policy cls k : Nat) : Option Nat :=
  let fixed (f : Nat) : Option Nat := if (q.arrays f).isEmpty then none else some f
  match sel with
  | .fold1 => fixed 1
  | .fold4 => fixed 4
  | .fold16 => fixed 16
  | .auto => if policy = 1 then fixed 1 else q.autoFold cls k (policy = 2)

/-! Passes and units. -/

/-- `n` cut into runs of `w`. -/
def cutRuns (n w : Nat) : List (Nat × Nat) :=
  (List.range ((n + w - 1) / w)).map (fun i => (i * w, min w (n - i * w)))

/-- Arrays that hold tile `t` of `nT` (R110). -/
def arraysFor (arrays : List Nat) (nT t : Nat) : List Nat :=
  let a := arrays.length
  if a ≤ nT then (arrays[t % a]?).toList
  else ((arrays.zipIdx).filter (fun (_, i) => decide (i < nT * (a / nT)) && decide (i % nT = t))).map (·.1)

/-- Rows of a unit, ascending. -/
def PanUnit.rows (u : PanUnit) : List Nat := u.runs.flatMap (fun (r0, rn) => (List.range rn).map (· + r0))

/-- The replay units of a PAN.STR: a pass each, the rows of `m` that are dealt to one of `h` arrays (R110, R507). -/
def strUnits (m n h : Nat) : List PanUnit :=
  if h ≤ 1 then (if m = 0 then [] else [⟨[(0, m)], 0, n⟩])
  else
    ((List.range h).map (fun a => (⟨(cutRuns m 128).filter (fun r => decide (r.1 / 128 % h = a)), 0, n⟩ : PanUnit))).filter
      (fun u => !u.runs.isEmpty)

/-- The passes of one unit on the arrays `arr` (R110, R112): tiles ascending, arrays of the tile, K tiles ascending; a pass
with no row does not run. `all` says that every array holds the one tile. -/
def PanSt.passes (q : PanSt) (arr : List Nat) (cls fold k n : Nat) (all : Bool) (u : PanUnit) : List PanPass :=
  let w := q.side fold
  let nT := (n + w - 1) / w
  ((cutRuns u.nn w).flatMap (fun (c0, cn) =>
    let hold := if all then arr else arraysFor arr nT ((u.n0 + c0) / w)
    hold.zipIdx.flatMap (fun (a, h) =>
      let rows := u.rows.filter (fun r => decide (r / 128 % hold.length = h))
      (cutRuns k (panDepth cls fold)).map (fun (k0, kc) => ⟨rows, u.n0 + c0, cn, k0, kc, a⟩)))).filter
    (fun p => !p.rows.isEmpty)

/-- Result tiles of a PAN.MM (R112, R507): chunks of rows, each over one N tile, or over every N tile when the slot has
statistics. The array side is that of the fold at full width. -/
def PanSt.mmUnits (q : PanSt) (cls fold m n : Nat) (stats : Bool) : List PanUnit :=
  let w := q.side fold
  let nT := (n + w - 1) / w
  let a := (q.arrays fold).length
  let s := if fold = 1 then 1024 else if fold = 4 then 512 else 256
  let per := 2 ^ 20 / (a * s) / (if cls = 3 then 2 else 1)
  let chunk := per * (if a ≤ nT then 1 else a / nT)
  (cutRuns m chunk).flatMap (fun (r0, rn) =>
    if stats then [⟨[(r0, rn)], 0, n⟩] else (cutRuns n w).map (fun (c0, cn) => ⟨[(r0, rn)], c0, cn⟩))

/-- Passes of every unit. -/
def PanJob.planned (j : PanJob) (q : PanSt) (arr : List Nat) (all : Bool) : PanJob :=
  { j with engCols := q.cols, passes := j.units.flatMap (fun u => q.passes arr j.cls j.fold j.k j.n all u) }

/-! Checks when a command begins (R140, R294). -/

/-- The outcome of a fault (R342) or of a poisoned descriptor or record (R352): the events of the context, then the
command ends with error status and deferred cause 0x08. -/
def XCtx.badEnd (x : XCtx) : Option Bad :=
  match x.fault with
  | some f => some (0x1202, x.faultPayload f)
  | none =>
    match x.badRecord, x.poison with
    | true, some va => some (0x1302, x.poisonPayload va)
    | _, _ => none

/-- Goes on after a read that succeeded. -/
def thenRead {α β : Type} (r : Read α × XCtx) (f : α → XCtx → Read β × XCtx) : Read β × XCtx :=
  match r with
  | (.ok a, x) => f a x
  | (.bad b, x) => (.bad b, x)
  | (.lost, x) => (.lost, x)

/-- Event 0x1001 (R140). -/
def bad1001 (cause core : Nat) (slot : Slot) : Bad :=
  (0x1001, pack [(cause, 0), (core, 8), (match slot with
    | .slot i => i.val
    | .raw => 0, 16)])

/-- Event 0x1104 (R75). -/
def bad1104 (kappa : BitVec 64) (field core : Nat) : Bad :=
  (0x1104, pack [(bitsOf kappa 31 0, 0), (field, 32), (core, 40)])

/-- Word `i` of a command block. -/
def UnitCmd.word (c : UnitCmd) (i : Nat) : BitVec 64 := (c.block[i]?).getD 0

/-- A field that names a virtual address. -/
def UnitCmd.va (c : UnitCmd) (i : Nat) : Nat := (c.word i).toNat

/-- Reads a pan operand's descriptor: STRIDE[0] = 1, not pressed (R229, R335). -/
def XCtx.panDesc (x : XCtx) (va : Nat) : Read Desc × XCtx := x.readDesc va ⟨true, false⟩

/-- A descriptor that may be absent. -/
def XCtx.optDesc (x : XCtx) (on : Bool) (va : Nat) : Read (Option Desc) × XCtx :=
  if on then thenRead (x.panDesc va) (fun d x => (.ok (some d), x)) else (.ok none, x)

/-- The content of a rake slot with its descriptors read and checked (R124): vectors FP32 or BF16, statistics FP32,
a block-scaled hold tensor along dimension 0 or 1 (R121). -/
def XCtx.readRake (x : XCtx) (slot : Slot) (words : Option (List (BitVec 64))) : Read Rake × XCtx :=
  match words with
  | none => (.ok Rake.raw, x)
  | some ws =>
    let bs := blockBytes ws
    let r : Rake := ⟨bs, none, none, none, none, none⟩
    let vecOk (d : Option Desc) : Bool := d.all (fun d => d.fmt.elem == .fp32 || d.fmt.elem == .bf16)
    let fpOk (d : Option Desc) : Bool := d.all (fun d => d.fmt.elem == .fp32)
    thenRead (x.optDesc (r.op 0 && r.scaleKind != 0) (recNat bs 16 8)) fun sv x =>
    thenRead (x.optDesc (r.op 1 && r.biasKind != 0) (recNat bs 24 8)) fun bv x =>
    thenRead (x.optDesc (r.op 2 || r.deriv) (recNat bs 32 8)) fun h x =>
    thenRead (x.optDesc (r.op 3) (recNat bs 40 8)) fun rs x =>
    thenRead (x.optDesc (r.op 4) (recNat bs 48 8)) fun sm x =>
      if vecOk sv && vecOk bv && fpOk rs && fpOk sm && h.all (fun (h : Desc) => !h.fmt.scaled || decide (h.scaleDim ≤ 1)) then
        (.ok ⟨bs, sv, bv, h, rs, sm⟩, x)
      else (.bad (bad1001 4 x.core slot), x)

/-- The placement rule of R121 for a destination. Slot RAW has no BLK_DIM that a block-scaled destination could disagree with, so
that either direction is accepted there (DESIGN CHOICE, log entry 86). -/
def placed (d : Desc) (slot : Slot) (r : Rake) : Bool :=
  !d.fmt.scaled || (decide (d.scaleDim ≤ 1) && (slot == .raw || d.scaleDim == r.blkDim))

/-- The continuation rule of R75. -/
def contOk (c : Option Desc) (kappa : BitVec 64) (ip : Bool) : Bool :=
  match c with
  | none => true
  | some d => kappa.toNat % 32 == 0 && d.fmt.elem == (if ip then .int32 else .fp32)

/-- The words of the slot a command names: none where RAW. -/
def PanSt.slotWords (q : PanSt) : Slot → Option (List (BitVec 64))
  | .raw => none
  | .slot i => q.slots[i]

/-- A slot never loaded refuses the command (R125). -/
def PanSt.slotMissing (q : PanSt) : Slot → Bool
  | .raw => false
  | .slot i => q.slots[i].isNone

/-- The streaming operand of PAN.STR and PAN.MM: a descriptor or a window record (R213, R295). -/
def XCtx.readStream (x : XCtx) (win : Bool) (va : Nat) (slot : Slot) : Read MatSrc × XCtx :=
  if win then
    let (w, x) := x.readWindow va
    match w with
    | .ok r => (.ok (.win r), x)
    | .refused => (.bad (bad1001 1 x.core slot), x)
    | .bad b => (.bad b, x)
    | .lost => (.lost, x)
  else thenRead (x.panDesc va) (fun d x => (.ok (.mem d false 0 0), x))

/-- The descriptor behind a streaming operand. -/
def MatSrc.desc : MatSrc → Option Desc
  | .mem d _ _ _ => some d
  | .win w => some w.input
  | _ => none

/-- An empty convolution output (R221). -/
def MatSrc.emptyDim : MatSrc → Option (Nat × Int)
  | .win w => w.emptyDim
  | _ => none

/-- Rows of a streaming operand, where it fixes them. -/
def MatSrc.rowCount : MatSrc → Nat
  | .mem d _ _ _ => d.rows
  | .win w => if w.emptyDim.isSome then 0 else if w.walk then w.kw else w.count
  | _ => 0

/-- The reduction length of a window command differs from the K extent or exceeds 2^20 (R215). -/
def MatSrc.badReduction (src : MatSrc) (k : Nat) : Bool :=
  match src with
  | .win w =>
    if w.walk then w.emptyDim.isNone && (decide (w.count ≠ k) || decide (2 ^ 20 < w.count))
    else decide (w.kw ≠ k) || decide (2 ^ 20 < w.kw)
  | _ => false

/-- A tile read from a stationary descriptor. -/
def XCtx.readTile (x : XCtx) (f : Fmt) (src : MatSrc) (k n : Nat) : List Cell × XCtx :=
  x.collect (fun x (i, j) => x.matCell f src i j) ((List.range k).flatMap (fun i => (List.range n).map (fun j => (i, j))))

/-- PAN.LDS as it begins (R136): the tile without its cells, and where they come from. -/
def XCtx.buildLds (x : XCtx) (q : PanSt) (policy : Nat) (cmd : UnitCmd) (turn narrow : Bool) (sel : FoldSel) :
    Read (Tile × MatSrc) × XCtx :=
  let bad (c : Nat) (x : XCtx) : Read (Tile × MatSrc) × XCtx := (.bad (bad1001 c x.core .raw), x)
  let k := (cmd.word 3).toNat
  let n := (cmd.word 4).toNat
  if k = 0 ∨ n = 0 then bad 1 x
  else
    thenRead (x.panDesc (cmd.va 0)) fun d x =>
      match ldsClass d.fmt narrow with
      | none => bad 1 x
      | some cls =>
        match q.foldOf sel policy cls k with
        | none => bad 5 x
        | some fold =>
          if panDepth cls fold < k ∨ q.side fold < n then bad 6 x
          else
            let ko := (cmd.word 1).toNat
            let no := (cmd.word 2).toNat
            (.ok (⟨true, q.arrays fold, d.fmt, d.field, cls, fold, no, k, n, [], some cmd⟩, .mem d turn ko no), x)

/-- The pair check of R79 and the class check of R137. -/
def pairBad (s t : Fmt) (sField tField : BitVec 8) (core : Nat) : Option Bad :=
  if (pairClass s t).isSome then none else some (bad1103 sField.toNat tField.toNat core)

/-- Arrays that a stream against a tile runs on: those that hold it and are available (R110, R136, R144). -/
def PanSt.holding (q : PanSt) (t : Tile) : List Nat := (q.arrays t.fold).filter t.arrays.contains

/-- PAN.STR against a tile (R137). A tile that a fence has left no array is refused with cause 0x05 and one that no longer fits
the narrowed array with cause 0x06, as a load of it would be (DESIGN CHOICE, log entry 87). -/
def XCtx.buildStr (x : XCtx) (q : PanSt) (cmd : UnitCmd) (win : Bool) (slot : Slot) (words : Option (List (BitVec 64)))
    (tile : Tile) : Read (PanJob × Rake) × XCtx :=
  let bad (b : Bad) (x : XCtx) : Read (PanJob × Rake) × XCtx := (.bad b, x)
  let core := x.core
  let rows := (cmd.word 2).toNat
  if win ∧ (cmd.word 1 ≠ 0 ∨ cmd.word 2 ≠ 0) then bad (bad1001 1 core slot) x
  else
    thenRead (x.readStream win (cmd.va 0) slot) fun src x =>
    thenRead (x.optDesc (cmd.word 3 != 0) (cmd.va 3)) fun cont x =>
    thenRead (x.panDesc (cmd.va 5)) fun dst x =>
      match src.desc with
      | none => (.lost, x)
      | some sd =>
        if src.badReduction tile.k then bad (bad1001 1 core slot) x
        else
          match pairBad sd.fmt tile.fmt sd.field tile.field core with
          | some b => bad b x
          | none =>
            if pairClass sd.fmt tile.fmt ≠ some tile.cls then bad (bad1001 9 core slot) x
            else
              thenRead (x.readRake slot words) fun r x =>
                if !placed dst slot r then bad (bad1001 4 core slot) x
                else if !contOk cont (cmd.word 4) (tile.cls == 3) then
                  bad (bad1104 (cmd.word 4) ((cont.map (·.field.toNat)).getD 0) core) x
                else if (q.holding tile).isEmpty then bad (bad1001 5 core slot) x
                else if q.side tile.fold < tile.n then bad (bad1001 6 core slot) x
                else
                  let m := if win then src.rowCount else rows
                  let src : MatSrc := match src with
                    | .mem d t _ c0 => .mem d t (cmd.word 1).toNat c0
                    | s => s
                  let part : PanPart := ⟨cmd, 0, sd.fmt, src, m, dst, (cmd.word 6).toNat, tile.nOff, false, cont⟩
                  let stat : MatSrc := if tile.known then .cells tile.n tile.cells else .unknown
                  let arr := q.holding tile
                  let j : PanJob := {
                    cmd := cmd, role := 0, fold := tile.fold, cls := tile.cls, intPath := tile.cls == 3
                    tFmt := tile.fmt, stat := stat, statAt := stat
                    k := tile.k, n := tile.n
                    kappa := if cont.isSome then (cmd.word 4).toNat else 0
                    parts := [part], rake := words, engCols := [], lds := tile.src
                    units := strUnits m tile.n arr.length, passes := [] }
                  (.ok (j.planned q arr true, r), x)

/-- PAN.MM (R112, R113). -/
def XCtx.buildMm (x : XCtx) (q : PanSt) (policy : Nat) (cmd : UnitCmd) (turn win : Bool) (slot : Slot) (sel : FoldSel)
    (words : Option (List (BitVec 64))) : Read (PanJob × Rake) × XCtx :=
  let bad (b : Bad) (x : XCtx) : Read (PanJob × Rake) × XCtx := (.bad b, x)
  let core := x.core
  thenRead (x.readStream win (cmd.va 0) slot) fun src x =>
  thenRead (x.panDesc (cmd.va 1)) fun st x =>
  thenRead (x.optDesc (cmd.word 2 != 0) (cmd.va 2)) fun cont x =>
  thenRead (x.panDesc (cmd.va 4)) fun dst x =>
    match src.desc with
    | none => (.lost, x)
    | some sd =>
      let k := if turn then st.cols else st.rows
      let n := if turn then st.rows else st.cols
      if k = 0 ∨ 2 ^ 20 < k ∨ 2 ^ 16 < n ∨ src.badReduction k then bad (bad1001 1 core slot) x
      else
        match pairClass sd.fmt st.fmt with
        | none => bad (bad1103 sd.field.toNat st.field.toNat core) x
        | some cls =>
          thenRead (x.readRake slot words) fun r x =>
            if !placed dst slot r then bad (bad1001 4 core slot) x
            else if !contOk cont (cmd.word 3) (cls == 3) then
              bad (bad1104 (cmd.word 3) ((cont.map (·.field.toNat)).getD 0) core) x
            else
              match q.foldOf sel policy cls k with
              | none => bad (bad1001 5 core slot) x
              | some fold =>
                let m := src.rowCount
                let j : PanJob := {
                  cmd := cmd, role := 0, fold := fold, cls := cls, intPath := cls == 3
                  tFmt := st.fmt, stat := .mem st turn 0 0, statAt := .mem st turn 0 0, k := k, n := n
                  kappa := if cont.isSome then (cmd.word 3).toNat else 0
                  parts := [⟨cmd, 0, sd.fmt, src, m, dst, 0, 0, false, cont⟩], rake := words, engCols := [], lds := none
                  units := if m = 0 ∨ n = 0 then [] else q.mmUnits cls fold m n (r.op 3 || r.op 4), passes := [] }
                (.ok (j.planned q (q.arrays fold) false, r), x)

/-- A PAN.FILL request as the gate accepts it (R131, R132): extents, rows, formats, block placement. -/
def XCtx.checkFill (x : XCtx) (q : PanSt) (policy : Nat) (cmd : UnitCmd) (slot : Slot) (words : Option (List (BitVec 64))) :
    Read FillReq × XCtx :=
  let bad (b : Bad) (x : XCtx) : Read FillReq × XCtx := (.bad b, x)
  let core := x.core
  let k := (cmd.word 3).toNat
  let n := (cmd.word 4).toNat
  let r := (cmd.word 7).toNat
  if k = 0 ∨ 2 ^ 20 < k ∨ 2 ^ 16 < n then bad (bad1001 1 core slot) x
  else if r = 0 ∨ 4096 < r then bad (bad1001 7 core slot) x
  else
    thenRead (x.panDesc (cmd.va 0)) fun st x =>
    thenRead (x.panDesc (cmd.va 5)) fun src x =>
    thenRead (x.panDesc (cmd.va 8)) fun dst x =>
      match pairClass src.fmt st.fmt with
      | none => bad (bad1103 src.field.toNat st.field.toNat core) x
      | some cls =>
        thenRead (x.readRake slot words) fun rk x =>
          if (slot ≠ .raw ∧ rk.blkDim = 1) ∨ (dst.fmt.scaled ∧ dst.scaleDim = 1) then bad (bad1001 8 core slot) x
          else if !placed dst slot rk then bad (bad1001 4 core slot) x
          else
            match q.foldOf .auto policy cls k with
            | none => bad (bad1001 5 core slot) x
            | some fold =>
              if panDepth cls fold < k ∨ q.side fold < n then bad (bad1001 6 core slot) x
              else (.ok ⟨cmd, st, src, dst⟩, x)

/-- A fired batch as one product (R134, R135): its rows in arrival order. -/
def XCtx.buildFill (x : XCtx) (q : PanSt) (policy : Nat) (reqs : List FillReq) (turn : Bool) (slot : Slot)
    (words : Option (List (BitVec 64))) : Read (PanJob × Rake) × XCtx :=
  match reqs with
  | [] => (.lost, x)
  | f :: _ =>
    match pairClass f.src.fmt f.stat.fmt with
    | none => (.bad (bad1103 f.src.field.toNat f.stat.field.toNat x.core), x)
    | some cls =>
      thenRead (x.readRake slot words) fun r x =>
        let k := (f.cmd.word 3).toNat
        let n := (f.cmd.word 4).toNat
        match q.foldOf .auto policy cls k with
        | none => (.bad (bad1001 5 x.core slot), x)
        | some fold =>
          if panDepth cls fold < k ∨ q.side fold < n then (.bad (bad1001 6 x.core slot), x)
          else
            let no := (f.cmd.word 2).toNat
            let parts := reqs.zipIdx.map (fun (g, i) => ({
              cmd := g.cmd, req := i, fmt := g.src.fmt, src := .mem g.src false (g.cmd.word 6).toNat 0, rows := (g.cmd.word 7).toNat, dst := g.dst
              drow := (g.cmd.word 9).toNat, dcol := no, vec := false, cont := none } : PanPart))
            let m := (parts.map (·.rows)).foldl (· + ·) 0
            let j : PanJob := {
              cmd := f.cmd, role := 0, fold := fold, cls := cls, intPath := cls == 3
              tFmt := f.stat.fmt, stat := .mem f.stat turn (f.cmd.word 1).toNat no
              statAt := .mem f.stat turn (f.cmd.word 1).toNat no
              k := k, n := n, kappa := 0, parts := parts, rake := words, engCols := [], lds := some f.cmd
              units := if n = 0 then [] else [⟨[(0, m)], 0, n⟩], passes := [] }
            (.ok (j.planned q (q.arrays fold) true, r), x)

/-- Block fields of PAN.TWIN (R148 to R150). -/
structure TwinOps where
  dy : Desc
  w : Desc
  x : Desc
  dx : Desc
  cont : Option Desc
  dw : Desc
  db : Option Desc
  cls : Nat
  rx : Rake
  rg : Rake
  deriving Repr

/-- PAN.TWIN's checks when it begins (R151, R152, R156, R162, R163, R165). `wc`, `wg` are the FOLD1 widths. A block-scaled INT8
pair belongs to the first row of R97's table, which the rule calls the 8-bit floating-point class, and is accepted (DEDUCED, log
entry 88). -/
def XCtx.checkTwin (x : XCtx) (wc wg : Nat) (cmd : UnitCmd) (acc : Bool) (xslot gslot : Slot)
    (xw gw : Option (List (BitVec 64))) : Read TwinOps × XCtx :=
  let bad (b : Bad) (x : XCtx) : Read TwinOps × XCtx := (.bad b, x)
  let core := x.core
  let m := (cmd.word 2).toNat
  let nt := (cmd.word 4).toNat
  let kt := (cmd.word 7).toNat
  if kt = 0 ∨ nt = 0 ∨ 2 ^ 20 < m then bad (bad1001 1 core xslot) x
  else
    thenRead (x.panDesc (cmd.va 0)) fun dy x =>
    thenRead (x.panDesc (cmd.va 5)) fun w x =>
    thenRead (x.panDesc (cmd.va 8)) fun xd x =>
    thenRead (x.panDesc (cmd.va 9)) fun dx x =>
    thenRead (x.optDesc (cmd.word 10 != 0) (cmd.va 10)) fun cont x =>
    thenRead (x.panDesc (cmd.va 12)) fun dw x =>
    thenRead (x.optDesc (cmd.word 13 != 0) (cmd.va 13)) fun db x =>
      let ok (c : Option Nat) : Bool := c == some 0 || c == some 2
      let c := pairClass dy.fmt w.fmt
      if !ok c then bad (bad1103 dy.field.toNat w.field.toNat core) x
      else if !ok (pairClass xd.fmt dy.fmt) then bad (bad1103 xd.field.toNat dy.field.toNat core) x
      else if db.any (fun d => d.fmt.elem != .fp32) then
        bad (bad1103 ((db.map (·.field.toNat)).getD 0) 0 core) x
      else
        let cls := c.getD 0
        if 256 * wc < kt ∨ min (panDepth cls 1) (256 * wg) < nt then bad (bad1001 6 core xslot) x
        else
          thenRead (x.readRake xslot xw) fun rx x =>
          thenRead (x.readRake gslot gw) fun rg x =>
            if !placed dx xslot rx then bad (bad1001 4 core xslot) x
            else if !placed dw gslot rg then bad (bad1001 4 core gslot) x
            else if !contOk cont (cmd.word 11) false then
              bad (bad1104 (cmd.word 11) ((cont.map (·.field.toNat)).getD 0) core) x
            else if acc ∧ !contOk (some dw) (cmd.word 1) false then bad (bad1104 (cmd.word 1) dw.field.toNat core) x
            else (.ok ⟨dy, w, xd, dx, cont, dw, db, cls, rx, rg⟩, x)

/-- Rows of dY in blocks of D (R158): the units of the cross side. -/
def twinBlocks (cls m kt : Nat) : List PanUnit :=
  (cutRuns m (panDepth cls 1)).map (fun (r0, rn) => ⟨[(r0, rn)], 0, kt⟩)

/-- The recurrence of R158 over the blocks left: `c` and `g` are c_b and G_b of the block that `m` heads. The pan-cycles
that the cross side holds row entry (R159). -/
def twinHolds (kt nt : Nat) : List Nat → Nat → Nat → Nat
  | [], _, _ => 0
  | m :: l, c, g =>
    let next := max (c + m) (g + nt + 4)
    if l.isEmpty then 0 else (next - (c + m)) + twinHolds kt nt l next (max (next + 4) (g + kt))

/-- Pan-cycles of cross-side hold of a PAN.TWIN of class `cls` (R159), K_t' being one more with DB. -/
def twinHold (cls : Nat) (cmd : UnitCmd) : Nat :=
  twinHolds ((cmd.word 7).toNat + b2n (cmd.word 13 != 0)) (cmd.word 4).toNat
    ((cutRuns (cmd.word 2).toNat (panDepth cls 1)).map (·.2)) 0 4

/-- The cross side's product (R149, R150). `pre` is the preloaded W tile (R160). -/
def crossJob (q : PanSt) (cmd : UnitCmd) (o : TwinOps) (turn : Bool) (words : Option (List (BitVec 64)))
    (pre : Option (List Cell)) : PanJob :=
  let m := (cmd.word 2).toNat
  let nt := (cmd.word 4).toNat
  let kt := (cmd.word 7).toNat
  let n0 := (cmd.word 3).toNat
  let k0 := (cmd.word 6).toNat
  -- cell (n, k) holds W[k][n]; with TURN the descriptor's row is k
  let w : MatSrc := .mem o.w turn n0 k0
  let stat : MatSrc := match pre with
    | some l => .cells kt l
    | none => w
  ({ cmd := cmd, role := 1, fold := 1, cls := o.cls, intPath := false, tFmt := o.w.fmt
     stat := stat, statAt := w, k := nt, n := kt, kappa := if o.cont.isSome then (cmd.word 11).toNat else 0
     parts := [⟨cmd, 0, o.dy.fmt, .mem o.dy false (cmd.word 1).toNat n0, m, o.dx, (cmd.word 1).toNat, k0, false, o.cont⟩]
     rake := words, engCols := [], lds := none, units := twinBlocks o.cls m kt, passes := [] } : PanJob).planned q (q.arrays 1) true

/-- The gather side's product (R149, R150, R163, R165). Both its results start at index m0 of their logical products. Its tile
is dY; the rows come over the twin bus as the cross side reads them (R147). -/
def gatherJob (q : PanSt) (cmd : UnitCmd) (o : TwinOps) (xt acc : Bool) (words : Option (List (BitVec 64))) : PanJob :=
  let m0 := (cmd.word 1).toNat
  let m := (cmd.word 2).toNat
  let nt := (cmd.word 4).toNat
  let kt := (cmd.word 7).toNat
  let n0 := (cmd.word 3).toNat
  let k0 := (cmd.word 6).toNat
  let px : PanPart := ⟨cmd, 0, o.x.fmt, .mem o.x xt k0 m0, kt, o.dw, k0, n0, false, if acc then some o.dw else none⟩
  let pb : List PanPart := match o.db with
    | some b => [⟨cmd, 0, o.x.fmt, .ones, 1, b, 0, n0, true, if acc then some b else none⟩]
    | none => []
  ({ cmd := cmd, role := 2, fold := 1, cls := o.cls, intPath := false, tFmt := o.dy.fmt
     stat := .mem o.dy false m0 n0, statAt := .mem o.dy false m0 n0, k := m, n := nt, kappa := m0
     parts := px :: pb, rake := words, engCols := [], lds := none
     units := if m = 0 then [] else [⟨[(0, kt + pb.length)], 0, nt⟩], passes := [] } : PanJob).planned q (q.arrays 1) true

end Sys2Proof.Machine
end

