-- ==== Sys2Proof/Machine/Stacker.lean ====
section
/-! DEFINITION. The Stacker (R358 to R372, R377 to R379): placing, freeing and moving pages, the map of logical dies,
migration and evacuation, and translation invalidation (R368). -/

namespace Sys2Proof.Machine

/-- A Stacker register; the four dies' blocks are views of it. -/
def stkReg (off : Nat) : Nat := memBase 0 + off

/-- Changes the Stacker. -/
def State.onStk (s : State) (f : StkSt → StkSt) : State := { s with stk := f s.stk }

/-! Frames (R353, R354, R358, R377). A frame is named by its physical address divided by 65,536. -/

/-- First frame and number of frames of the near region of a die. -/
def State.nearSpan (s : State) (d : Nat) : Nat × Nat := (d * 2 ^ 23, (80 - s.sharedGiB) * 65536)

/-- First frame and number of frames of the shared region. -/
def State.sharedSpan (s : State) : Nat × Nat := (2 ^ 25, s.sharedGiB * 262144)

/-- Retired pseudo-channels of a stack, bit p for pseudo-channel p (MEM_PC_RETIRED). -/
def State.retiredPcs (s : State) (k : Nat) : BitVec 64 := s.reg (memBase (k / 4) + 0x2008 + 0x100 * (k % 4))

/-- The stacks and pseudo-channels a frame lies on. -/
def State.framePcs (s : State) (f : Nat) : List (Nat × Nat) :=
  if f < 2 ^ 25 then
    let b := f % 2 ^ 23
    (List.range 4).map (fun j => (4 * (f / 2 ^ 23) + j, pcOf (16384 * b)))
  else
    let m := f - 2 ^ 25
    let b := (80 - s.sharedGiB) * 65536 + 4 * (m / 16)
    (List.range 4).map (fun i => (m % 16, pcOf (16384 * (b + i))))

/-- The frame uses a retired pseudo-channel (R377). -/
def State.withdrawn (s : State) (f : Nat) : Bool := (s.framePcs f).any (fun q => (s.retiredPcs q.1).getLsbD q.2)

/-- Frames in use, as first frame and count: pages, destinations of moves, the frame table (R355), page tables. -/
def State.usedSpans (s : State) : List (Nat × Nat) :=
  (bitsOf (s.reg (stkReg 0x18)) 47 16, 5120) ::
    (s.stk.allocs.map (fun (a : PageAlloc) => (a.pa / 65536, a.frames)) ++
      s.stk.moves.map (fun (m : PageMove) => (m.new / 65536, m.frames)) ++
      s.stk.tables.map (fun (t : TableFrame) => (t.frame, 1)))

/-- The end of a span that meets `n` frames from `f`. -/
def blockEnd (spans : List (Nat × Nat)) (f n : Nat) : Option Nat :=
  match spans.find? (fun q => decide (f < q.1 + q.2) && decide (q.1 < f + n) && decide (0 < q.2)) with
  | some q => some (q.1 + q.2)
  | none => none

/-- The first run of `n` frames, aligned to `n` from `base`, at or after `f` and before `stop`, that no span meets, that
holds no withdrawn frame and that `p` picks. -/
def State.scanRun (s : State) (spans : List (Nat × Nat)) (n stop : Nat) (p : Nat → Bool) : Nat → Nat → Option Nat
  | 0, _ => none
  | fuel + 1, f =>
    if stop < f + n then none
    else
      match blockEnd spans f n with
      | some e => s.scanRun spans n stop p fuel ((e + n - 1) / n * n)
      | none =>
        if p f && (List.range n).all (fun i => !s.withdrawn (f + i)) then some f
        else s.scanRun spans n stop p fuel (f + n)

/-- The lowest free run of `n` frames (1 or 32) of a region that `p` picks (R361, R362). -/
def State.lowestRun (s : State) (spans : List (Nat × Nat)) (span : Nat × Nat) (n : Nat) (p : Nat → Bool) : Option Nat :=
  s.scanRun spans n (span.1 + span.2) p (span.2 / n + spans.length + 1) span.1

/-- Free
runs of `n` frames of a region: those no span meets and no withdrawn frame lies in. -/
def State.freeRuns (s : State) (spans : List (Nat × Nat)) (span : Nat × Nat) (n : Nat) (p : Nat → Bool) : Nat :=
  ((List.range (span.2 / n)).filter (fun i =>
    let f := span.1 + n * i
    p f && (blockEnd spans f n).isNone && (List.range n).all (fun i => !s.withdrawn (f + i)))).length

/-- The die with the most free runs, lowest index on ties; none when no die has one (R361, R378). -/
def bestDie (count : Nat → Nat) : Option Nat :=
  let l := (List.range 4).map count
  let m := l.foldl max 0
  if m = 0 then none else some (l.idxOf m)

/-- A near run of `n` frames on a die. -/
def State.nearRun (s : State) (spans : List (Nat × Nat)) (d n : Nat) : Option Nat :=
  s.lowestRun spans (s.nearSpan d) n (fun _ => true)

/-- A near run on a die, else on the die with the most; true when off the die asked (R361). -/
def State.placeNear (s : State) (spans : List (Nat × Nat)) (d n : Nat) : Option (Nat × Bool) :=
  match s.nearRun spans d n with
  | some f => some (f, false)
  | none =>
    match bestDie (fun e => s.freeRuns spans (s.nearSpan e) n (fun _ => true)) with
    | some e => (s.nearRun spans e n).map (fun f => (f, true))
    | none => none

/-- The stack of a shared frame. -/
def sharedStack (f : Nat) : Nat := (f - 2 ^ 25) % 16

/-- The lowest free shared frame on the first of the sixteen stacks from `k` on that has one (R362). -/
def State.placeShared (s : State) (spans : List (Nat × Nat)) (k : Nat) : Option Nat :=
  (List.range 16).findSome? (fun i => s.lowestRun spans s.sharedSpan 1 (fun f => sharedStack f == (k + i) % 16))

/-! Page tables (R339, R360). -/

/-- The entry that holds the leaf of a page: its physical address and value, or RESULT 2 NO_TABLE or 3 MAPPED. -/
def State.leafFrom (s : State) (va stop : Nat) : Nat → Nat → Nat → Except Nat (Nat × Nat)
  | 0, _, _ => .error 2
  | fuel + 1, l, table =>
    let ea := table + 8 * (va / 2 ^ (levelShift l).1 % (levelShift l).2)
    if (s.region ea).isNone then .error 2
    else
      let e := s.entryAt ea
      if l = stop then .ok (ea, e)
      else if e % 2 = 0 then .error 2
      else if e / 2 % 2 = 1 then .error 3
      else s.leafFrom va stop fuel (l + 1) (e / 256 % 2 ^ 40 * 256)

/-- The leaf entry of a page of 1 or 32 frames. -/
def State.leafEntry (s : State) (part va frames : Nat) : Except Nat (Nat × Nat) :=
  let b := s.reg (0x300120 + 8 * part)
  if b.getLsbD 0 then s.leafFrom va (if frames = 1 then 3 else 2) 4 0 (bitsOf b 47 16 * 65536) else .error 2

/-- Whether a level-3 table holds a mapped page. -/
def State.tableUsed (s : State) (table : Nat) : Bool :=
  (List.range 32).any (fun i => s.entryAt (table + 8 * i) % 2 == 1)

/-- RESULT of the check of one page before it is placed: none when its entry is there and no page of it is mapped. -/
def State.leafCheck (s : State) (part va frames : Nat) : Option Nat :=
  match s.leafEntry part va frames with
  | .error r => some r
  | .ok (_, e) =>
    if e % 2 = 0 then none
    else if frames = 32 ∧ e / 2 % 2 = 0 ∧ !s.tableUsed (e / 256 % 2 ^ 40 * 256) then none
    else some 3

/-- A leaf entry of fast memory (R340). -/
def leafWord (pa perm : Nat) (pin : Bool) : Nat := 1 + 2 + 4 * perm + 32 * b2n pin + pa

/-- Writes the leaf entry of a page; nothing when its table is gone. -/
def State.putLeaf (s : State) (part va frames w : Nat) : State :=
  match s.leafEntry part va frames with
  | .ok (ea, _) => s.store ea (leBytes 8 w)
  | .error _ => s

/-! Requests (R359 to R363). -/

/-- The end of a request: BUSY clears, DONE and RESULT are set, and a failure raises event 0x1305. -/
def State.stkEnd (s : State) (op result spilled : Nat) : State :=
  let st := s.reg (stkReg 0x38)
  let s := s.setReg (stkReg 0x38) (setBits (setBits (setBits (setBits st 63 32 spilled) 11 8 result) 1 1 1) 0 0 0)
  if result = 0 then s
  else
    s.raiseMod 7 0x1305 (pack [(op, 0), (result, 4), (s.fld (stkReg 0x30) 63 62, 8), (s.fld (stkReg 0x20) 55 16, 16)])
      (s.fld (stkReg 0x30) 63 62)

/-- The physical dies of a partition's logical dies, in logical order. -/
def State.logicalDies (s : State) (part : Nat) : List Nat :=
  (List.range 4).filterMap (fun l => (List.range 4).find? (fun d =>
    match s.stk.lmap[Fin.ofNat 4 d] with
    | some (p, k, _) => p = part ∧ k = l
    | none => false))

/-- Where page `i` of an ALLOC request goes, with the spans used so far and the last page's stack: its frame, whether it
spilled. -/
def State.placePage (s : State) (spans : List (Nat × Nat)) (shared big : Bool) (dies : List Nat) (aff i : Nat)
    (lastStack : Option Nat) : Option (Nat × Bool) :=
  let n := if big then 32 else 1
  if shared then
    if big then (s.lowestRun spans s.sharedSpan 32 (fun _ => true)).map (fun f => (f, false))
    else
      match lastStack with
      | none => (s.lowestRun spans s.sharedSpan 1 (fun _ => true)).map (fun f => (f, false))
      | some k => (s.placeShared spans (k + 1)).map (fun f => (f, false))
  else
    let l := if aff = 7 then i % dies.length else aff
    s.placeNear spans ((dies[l]?).getD 0) n

/-- Places every page of a request in ascending virtual order: frames and spills, or none for NO_SPACE. -/
def State.placeAll (s : State) (shared big : Bool) (dies : List Nat) (aff : Nat) :
    Nat → Nat → List (Nat × Nat) → Option Nat → Option (List (Nat × Bool))
  | 0, _, _, _ => some []
  | k + 1, i, spans, last =>
    match s.placePage spans shared big dies aff i last with
    | none => none
    | some (f, sp) =>
      (s.placeAll shared big dies aff k (i + 1) ((f, if big then 32 else 1) :: spans) (some (sharedStack f))).map
        (fun l => (f, sp) :: l)

/-- One page of an accepted ALLOC: the frame table's record, its leaf, and the count of a spill. -/
def State.mapPage (s : State) (part va frames f : Nat) (shared pin : Bool) (perm : Nat) (spill : Bool) : State :=
  let pa := 65536 * f
  let s := s.putLeaf part va frames (leafWord pa perm pin)
  let s := s.onStk (fun k => { k with allocs := k.allocs ++ [⟨part, va, frames, shared, pin, perm, pa⟩] })
  if spill then s.count (memBase (pa / 2 ^ 39) + 0x3840) 1 else s

/-- An ALLOC request (R360 to R362). -/
def State.stkAlloc (s : State) : State :=
  let r := s.reg (stkReg 0x30)
  let part := bitsOf r 63 62
  let big := r.getLsbD 4
  let shared := r.getLsbD 5
  let aff := bitsOf r 8 6
  let pin := r.getLsbD 9
  let perm := bitsOf r 12 10
  let n := if big then 32 else 1
  let va := 65536 * s.fld (stkReg 0x20) 55 16
  let len := s.fld (stkReg 0x28) 24 0
  let dies := s.logicalDies part
  let badAff : Bool := !shared && (if aff = 7 then dies.isEmpty else decide (dies.length ≤ aff))
  if len = 0 ∨ len % n ≠ 0 ∨ va % (65536 * n) ≠ 0 ∨ 2 ^ 56 < va + 65536 * len ∨ badAff then s.stkEnd 1 5 0
  else
    let pages := (List.range (len / n)).map (fun i => va + 65536 * n * i)
    match pages.findSome? (fun v => s.leafCheck part v n) with
    | some c => s.stkEnd 1 c 0
    | none =>
      match s.placeAll shared big dies aff (len / n) 0 s.usedSpans none with
      | none => s.stkEnd 1 1 0
      | some l =>
        let s := (pages.zip l).foldl (fun s (q : Nat × Nat × Bool) => s.mapPage part q.1 n q.2.1 shared pin perm q.2.2) s
        let spilled := (l.filter (fun (q : Nat × Bool) => q.2)).length
        let s := if spilled = 0 then s
          else s.raiseMod 7 0x1306 (pack [(part, 0), (aff, 2), (spilled, 32)]) part
        s.stkEnd 1 0 spilled

/-- The pages of a partition that begin in a range. -/
def State.pagesIn (s : State) (part va frames : Nat) : List PageAlloc :=
  s.stk.allocs.filter (fun (a : PageAlloc) => a.part = part ∧ va ≤ a.va ∧ a.va < va + 65536 * frames)

/-- An access not yet performed that uses a page's frames. -/
def State.accessPending (s : State) (pa frames : Nat) : Bool :=
  s.core.toList.any (fun k => k.acc.any (fun a => decide (pa ≤ a.pa) && decide (a.pa < pa + 65536 * frames) &&
    (match a.op with
      | .ctlRd .. => false
      | .ctlWr .. => false
      | _ => true)))

/-- The end of a FREE request (R363): once no page of it moves and no access that used its entries is pending, the
frames return. -/
def State.stkSettle (s : State) : State :=
  match s.stk.freeing with
  | none => s
  | some (part, va, frames) =>
    let pages := s.pagesIn part va frames
    if pages.any (fun a => s.stk.moves.any (fun m => m.old = a.pa) || s.accessPending a.pa a.frames) then s
    else
      let gone := pages.map (·.pa)
      let s := s.onStk (fun k => { k with
        allocs := k.allocs.filter (fun a => !gone.contains a.pa)
        heat := k.heat.map (fun t => t.filter (fun e => !gone.contains e.pa))
        stranded := k.stranded.filter (fun pa => !gone.contains pa)
        freeing := none })
      s.stkEnd 2 0 0

/-- A FREE request (R363): every leaf cleared at once. -/
def State.stkFree (s : State) : State :=
  let r := s.reg (stkReg 0x30)
  let part := bitsOf r 63 62
  let n := if r.getLsbD 4 then 32 else 1
  let va := 65536 * s.fld (stkReg 0x20) 55 16
  let len := s.fld (stkReg 0x28) 24 0
  if len = 0 ∨ len % n ≠ 0 ∨ va % (65536 * n) ≠ 0 ∨ 2 ^ 56 < va + 65536 * len then s.stkEnd 2 5 0
  else
    let covered := (List.range len).all (fun i => s.stk.allocs.any (fun (a : PageAlloc) =>
      a.part = part ∧ a.va ≤ va + 65536 * i ∧ va + 65536 * i < a.va + 65536 * a.frames))
    let pages := s.pagesIn part va len
    let whole := decide ((pages.map (·.frames)).foldl (· + ·) 0 = len)
    if !covered then s.stkEnd 2 4 0
    else if !whole then s.stkEnd 2 5 0
    else
      let s := pages.foldl (fun s (a : PageAlloc) => s.putLeaf part a.va a.frames 0) s
      (s.onStk (fun k => { k with freeing := some (part, va, len) })).stkSettle

/-! Logical dies (R369 to R372). -/

/-- A physical die is eligible (R369). -/
def State.eligible (s : State) (d : Nat) : Bool :=
  [2 * d, 2 * d + 1].all (fun c =>
    let q := s.pan[Fin.ofNat 8 c]
    !q.whole && decide (0 < q.width) && decide (2 ≤ s.disp[Fin.ofNat 8 c].avail))

/-- A cluster is parked (R371). -/
def State.parkedCluster (s : State) (c : Nat) : Bool :=
  let p := s.reg (clusterBase c + 0x110010)
  bitsOf p 13 8 == bitsOf p 5 0 && s.disp[Fin.ofNat 8 c].running.isNone &&
    (List.range 16).all (fun i =>
      let k := s.core[Fin.ofNat 128 (16 * c + i)]
      (k.mode == .halted || k.mode == .fenced) && k.unitsDone)

/-- A MOVE request (R371): refused, or the logical die is marked MOVING and the copy begins. -/
def State.stkMove (s : State) : State :=
  let r := s.reg (stkReg 0x30)
  let part := bitsOf r 63 62
  let l := bitsOf r 17 16
  let t := bitsOf r 19 18
  match (s.logicalDies part)[l]? with
  | none => s.stkEnd 3 5 0
  | some d =>
    if s.partOfDie t ≠ some part then s.stkEnd 3 5 0
    else if !(s.parkedCluster (2 * d) && s.parkedCluster (2 * d + 1)) then s.stkEnd 3 6 0
    else if !s.eligible t ∨ (s.stk.lmap[Fin.ofNat 4 t]).isSome then s.stkEnd 3 7 0
    else s.onStk (fun k => { k with
      lmap := k.lmap.set (Fin.ofNat 4 d) (some (part, l, true))
      dieMove := some ⟨part, l, d, t, false⟩ })

/-- A write of STK_REQ (R359). -/
def State.stkReqWrite (s : State) (v : BitVec 64) : State :=
  if v.getLsbD 0 then
    if s.fld (stkReg 0x38) 0 0 = 1 then s.setFld (stkReg 0x38) 2 2 1
    else
      let s := (s.setReg (stkReg 0x30) (v &&& 0xC0000000000F1FFE)).setFld (stkReg 0x38) 0 0 1
      match bitsOf v 3 1 with
      | 1 => s.stkAlloc
      | 2 => s.stkFree
      | 3 => s.stkMove
      | op => s.stkEnd op 5 0
  else s.setReg (stkReg 0x30) (v &&& 0xC0000000000F1FFE)

/-- STK_REQ with an operation code and GO. -/
def stkGo (op : Nat) (v : BitVec 64) : BitVec 64 := setBits (setBits v 3 1 op) 0 0 1

/-- Firmware reaches the registers of a die's compute domain (R557). -/
def State.reachesDies (s : State) : Bool := s.awake && !s.domainsOff

/-- STK_ALLOC, STK_FREE and STK_MOVE: STK_REQ written with GO and the operation. -/
def execStkAlloc (v : BitVec 64) (s : State) : Res := .next (if s.reachesDies then s.stkReqWrite (stkGo 1 v) else s)

def execStkFree (v : BitVec 64) (s : State) : Res := .next (if s.reachesDies then s.stkReqWrite (stkGo 2 v) else s)

def execStkMove (v : BitVec 64) (s : State) : Res := .next (if s.reachesDies then s.stkReqWrite (stkGo 3 v) else s)

/-- The RW fields of a register of the control blocks that a MOVE copies (R371), by offset. -/
def copyMask (off : Nat) : BitVec 64 :=
  match slotOf off with
  | some (.reg d b _ _) =>
    match b with
    | .core .. => d.rw ||| d.rwt
    | .disp _ => d.rw ||| d.rwt
    | .pan _ => d.rw ||| d.rwt
    | .cache _ => d.rw ||| d.rwt
    | _ => 0
  | _ => 0

/-- Copies the RW fields of a cluster's core, dispatch, pan, twin and cache registers to another cluster. The ring of a
parked cluster is empty (R371), so HEAD goes with TAIL and the target's ring is empty too. -/
def State.copyRegs (s : State) (a b : Nat) : State :=
  let rel := (s.regs.map (·.1)).filterMap (fun o =>
    if clusterBase a ≤ o ∧ o < clusterBase a + 0x300000 then some (o - clusterBase a)
    else if clusterBase b ≤ o ∧ o < clusterBase b + 0x300000 then some (o - clusterBase b)
    else none)
  rel.foldl (fun s r =>
    if r = 0x110010 then s.setReg (clusterBase b + r) (s.reg (clusterBase a + r))
    else
      let m := copyMask (clusterBase b + r)
      s.setReg (clusterBase b + r) ((s.reg (clusterBase b + r) &&& ~~~m) ||| (s.reg (clusterBase a + r) &&& m))) s

/-- Copies the `n` bytes at `a` to `b`, whole lines, with their poison marks. -/
def State.copyBytes (s : State) (a b n : Nat) : State :=
  let inOld (l : Nat) : Bool := decide (a ≤ 64 * l) && decide (64 * l < a + n)
  let inNew (l : Nat) : Bool := decide (b ≤ 64 * l) && decide (64 * l < b + n)
  let bad := (s.poison.filter inOld).map (fun l => l - a / 64 + b / 64)
  { s with
    mem := s.mem.copy a b n
    poison := bad.foldl (fun m l => setAdd l m) (s.poison.filter (fun l => !inNew l))
    stk := { s.stk with pressed := s.stk.pressed.flatMap (fun (q : Nat × Nat × Elem × Bool) =>
      if b ≤ q.1 ∧ q.1 < b + n then []
      else if a ≤ q.1 ∧ q.1 < a + n then [q, (q.1 - a + b, q.2)]
      else [q]) } }

/-- Copies the local memories of a cluster's cores by logical index, their RW registers, and its retention area to
another cluster, whose cores, pan tiles and rake slots stand as after reset (R259, R371). -/
def State.copyCluster (s : State) (a b : Nat) : State :=
  let s := s.copyRegs a b
  let s := (List.range 16).foldl (fun s i =>
    match s.physOf (Fin.ofNat 8 a) i, s.physOf (Fin.ofNat 8 b) i with
    | some x, some y =>
      let k := s.core[x]
      { s.onCore y (fun q => { coreFresh s.free CoreSt.reset with
        mode := q.mode
        local_ := k.local_
        pc := k.pc
        trapVec := k.trapVec
        trapEpc := k.trapEpc }) with free := s.free + coreFrees }
    | _, _ => s) s
  let s := { s with pan := s.pan.set (Fin.ofNat 8 b) { s.pan[Fin.ofNat 8 b] with
    front := none
    back := none
    preloaded := none
    stripeOn := false
    stripes := []
    lastWin := none
    slots := Vector.replicate 4 none } }
  let ra := 0x60000000000 + a * 2 ^ 27
  let rb := 0x60000000000 + b * 2 ^ 27
  s.copyBytes ra rb (2 ^ 26)

/-- Remaps a partition's leaf entries of one cluster's retention area to another's (R171, R371): every leaf of KIND 2
under the partition's table. `f` gives the new address of a leaf. -/
def State.remapFrom (f : Nat → Nat) : Nat → Nat → Nat → State → State
  | 0, _, _, s => s
  | fuel + 1, l, table, s =>
    (List.range (levelShift l).2).foldl (fun s i =>
      let ea := table + 8 * i
      if (s.region ea).isNone then s
      else
        let e := s.entryAt ea
        if e % 2 = 0 then s
        else if e / 2 % 2 = 1 then
          if e / 64 % 4 = 2 then
            s.store ea (leBytes 8 (e - e / 256 % 2 ^ 40 * 256 + f (e / 256 % 2 ^ 40 * 256)))
          else s
        else if fuel = 0 then s
        else State.remapFrom f fuel (l + 1) (e / 256 % 2 ^ 40 * 256) s) s

/-- The MOVE copy completes (R371): DONE, event 0x1307; the map changes at action 7 of the next edge (R370). -/
def execStkMoveComplete (s : State) : Res :=
  .next (match s.stk.dieMove with
    | some m =>
      if m.copied then s
      else
        let s := (s.copyCluster (2 * m.old) (2 * m.target)).copyCluster (2 * m.old + 1) (2 * m.target + 1)
        let area (c : Nat) : Nat := 0x60000000000 + c * 2 ^ 27
        let f (pa : Nat) : Nat :=
          if area (2 * m.old) ≤ pa ∧ pa < area (2 * m.old + 2) then pa - area (2 * m.old) + area (2 * m.target) else pa
        let b := s.reg (0x300120 + 8 * m.part)
        let s := if b.getLsbD 0 then State.remapFrom f 4 0 (bitsOf b 47 16 * 65536) s else s
        let s := s.onStk (fun k => { k with dieMove := some { m with copied := true } })
        (s.raiseMod 7 0x1307 (pack [(m.part, 0), (m.ldie, 2), (m.old, 4), (m.target, 6)]) m.part).stkEnd 3 0 0
    | none => s)

/-- The map changes by a MOVE whose copy completed before the edge (R370). -/
def State.fixMap (s : State) : State :=
  match s.stk.dieMove with
  | some m =>
    if m.copied then s.onStk (fun k => { k with
      lmap := (k.lmap.set (Fin.ofNat 4 m.old) none).set (Fin.ofNat 4 m.target) (some (m.part, m.ldie, false))
      dieMove := none })
    else s
  | none => s

/-! Migration (R364 to R367) and evacuation (R377 to R379). -/

/-- Every heat count halved (R364). -/
def execHeatDecay (s : State) : Res :=
  .next (if max 1 (s.fld (stkReg 8) 63 48) ≤ s.stk.decayTides then
      s.onStk (fun k => { k with
        decayTides := 0
        heat := k.heat.map (fun t => t.map (fun (e : HeatEntry) => { e with counts := e.counts.map (· / 2) })) })
    else s)

/-- The move access of every line of one frame (R367): contents and poison at the new home. -/
def State.moveFrame (s : State) (a b : Nat) : State :=
  let s := (s.meetFlaws a 65536 false none).2
  ((s.copyBytes a b 65536).meetFlaws b 65536 true none).2

/-- The die a frame's counts belong to. -/
def State.dieOfFrame (s : State) (f : Nat) : Nat := (((s.framePcs f).head?).map (fun q => q.1 / 4)).getD 0

/-- Moves frames of one page within a budget; answers what remains. -/
def State.moveFrames (m : PageMove) : Nat → Nat → State → State × Nat
  | 0, budget, s => (s, budget)
  | fuel + 1, budget, s =>
    match s.stk.moves.find? (fun q => q.old = m.old) with
    | none => (s, budget)
    | some q =>
      if budget = 0 ∨ q.frames ≤ q.moved then (s, budget)
      else
        let a := q.old + 65536 * q.moved
        let b := q.new + 65536 * q.moved
        let s := s.moveFrame a b
        let s := if q.evac then s.count (memBase (s.dieOfFrame (a / 65536)) + 0x3830) 1
          else s.count (memBase (s.dieOfFrame (b / 65536)) + 0x3820) 1
        let s := s.onStk (fun k => { k with
          moves := k.moves.map (fun r => if r.old = q.old then { r with moved := r.moved + 1 } else r) })
        State.moveFrames m fuel (budget - 1) s

/-- The moves in progress of one kind take the window's budget in the order in which they began (R366, R378). -/
def State.advanceMoves (s : State) (evac : Bool) (budget : Nat) : State × Nat :=
  (s.stk.moves.filter (fun (m : PageMove) => m.evac == evac)).foldl
    (fun (q : State × Nat) m => State.moveFrames m 32 q.2 q.1) (s, budget)

/-- Begins a move of a page to frame `f`, and moves what the budget allows. -/
def State.beginMove (s : State) (a : PageAlloc) (f : Nat) (evac : Bool) (budget : Nat) : State × Nat :=
  let m : PageMove := ⟨a.part, a.va, a.frames, a.pa, 65536 * f, 0, evac⟩
  State.moveFrames m 32 budget (s.onStk (fun k => { k with moves := k.moves ++ [m] }))

/-- A FREE request has unmapped the page. -/
def State.pageFreed (s : State) (a : PageAlloc) : Bool :=
  match s.stk.freeing with
  | some (p, va, n) => decide (a.part = p ∧ va ≤ a.va ∧ a.va < va + 65536 * n)
  | none => false

/-- A page being moved or freed is no candidate (R365). -/
def State.pageBusy (s : State) (a : PageAlloc) : Bool :=
  s.stk.moves.any (fun (m : PageMove) => m.old == a.pa) || s.pageFreed a

/-- Whether a page holds a frame on a pseudo-channel. -/
def State.pageOn (s : State) (a : PageAlloc) (q : Nat × Nat) : Bool :=
  (List.range a.frames).any (fun i => (s.framePcs (a.pa / 65536 + i)).contains q)

/-- The page waits for an evacuation in progress: one that found no destination stays where it is (R365, R379). -/
def State.evacuating (s : State) (a : PageAlloc) : Bool :=
  !s.stk.stranded.contains a.pa && s.stk.evac.any (fun q => s.pageOn a q)

/-- A candidate of R365: its count on the die that uses it most, the page, that die. -/
def State.candidate (s : State) (h : Nat) (e : HeatEntry) : Option (Nat × PageAlloc × Nat) :=
  match s.stk.allocs.find? (fun (a : PageAlloc) => a.pa = e.pa) with
  | none => none
  | some a =>
    let c (d : Nat) : Nat := e.counts[Fin.ofNat 4 d]
    let top := (List.range 4).foldl (fun m d => max m (c d)) 0
    let f := ((List.range 4).find? (fun d => c d = top)).getD h
    if f = h ∨ a.shared ∨ a.pin ∨ s.pageBusy a ∨ top < s.fld (stkReg 8) 47 32 ∨ top ≤ 2 * c h ∨ s.evacuating a then
      none
    else some (top, a, f)

/-- Insertion by descending count, then ascending address. -/
def insCandidate (q : Nat × PageAlloc × Nat) : List (Nat × PageAlloc × Nat) → List (Nat × PageAlloc × Nat)
  | [] => [q]
  | r :: l => if r.1 < q.1 ∨ (r.1 = q.1 ∧ q.2.1.pa < r.2.1.pa) then q :: r :: l else r :: insCandidate q l

/-- The migration candidates in their order (R365). -/
def State.heatCandidates (s : State) : List (Nat × PageAlloc × Nat) :=
  ((List.range 4).flatMap (fun h => (s.stk.heat[Fin.ofNat 4 h]).filterMap (fun e => s.candidate h e))).foldl
    (fun l q => insCandidate q l) []

/-- Begins the candidates that the budget and the free frames allow (R365, R366). -/
def State.beginMigration (s : State) (budget : Nat) : State :=
  (s.heatCandidates.foldl (fun (q : State × Nat) (r : Nat × PageAlloc × Nat) =>
    if q.2 = 0 then q
    else
      match q.1.nearRun q.1.usedSpans r.2.2 r.2.1.frames with
      | some f => q.1.beginMove r.2.1 f false q.2
      | none => q) (s, budget)).1

/-- A destination of an evacuated page (R378): the same class and size, its own die first, else the die with the most
such frames. -/
def State.evacDest (s : State) (a : PageAlloc) : Option Nat :=
  let spans := s.usedSpans
  if a.shared then
    if a.frames = 32 then s.lowestRun spans s.sharedSpan 32 (fun _ => true)
    else
      let own (d : Nat) (f : Nat) : Bool := sharedStack f / 4 == d
      match s.lowestRun spans s.sharedSpan 1 (own (sharedStack (a.pa / 65536) / 4)) with
      | some f => some f
      | none =>
        match bestDie (fun e => s.freeRuns spans s.sharedSpan 1 (own e)) with
        | some e => s.lowestRun spans s.sharedSpan 1 (own e)
        | none => none
  else (s.placeNear spans (a.pa / 2 ^ 39) a.frames).map (·.1)

/-- Pages that evacuations in progress still have to begin, ascending. -/
def State.toEvacuate (s : State) : List PageAlloc :=
  s.stk.allocs.filter (fun (a : PageAlloc) =>
    s.evacuating a && !s.pageBusy a)

/-- Begins evacuation moves within the budget; a page with no destination is stranded (R378, R379). -/
def State.beginEvacuation (s : State) (budget : Nat) : State :=
  (s.toEvacuate.foldl (fun (q : State × Nat) (a : PageAlloc) =>
    if q.2 = 0 then q
    else
      match q.1.evacDest a with
      | some f => q.1.beginMove a f true q.2
      | none => (q.1.onStk (fun k => { k with stranded := setAdd a.pa k.stranded }), q.2)) (s, budget)).1

/-- Action 7 of an edge (R45): the map, the tides of the heat decay, and the window's moves. -/
def State.stackerEdge (s : State) : State :=
  let s := s.fixMap
  let s := s.onStk (fun k => { k with decayTides := k.decayTides + 1 })
  let (s, left) := s.advanceMoves false (min 6 (s.fld (stkReg 8) 23 16) * s.periodUs)
  let s := if s.fld (stkReg 8) 0 0 = 1 then s.beginMigration left else s
  let (s, left) := s.advanceMoves true (min 75 (s.fld (stkReg 8) 31 24) * s.periodUs)
  s.beginEvacuation left

/-- All lines of a moving page have moved and every access that used its old entry is performed: the new leaf is
written, forwarding ends, the old frames are free and the heat count starts again at zero (R367, R368). The leaf of a
page that a FREE request has unmapped stays unmapped. -/
def execPageMoveComplete (i : Fin 256) (s : State) : Res :=
  .next (match s.stk.moves[i.val]? with
    | none => s
    | some m =>
      if m.moved < m.frames ∨ s.accessPending m.old m.frames then s
      else
        let s := match s.stk.allocs.find? (fun (a : PageAlloc) => a.pa = m.old) with
          | some a => if s.pageFreed a = true then s
            else s.putLeaf a.part a.va a.frames (leafWord m.new a.perm a.pin)
          | none => s
        (s.onStk (fun k => { k with
          allocs := k.allocs.map (fun (a : PageAlloc) => if a.pa = m.old then { a with pa := m.new } else a)
          moves := k.moves.filter (fun q => q.old != m.old)
          heat := k.heat.map (fun t => t.filter (fun e => e.pa != m.old)) })).stkSettle)

/-- Pages stranded on a pseudo-channel. -/
def State.strandedOn (s : State) (q : Nat × Nat) : Nat :=
  (s.stk.allocs.filter (fun (a : PageAlloc) => s.stk.stranded.contains a.pa && s.pageOn a q)).length

/-- Evacuation of a retired pseudo-channel ends (R379): no page on it is left but stranded ones. -/
def execEvacuationEnd (k : Fin 16) (p : Fin 64) (s : State) : Res :=
  .next (
    let q := (k.val, p.val)
    if s.stk.evac.contains q && s.stk.allocs.all (fun (a : PageAlloc) => !s.pageOn a q || s.stk.stranded.contains a.pa)
    then
      (s.onStk (fun t => { t with evac := t.evac.filter (fun r => r != q) })).raise (s.stackSrc k.val) 0x1304
        (pack [(k.val, 0), (p.val, 4), (s.strandedOn q, 32)])
    else s)

/-- MEM_STACK_s.EVAC_RETRY (R379): the stack's stranded pages are evacuated again. -/
def State.evacRetry (s : State) (k : Nat) : State :=
  let qs := ((List.range 64).map (fun p => (k, p))).filter (fun q => decide (0 < s.strandedOn q))
  let freed := (s.stk.allocs.filter (fun a => qs.any (fun q => s.pageOn a q))).map (·.pa)
  s.onStk (fun t => { t with
    evac := t.evac ++ qs.filter (fun q => !t.evac.contains q)
    stranded := t.stranded.filter (fun pa => !freed.contains pa) })

def execEvacRetry (k : Fin 16) (s : State) : Res := .next (if s.reachesDies then s.evacRetry k.val else s)

/-- A pseudo-channel retired (R377): event 0x1303, its frames withdrawn, its pages evacuated. -/
def State.retirePc (s : State) (k p : Nat) : State :=
  let off := memBase (k / 4) + 0x2008 + 0x100 * (k % 4)
  if (s.reg off).getLsbD p then s
  else
    let s := (s.setFld off p p 1).onStk (fun t => { t with evac := t.evac ++ [(k, p)] })
    s.raise (s.stackSrc k) 0x1303 (pack [(k, 0), (p, 4)])

/-! Translation invalidation (R368). -/

/-- A write of MMU_INV. -/
def State.mmuInvWrite (s : State) (d : DieIx) (v : BitVec 64) : State :=
  let off := memBase d.val + 0x1010
  let old := s.reg off
  let done := if v.getLsbD 9 then setBits old 9 9 0 else old
  let s := s.setReg off (setBits done 2 1 (bitsOf v 2 1))
  if v.getLsbD 0 && !old.getLsbD 8 then
    (s.setFld off 8 8 1).onStk (fun k => { k with inv := k.inv.set d (some (bitsOf v 2 1,
      65536 * s.fld (memBase d.val + 0x1000) 55 16, s.fld (memBase d.val + 0x1008) 40 0)) })
  else s

def execMmuInvalidate (d : DieIx) (v : BitVec 64) (s : State) : Res :=
  .next (if s.reachesDies then s.mmuInvWrite d (setBits v 0 0 1) else s)

/-- The invalidation completes once every access of the die that used one of its entries is performed: those of a page that any
part of the range lies in (R368). -/
def execMmuInvComplete (d : DieIx) (s : State) : Res :=
  .next (match s.stk.inv[d] with
    | none => s
    | some (part, va, n) =>
      let hit (a : Access) : Bool := s.partOfDie d.val == some part &&
        (n == 0 || (let pg := s.pageOf part a.va
          decide (va < pg.1 + pg.2) && decide (pg.1 < va + 65536 * n))) &&
        (match a.op with
          | .ctlRd .. => false
          | .ctlWr .. => false
          | _ => true)
      if (List.range 32).any (fun i => s.core[Fin.ofNat 128 (32 * d.val + i)].acc.any hit) then s
      else
        let off := memBase d.val + 0x1010
        ((s.setFld off 8 8 0).setFld off 9 9 1).onStk (fun k => { k with inv := k.inv.set d none }))

/-! What STK_STATUS, STK_LMAP, STK_FREE and MEM_STACK read. -/

def State.stkStatus (s : State) : BitVec 64 :=
  pack [(s.fld (stkReg 0) 0 0, 0), (s.fld (stkReg 0x38) 0 0, 1), (b2n (s.stk.moves.any (fun m => !m.evac)), 2),
    (b2n !s.stk.evac.isEmpty, 3), (min 255 s.stk.moves.length, 8)]

def State.stkLmap (s : State) : BitVec 64 :=
  pack ((List.range 4).map (fun d => (match s.stk.lmap[Fin.ofNat 4 d] with
    | some (p, l, mv) => 32 * b2n mv + 16 + 4 * p + l
    | none => 0, 8 * d)))

def State.stkFreeCount (s : State) (d : Nat) : BitVec 64 :=
  let spans := s.usedSpans
  pack [(s.freeRuns spans (s.nearSpan d) 1 (fun _ => true), 0),
    (s.freeRuns spans s.sharedSpan 1 (fun f => sharedStack f / 4 == d), 32)]

/-- The stacks hold their contents in self-refresh (R381): in M1 and M2. -/
def State.selfRefresh (s : State) : Bool := s.fld 0x100000 7 4 == 1 || s.fld 0x100000 7 4 == 2

def State.memStack (s : State) (k : Nat) : BitVec 64 :=
  let gone := ((List.range 64).filter (fun p =>
    (s.retiredPcs k).getLsbD p && !s.stk.evac.contains (k, p) && s.strandedOn (k, p) == 0)).length
  pack [(s.fld (memBase (k / 4) + 0x2000 + 0x100 * (k % 4)) 0 0, 0), (b2n s.selfRefresh, 1),
    (b2n (s.stk.evac.any (fun q => q.1 == k)), 2), (b2n ((List.range 64).any (fun p => decide (0 < s.strandedOn (k, p)))), 3),
    (64 - gone, 8)]

end Sys2Proof.Machine
end

