-- ==== Sys2Proof/Machine/Arbiter.lean ====
section
/-! DEFINITION. The power arbiter (R533 to R544), the droop and thermal ceilings (R545 to R548), and energy (R551), as an
edge runs them. Powers are in mW; where a rule gives no rounding, fractions of a mW are dropped (log entry 30). -/

namespace Sys2Proof.Machine

/-- Changes the power block. -/
def State.onPwr (s : State) (f : PwrSt → PwrSt) : State := { s with pwr := f s.pwr }

/-- Changes one die's power control. -/
def State.onDiePwr (s : State) (d : DieIx) (f : DiePwr → DiePwr) : State :=
  { s with pwr := { s.pwr with die := s.pwr.die.set d (f s.pwr.die[d]) } }

/-- Power of an operating point in percent of OP0 (R538). -/
def opFactor (op : Nat) : Nat := ([100, 82, 66, 52, 40, 29, 20, 13][op]?).getD 13

/-- Pan-cycles in a microsecond at an operating point: 1.8 GHz less 0.2 GHz a point. -/
def opCycles (op : Nat) : Nat := 1800 - 200 * min op 7

/-! The cap (R532 to R534). -/

/-- The class value in 25 W steps. -/
def classSteps (c : Nat) : Nat := 192 + 48 * c

/-- A CAP value as it acts, in 25 W steps: at least 80, at most the class. -/
def State.capSteps (s : State) (c : Nat) : Nat := min (classSteps (s.fld 0x100008 1 0)) (max 80 c)

/-- The armed cap schedule has reached its edge (R628). -/
def State.capDue (s : State) : Bool :=
  s.fld 0x100000 3 3 == 1 && decide (s.pwr.capTarget.toNat ≤ s.tide.num.toNat)

/-- CAP as action 3 of this edge leaves it: a schedule that is due overrides the register. -/
def State.capValue (s : State) : Nat := if s.capDue then s.fld 0x100018 8 0 else s.fld 0x100010 8 0

/-- The cap in effect, in mW, with the lowest input voltage of the last window in 10 mV. -/
def State.capMw (s : State) (vinMin : Nat) : Nat := min (25000 * s.capSteps s.capValue) (1400 * vinMin)

/-! Thermal and droop ceilings as they stand at an edge. -/

/-- T_STEP (R548). -/
def State.tStep (s : State) : Nat := max 85 (min 100 (s.fld 0x100188 7 0))

/-- A change of a die's thermal ceiling: event 0x0206, counted. -/
def State.setTherm (s : State) (d : DieIx) (c : Nat) : State :=
  let q := s.pwr.die[d]
  if q.thermCeil = c then s
  else
    ((s.onDiePwr d (fun q => { q with thermCeil := c })).count 0x100500 1).raiseMod 1 0x206
      (pack [(d.val, 0), (c, 2), (q.tj, 8)])

/-- The ceilings of a die from what the window that ends shows (R547, R548). -/
def State.ceilings (s : State) (d : DieIx) (tj : Nat) : State :=
  let s := s.onDiePwr d (fun q => { q with tj := tj })
  let q := s.pwr.die[d]
  let t := s.tStep
  let s :=
    if t ≤ tj then
      let step := q.hot.isNone || q.hot.any (fun h => decide (1000 ≤ h + 1))
      let s := if step then s.setTherm d (min 7 (q.op + 1)) else s
      let s := s.onDiePwr d (fun q => { q with cool := 0, hot := some (if step then 0 else q.hot.getD 0 + 1) })
      s.alert 1
    else s.onDiePwr d (fun q => { q with hot := none, cool := if tj + 5 < t then q.cool + 1 else 0 })
  let s := if 102 ≤ tj then s.setTherm d 7 else s
  let lim := s.fld 0x100180 47 32
  s.onDiePwr d (fun q =>
    let tooLong : Bool := lim != 0 && decide (lim ≤ q.stretched)
    { q with
      emergency := decide (102 ≤ tj)
      droopCeil := if tooLong then min 7 (q.op + 1) else q.droopCeil
      droopHeld := if tooLong then 0 else q.droopHeld + 1
      escCeil := 0
      stretched := 0 })

/-- The thermal ceiling in force: one point faster once 1000 cool tides have passed (THERMAL_LIFT). -/
def DiePwr.therm (q : DiePwr) : Nat := if 1000 ≤ q.cool then q.thermCeil - 1 else q.thermCeil

/-- The droop ceiling in force: none once it has held HOLD tides (DROOP_CEILING_LIFT). -/
def DiePwr.droop (q : DiePwr) (hold : Nat) : Nat := if max 1 hold ≤ q.droopHeld then 0 else q.droopCeil

/-- The fastest point that preference and ceilings allow a die (R539, R541). -/
def State.fastest (s : State) (d : DieIx) : Nat :=
  let q := s.pwr.die[d]
  let pref := if q.pref < 8 then q.pref else 0
  let c := max pref (max q.therm (q.droop (s.fld 0x100180 63 48)))
  if q.emergency then 7 else c

/-! Ratio and drift (R542 to R544). -/

/-- Drift control governs this edge. -/
def State.drifting (s : State) : Bool :=
  if s.fld 0x100000 2 2 = 1 then decide (s.pwr.agree < 1000) else decide (50 ≤ s.pwr.disagree)

/-- A ratio between 0.85 and 1.15. -/
def clampK (n d : Nat) : Nat × Nat :=
  if n * 20 < d * 17 then (17, 20) else if d * 23 < n * 20 then (23, 20) else (n, d)

/-- Counts the window that ends as one that agrees or disagrees (R543, R544). -/
def State.countAgree (s : State) (e m : Nat) : State :=
  let bad := decide (15 * s.pwr.capNow < 100 * ((e - m) + (m - e)))
  s.onPwr (fun p => { p with
    disagree := if bad then p.disagree + 1 else 0
    agree := if bad then 0 else p.agree + 1 })

/-- The ratio of this edge, numerator and denominator: M/E in drift control, else the updated k. An estimate of 0 gives
M/E no value: a free one stands for it. -/
def State.ratio (s : State) (e m : Nat) : (Nat × Nat) × State :=
  let (q, s) : (Nat × Nat) × State :=
    if e = 0 then
      let (v, s) := s.fresh
      ((v.toNat % 2 ^ 32, 2 ^ 31), s)
    else ((m, e), s)
  if s.drifting then (q, s)
  else if s.fld 0x100000 2 2 = 1 then ((1, 1), s)
  else
    let k := clampK (15 * s.pwr.kNum * q.2 + q.1 * s.pwr.kDen) (16 * s.pwr.kDen * q.2)
    (k, s.onPwr (fun p => { p with kNum := k.1, kDen := k.2 }))

/-! Grants (R536, R537). -/

/-- The grants of R536 in mW for budget, floors and demands of LINK, MEM, COMPUTE, in an order of domain codes. -/
def grants (budget : Nat) (floors demands : List Nat) (order : List Nat) : List Nat :=
  let at_ (l : List Nat) (d : Nat) : Nat := (l[d]?).getD 0
  let left := budget - (at_ floors 0 + at_ floors 1 + at_ floors 2)
  (order.foldl (fun (q : List Nat × Nat) d =>
    let extra := min (at_ demands d - at_ floors d) q.2
    (q.1.set d (at_ q.1 d + extra), q.2 - extra)) (floors, left)).1

/-- A die's share of the COMPUTE grant (R539, R548). -/
def dieShare (grant floor : Nat) (demand : List Nat) (emerg : List Bool) (d : Nat) : Nat :=
  let at_ (l : List Nat) (i : Nat) : Nat := (l[i]?).getD 0
  let all := demand.foldl (· + ·) 0
  let prop (total pool i : Nat) : Nat := if pool = 0 then total else total * at_ demand i / pool
  let hot (i : Nat) : Bool := (emerg[i]?).getD false
  let cut (i : Nat) : Nat := min (prop grant all i) (floor / 4)
  if hot d then cut d
  else
    let used := (((List.range 4).filter hot).map cut).foldl (· + ·) 0
    let pool := (((List.range 4).filter (fun i => !hot i)).map (at_ demand)).foldl (· + ·) 0
    prop (grant - used) pool d

/-- The operating point of a die for the window that begins (R539, R540): `p0` its prediction at OP0. -/
def State.setPoint (s : State) (d : DieIx) (p0 share : Nat) : State :=
  let fits (j : Nat) : Bool := decide (p0 * opFactor j / 100 ≤ share)
  let arb := ((List.range 8).find? fits).getD 7
  let c := s.fastest d
  let target := ((List.range 8).find? (fun j => decide (c ≤ j) && fits j)).getD 7
  let q := s.pwr.die[d]
  let cur := q.faster.getD q.op
  let need := p0 * opFactor 7 / 100
  let s := s.onDiePwr d (fun q => { q with
    arbOp := arb
    op := if cur ≤ target then target else cur
    faster := if cur ≤ target then none else some target })
  if target = 7 ∧ share < need then
    -- pan row entry held for the fraction 1 − share/prediction of the window's pan-cycles
    let n := s.periodUs * opCycles 7 * (need - share) / need
    ((s.count (0x1004C0 + 0x10 * d.val) n).count (panBase (2 * d.val) + 0x430) n).count (panBase (2 * d.val + 1) + 0x430) n
  else s

/-- Action 4 of an edge: grants and operating points for the window that begins (R536 to R541). -/
def State.arbitrate (s : State) (e : EdgeEnv) : State :=
  let s := s.countAgree e.est.toNat e.meas.toNat
  let s := (List.finRange 4).foldl (fun s d => s.ceilings d (e.tj[d]).toNat) s
  let s := (List.finRange 4).foldl (fun s d => s.onDiePwr d (fun q => { q with
    pref := match s.partOfDie d.val with
      | some p => s.fld (0x100140 + 8 * p) 3 0
      | none => 15 })) s
  let (k, s) := s.ratio e.est.toNat e.meas.toNat
  let scale (x : Nat) : Nat := x * k.1 / k.2
  let p0 := (List.finRange 4).map (fun d => scale (e.comp[d]).toNat)
  let comp := (List.finRange 4).map (fun d => scale (e.comp[d]).toNat * opFactor (s.fastest d) / 100)
  let demands := [scale e.link.toNat, scale e.mem.toNat, comp.foldl (· + ·) 0]
  let cap := s.capMw e.vinMin.toNat
  let drift := s.drifting
  let guard := if drift then cap * 8 / 100 else 0
  let f := s.reg 0x100028
  let floors := [25000 * bitsOf f 7 0, 25000 * bitsOf f 15 8, 25000 * bitsOf f 23 16]
  let o := s.reg 0x100020
  let g := grants (cap - 100000 - guard) floors demands [bitsOf o 5 4, bitsOf o 3 2, bitsOf o 1 0]
  let at_ (l : List Nat) (d : Nat) : Nat := (l[d]?).getD 0
  let w (x : Nat) : Nat := x / 1000
  let word (l : List Nat) : BitVec 64 := pack [(w (at_ l 0), 0), (w (at_ l 1), 16), (w (at_ l 2), 32)]
  let limited := decide (at_ g 2 < at_ demands 2)
  let was := s.fld 0x100000 0 0 = 1
  let s := ((s.setReg 0x100030 (word demands)).setReg 0x100038 (word g)).setFld 0x100000 0 0 (b2n limited)
  let s := s.setReg 0x100040 (pack [(w e.meas.toNat, 0), (w e.est.toNat, 32)])
  let s := (s.setFld 0x100000 47 32 e.vin.toNat).onPwr (fun p => { p with capNow := cap })
  let s := if limited then s.count 0x100410 1 else s
  let s := if limited ∧ ¬ was then
      s.raiseMod 1 0x202 (pack [(w (at_ demands 2), 0), (w (at_ g 2), 16)])
    else s
  let s := if drift then s.count 0x100420 1 else s
  let emerg := (List.finRange 4).map (fun d => (s.pwr.die[d]).emergency)
  (List.finRange 4).foldl (fun s d =>
    s.setPoint d (at_ p0 d.val) (dieShare (at_ g 2) (at_ floors 2) comp emerg d.val)) s

/-- PWR_ENERGY_CNT: the energy of the window that ends (R551), `mw` its measurement. -/
def State.addEnergy (s : State) (mw : Nat) : State :=
  let nJ := s.pwr.energyRem + mw * s.periodUs
  (s.count 0x100400 (nJ / 1000000)).onPwr (fun p => { p with energyRem := nJ % 1000000 })

/-- What PWR_DIE reads. -/
def State.pwrDie (s : State) (d : DieIx) : BitVec 64 :=
  let q := s.pwr.die[d]
  pack [(q.tj, 24), (q.thermCeil, 16), (max q.droopCeil q.escCeil, 12), (q.pref, 8), (q.arbOp, 4), (q.op, 0)]

/-! The steps of their own (R543 to R548). -/

/-- DRIFT_ENTER: 50 consecutive windows disagreed (R543). -/
def execDriftEnter (s : State) : Res :=
  .next (if s.fld 0x100000 2 2 = 0 ∧ 50 ≤ s.pwr.disagree then
      ((s.setFld 0x100000 2 2 1).onPwr (fun p => { p with agree := 0 })).raiseMod 1 0x203
        (pack [(s.fld 0x100040 63 32, 0), (s.fld 0x100040 31 0, 32)])
    else s)

/-- DRIFT_EXIT: 1000 consecutive windows agreed (R544). -/
def execDriftExit (s : State) : Res :=
  .next (if s.fld 0x100000 2 2 = 1 ∧ 1000 ≤ s.pwr.agree then
      ((s.setFld 0x100000 2 2 0).onPwr (fun p => { p with kNum := 1, kDen := 1, disagree := 0 })).raiseMod 1 0x204 s.tide.num
    else s)

/-- THERMAL_LIFT: the ceiling lifts one point after 1000 cool tides (R548). -/
def execThermalLift (d : DieIx) (s : State) : Res :=
  let q := s.pwr.die[d]
  .next (if 0 < q.thermCeil ∧ 1000 ≤ q.cool then
      (s.setTherm d (q.thermCeil - 1)).onDiePwr d (fun q => { q with cool := 0 })
    else s)

/-- DROOP_CEILING_LIFT: the ceiling has held HOLD tides (R547). -/
def execDroopCeilingLift (d : DieIx) (s : State) : Res :=
  let q := s.pwr.die[d]
  .next (if max 1 (s.fld 0x100180 63 48) ≤ q.droopHeld then s.onDiePwr d (fun q => { q with droopCeil := 0 }) else s)

/-- THERMAL_EMERGENCY: TJ at 102 °C or more puts the die at OP7 at once (R548). -/
def execThermalEmergency (d : DieIx) (tj : BitVec 8) (s : State) : Res :=
  .next (if tj.toNat < 102 then s
    else
      let s := (s.onDiePwr d (fun q => { q with tj := tj.toNat })).setTherm d 7
      (s.onDiePwr d (fun q => { q with op := 7, faster := none, emergency := true })).alert 1)

/-- DROOP_DETECT: the clock is stretched (R545). -/
def execDroopDetect (d : DieIx) (s : State) : Res :=
  .next (if s.pwr.die[d].dip then s else s.onDiePwr d (fun q => { q with dip := true, stretching := true }))

/-- Stretched cycles are counted, for R547 too. -/
def State.stretch (s : State) (d : DieIx) (n : Nat) : State :=
  (s.count (0x100440 + 0x10 * d.val) n).onDiePwr d (fun q => { q with stretched := q.stretched + n })

/-- DROOP_ESCALATE: the dip is there after 64 stretched cycles; the die steps one point slower, or at OP7 holds pan row
entry (R546). -/
def execDroopEscalate (d : DieIx) (s : State) : Res :=
  let q := s.pwr.die[d]
  .next (if !q.stretching then s
    else
      let hold := decide (7 ≤ q.op)
      let p := min 7 (q.op + 1)
      let s := (s.stretch d 64).count (0x100480 + 0x10 * d.val) 1
      let s := s.onDiePwr d (fun q => { q with
        stretching := false
        holding := hold
        op := p
        faster := none
        escCeil := if hold then q.escCeil else p })
      s.raiseMod 1 0x205 (pack [(d.val, 0), (p, 2), (b2n hold, 6)]))

/-- DROOP_RECOVERY: stretching stops after `n` cycles, at most 64, or the hold of R546 ends after `n` pan-cycles
(R545, R546). -/
def execDroopRecovery (d : DieIx) (n : BitVec 32) (s : State) : Res :=
  let q := s.pwr.die[d]
  .next (if !q.dip then s
    else
      let s := if q.stretching then s.stretch d (min 64 n.toNat) else s
      let s := if q.holding then s.count (0x1004C0 + 0x10 * d.val) n.toNat else s
      s.onDiePwr d (fun q => { q with dip := false, stretching := false, holding := false }))

end Sys2Proof.Machine
end

