-- ==== Sys2Proof/Machine/Fabric.lean ====
section
/-! DEFINITION. The package fabric's ports and modules (R447 to R452). -/

namespace Sys2Proof.Machine

/-- The die at the far end of a port. -/
def fabPeer (d j : Nat) : Nat := if j < d then j else j + 1

/-- The port of die `d` that leads to die `e`. -/
def fabPort (d e : Nat) : Nat := if e < d then e else e - 1

/-- A port register of a die. -/
def fabReg (d j : Nat) : Nat := fabBase d + 8 * j

/-- Whether the port between two dies is in service (UP or DEGRADED). -/
def State.fabUp (s : State) (d e : Nat) : Bool :=
  let st := s.fld (fabReg d (fabPort d e)) 2 0
  st == 1 || st == 2

/-- The lowest third die whose ports to both are up (R451). -/
def State.detour (s : State) (d e : Nat) : Option Nat :=
  (List.range 4).find? (fun c => c != d && c != e && s.fabUp c d && s.fabUp c e)

/-- A field of both ends of a port. -/
def State.setBoth (s : State) (d e hi lo x : Nat) : State :=
  (s.setFld (fabReg d (fabPort d e)) hi lo x).setFld (fabReg e (fabPort e d)) hi lo x

/-- The detour of a pair whose port is DOWN: event 0x1606 when it is set, 0x1607 when there is none (R451). -/
def State.reroute (s : State) (d e : Nat) (fresh : Bool) : State :=
  let j := fabPort d e
  match s.detour d e with
  | some c =>
    if !fresh && s.fld (fabReg d j) 17 16 == c then s
    else
      ({ s.setBoth d e 17 16 c with link := { s.link with unreachable := s.link.unreachable.filter (· ≠ (d, e)) } } : State).raise
        (s.fabSrc d j) 0x1606 (pack [(d, 0), (j, 2), (c, 4)])
  | none =>
    if s.link.unreachable.contains (d, e) then s
    else
      ({ s with link := { s.link with unreachable := s.link.unreachable ++ [(d, e)] } } : State).raise
        (s.fabSrc d j) 0x1607 (pack [(d, 0), (e, 2)])

/-- The pairs of dies. -/
def diePairs : List (Nat × Nat) := [(0, 1), (0, 2), (0, 3), (1, 2), (1, 3), (2, 3)]

/-- MIN_MOD in force. -/
def State.minMod (s : State) (d : Nat) : Nat := max 1 (min 20 (s.fld (fabBase d + 0x40) 4 0))

/-- A module leaves service (R450, R451): its bit in FAB_RETIRED, event 0x1605; a port below MIN_MOD is DOWN and its
traffic is rerouted, and so is that of ports whose detour it was. -/
def State.fabModuleOut (s : State) (d j m : Nat) : State :=
  let e := fabPeer d j
  let k := fabPort e d
  if (s.reg (fabBase d + 0x20 + 8 * j)).getLsbD m then s
  else
    let s := (s.setFld (fabBase d + 0x20 + 8 * j) m m 1).setFld (fabBase e + 0x20 + 8 * k) m m 1
    let live := 20 - popcount 20 (s.fld (fabBase d + 0x20 + 8 * j) 19 0)
    let s := s.setBoth d e 12 8 live
    let s := s.raise (s.fabSrc d j) 0x1605 (pack [(d, 0), (j, 2), (m, 4), (live, 16)])
    if s.fld (fabReg d j) 2 0 = 3 then s
    else if live < s.minMod d then
      let s := s.setBoth d e 2 0 3
      let s := s.reroute (min d e) (max d e) true
      diePairs.foldl (fun s (a, b) => if s.fld (fabReg a (fabPort a b)) 2 0 = 3 then s.reroute a b false else s) s
    else s.setBoth d e 2 0 2

/-! Flits (R447, R448). -/

/-- The even parity bit of the low `n` bits of a number. -/
def parityBit (n x : Nat) : Nat := popcount n x % 2

/-- PAR of a payload: bit i is the even parity of its 32-bit word i. -/
def fabPar (payload : Nat) : Nat :=
  ((List.range 16).map (fun i => parityBit 32 (payload / 2 ^ (32 * i)) * 2 ^ i)).foldl (· + ·) 0

/-- The trailer of a flit (R447). -/
def fabTrailer (f : FabFlit) : Nat :=
  let t := fabPar f.payload.toNat + f.seq.toNat * 2 ^ 16 + f.cls.val * 2 ^ 26 + f.kind.val * 2 ^ 28
  t + parityBit 31 t * 2 ^ 31

/-- A flit's 68 bytes as they are sent, the trailer last. -/
def fabRaw (f : FabFlit) : BitVec 544 := BitVec.ofNat 544 (f.payload.toNat + fabTrailer f * 2 ^ 512)

/-- Whether every word of a flit received matches its parity. -/
def fabGood (r : BitVec 544) : Bool :=
  let t := r.toNat / 2 ^ 512
  t / 2 ^ 31 == parityBit 31 t && t % 2 ^ 16 == fabPar (r.toNat % 2 ^ 512)

/-- The flit that received bytes hold. -/
def fabFlitOf (r : BitVec 544) : FabFlit :=
  let t := r.toNat / 2 ^ 512
  ⟨BitVec.ofNat 512 r.toNat, Fin.ofNat 4 (t / 2 ^ 28), Fin.ofNat 4 (t / 2 ^ 26), BitVec.ofNat 10 (t / 2 ^ 16)⟩

/-- A flit sent up to four times, the attempts changed on the way by the bits of `errs` in turn: the attempts that failed, and
what the receiver takes; none when the fourth fails too. -/
def fabAttempts (f : FabFlit) (errs : List (BitVec 544)) : Nat × Option FabFlit :=
  let tries := (List.range 4).map (fun k => fabRaw f ^^^ (errs[k]?).getD 0)
  ((tries.takeWhile (fun r => !fabGood r)).length, (tries.find? fabGood).map fabFlitOf)

/-- A direction of a fabric module. -/
def State.fabChan (s : State) (d j m : Nat) : FabChan := (assoc (d, j, m) s.link.fab).getD FabChan.reset

def State.setFabChan (s : State) (d j m : Nat) (c : FabChan) : State :=
  { s with link := { s.link with fab := assocPut (d, j, m) c s.link.fab } }

/-- Flits a fabric module's replay buffer holds. -/
def fabReplay : Nat := 256

/-- Each failed attempt makes the sender send the flit again, and in order those it had sent after it: a free number, below
the replay buffer's depth (log entry 105). -/
def State.fabResends (s : State) : Nat → State × Nat
  | 0 => (s, 0)
  | n + 1 =>
    let (w, s) := s.fresh
    let (s, k) := State.fabResends s n
    (s, k + 1 + w.toNat % fabReplay)

/-- FABRIC_FLIT_RECEIVE (R448): a flit reaches port `j` of die `d` on a module. A data flit is sent in sequence while the
replay buffer has room, and stays in it until it is acknowledged. A flit that fails its fourth attempt takes its module out of
service, and crosses on the module that takes over. -/
def execFabricFlitReceive (d : DieIx) (j : Fin 3) (m : Fin 20) (a : FabArrival) (s : State) : Res :=
  let f := a.flit
  let e := fabPeer d.val j.val
  let k := fabPort e d.val
  let c := s.fabChan d.val j.val m.val
  if !s.fabUp d.val e || (s.reg (fabBase d.val + 0x20 + 8 * j.val)).getLsbD m.val then .next s
  else if f.kind = 0 ∧ (fabReplay ≤ c.unacked.length ∨ f.seq ≠ c.expect) then .next s
  else
    let (fails, got) := fabAttempts f a.errs
    let (reps, bad) := triesOf fails
    let (s, again) := s.fabResends fails
    let s := if again = 0 then s else s.count (fabBase e + 0x420 + 0x40 * k) again
    let s := s.chanCount ⟨1, 4 * d.val + j.val, m.val⟩ reps bad
    let s := if f.kind = 0 then (s.count (fabBase e + 0x400 + 0x40 * k) 1).count (fabBase d.val + 0x410 + 0x40 * j.val) 1 else s
    match got with
    | none => .next ((s.setFabChan d.val j.val m.val FabChan.reset).fabModuleOut d.val j.val m.val)
    | some g =>
      if f.kind = 0 then .next (s.setFabChan d.val j.val m.val ⟨c.expect + 1, c.unacked ++ [f]⟩)
      else if g.kind = 1 then
        let b := s.fabChan e k m.val
        .next (s.setFabChan e k m.val { b with unacked := b.unacked.filter (fun u => decide (0 < (u.seq - g.seq).toNat ∧ (u.seq - g.seq).toNat < 512)) })
      else .next s

end Sys2Proof.Machine
end

