-- ==== Sys2Proof/Machine/Decide.lean ====
section
/-! DEFINITION. How the integrity unit decides a suspect unit (R512 to R517). -/

namespace Sys2Proof.Machine

/-- Step of a record: that of its first command. -/
def RepRec.step (r : RepRec) : BitVec 64 := (r.cmds.head?.map (·.step)).getD (BitVec.allOnes 64)

/-- Changes the records of a die. -/
def State.onRecs (s : State) (d : DieIx) (f : List RepRec → List RepRec) : State :=
  { s with int := { s.int with recs := s.int.recs.set d (f s.int.recs[d]) } }

/-- The die of a pan. -/
def panDie (p : ClusterIx) : DieIx := Fin.ofNat 4 (p.val / 2)

/-- A held unit (R515): work of no step, or of a step whose local status was sent (R203), holds none. -/
def State.hold (s : State) (part : Nat) (step : BitVec 64) : State :=
  if step = BitVec.allOnes 64 ∨ s.stepSent part step then s
  else
    let s := if s.int.held.contains (part, step) then s else s.count 0x210450 1
    { s with int := { s.int with held := s.int.held ++ [(part, step)] } }

/-- Charges of a decision (R517). -/
def State.chargeFor (s : State) (r : RepRec) (outcome : Nat) : State :=
  if outcome = 4 then s
  else
    let s := (r.engines.foldl (fun a e => setAdd e a) []).foldl (fun s e => s.charge 0 r.pan.val e false 0) s
    match outcome, r.thirdPan, r.replayPan with
    | 1, some _, some q =>
      if r.repEngines.isEmpty then s.charge 1 q.val 0 false 0
      else r.repEngines.foldl (fun s e => s.charge 0 q.val e false 0) s
    | _, _, _ => s

/-- A decision (R512 to R514): outcome 1 CONFIRMED, 2 CORRECTED, 3 FAILED, 4 OPERANDS_CHANGED, 5 UNREPLAYABLE. The
record is freed, event 0x0301 raised, the overflow of the run that stands applied, engines charged, and the unit held
unless it is confirmed. -/
def State.decideUnit (s : State) (d : DieIx) (r : RepRec) (outcome : Nat) (ovf : List (BitVec 64)) : State :=
  let part := s.partNum d.val
  let pan (o : Option ClusterIx) : Nat := match o with
    | some p => p.val
    | none => 15
  let s := s.onRecs d (fun l => l.erase r)
  let s := s.raise (s.modSrc 2 part) 0x301 (pack [(outcome, 0), (r.pan.val, 4), (pan r.replayPan, 8),
    (pan r.thirdPan, 12), (bitsOf r.step 47 0, 16)])
  let s := s.count (if outcome = 1 then 0x210420 else if outcome = 2 then 0x210430 else 0x210440) 1
  let s := ovf.foldl (fun s k => s.setOverflow part r.pan.val k) s
  let s := s.chargeFor r outcome
  if outcome = 1 then s
  else (r.cmds.foldl (fun (a : List (BitVec 64)) c => if a.contains c.step then a else a ++ [c.step]) []).foldl
    (fun s k => s.hold part k) s

/-- Units whose continuation their own command overwrote are decided UNREPLAYABLE at once (R512). -/
def State.settleRecs (s : State) (d : DieIx) : State :=
  (s.int.recs[d].filter (fun r => r.contOver && r.phase == .replay)).foldl (fun s r => s.decideUnit d r 5 []) s

end Sys2Proof.Machine
end

