-- ==== Sys2Proof/Machine/UnitIssue.lean ====
section
/-! DEFINITION. Unit commands as a core issues them (R241, R245 to R247, R292 to R297): the checks of the core, the
copy of the block, the token, the core-side buffer, and the stall of a full one. -/

namespace Sys2Proof.Machine

/-- Entries of a core-side buffer (R246). -/
def targetCap : Target → Nat
  | .pan => 2
  | .slu => 4
  | .brn => 2
  | .xtl => 2

/-- The commands in a core's buffer for a target. -/
def CoreSt.buf (k : CoreSt) : Target → List UnitCmd
  | .pan => k.bufPan
  | .slu => k.bufSlu
  | .brn => k.bufBrn
  | .xtl => k.bufXtl

/-- Replaces a buffer. -/
def CoreSt.setBuf (k : CoreSt) (t : Target) (l : List UnitCmd) : CoreSt :=
  match t with
  | .pan => { k with bufPan := l }
  | .slu => { k with bufSlu := l }
  | .brn => { k with bufBrn := l }
  | .xtl => { k with bufXtl := l }

/-- One more command of a target issued. -/
def CoreSt.addOut (k : CoreSt) (t : Target) : CoreSt :=
  match t with
  | .pan => { k with outPan := k.outPan + 1 }
  | .slu => { k with outSlu := k.outSlu + 1 }
  | .brn => { k with outBrn := k.outBrn + 1 }
  | .xtl => { k with outXtl := k.outXtl + 1 }

/-- The tokens a command names: PAN.TWIN names two (R295). -/
def UnitCmd.tokens (c : UnitCmd) : List TokIx :=
  match c.op with
  | .panTwin _ _ _ _ _ _ tw => [c.tk, tw]
  | _ => [c.tk]

/-- One token's COUNT raised (R241). -/
def CoreSt.tokenUp (k : CoreSt) (j : TokIx) : CoreSt :=
  { k with tok := k.tok.set j { k.tok[j] with count := k.tok[j].count + 1 } }

/-- Whether a command's tokens have room: no COUNT would pass 63 (R241). -/
def CoreSt.tokenRoom (k : CoreSt) (cmd : UnitCmd) : Bool :=
  cmd.tokens.all (fun j => decide (k.tok[j].count + cmd.tokens.count j ≤ 63))

/-- Whether the command can enter its buffer now. -/
def CoreSt.roomFor (k : CoreSt) (cmd : UnitCmd) : Bool :=
  k.tokenRoom cmd && decide ((k.buf cmd.op.target).length < targetCap cmd.op.target)

/-- The command enters its buffer with a copy of its block (R241, R245). -/
def CoreSt.bufferCmd (k : CoreSt) (cmd : UnitCmd) (la n : Nat) : CoreSt :=
  let block := (List.range (n / 8)).map (fun i => BitVec.ofNat 64 (leNat (k.localBytes (la + 8 * i) 8)))
  let t := cmd.op.target
  let k := cmd.tokens.foldl CoreSt.tokenUp (k.addOut t)
  k.setBuf t (k.buf t ++ [{ cmd with block := block }])

/-- A unit command at issue: it enters its buffer, or the core stalls (R246, R247). -/
def State.enter (s : State) (c : CoreIx) (cmd : UnitCmd) (la n : Nat) : State :=
  if s.core[c].roomFor cmd then s.retire c (fun k => k.bufferCmd cmd la n)
  else
    s.onCore c (fun k => { k with
      stall := some ⟨cmd, la, n, cmd.op.target, !k.tokenRoom cmd, s.tide.num, false⟩ })

/-- A command with a block of `n` bytes at `s[RB] + 64·LOFF` (R292): cause 0x03 for a misaligned base, cause 0x04
beyond 1 MiB. -/
def issueBlock (c : CoreIx) (tk : TokIx) (rb : RegIx) (loff : BitVec 14) (n : Nat) (op : UnitOp) (s : State) : Res :=
  issueWhen c [rb] [] (fun s =>
    let base := s.core[c].sget rb
    let la := base + 64 * loff.setWidth 64
    if base.toNat % 64 ≠ 0 then s.precise c 3 base
    else if 0x100000 < la.toNat + n then s.precise c 4 la
    else s.enter c ⟨c, tk, op, [], 0, s.stepOfCore c⟩ la.toNat n) s

/-- A command without a block: it carries s[RB] (R292). -/
def issueValue (c : CoreIx) (tk : TokIx) (rb : RegIx) (op : UnitOp) (s : State) : Res :=
  issueWhen c [rb] [] (fun s => s.enter c ⟨c, tk, op, [], s.core[c].sget rb, s.stepOfCore c⟩ 0 0) s

def execPanLds (c : CoreIx) (tk : TokIx) (rb : RegIx) (loff : BitVec 14) (turn narrow : Bool) (fold : FoldSel) (s : State) : Res :=
  issueBlock c tk rb loff 64 (.panLds turn narrow fold) s

def execPanStr (c : CoreIx) (tk : TokIx) (rb : RegIx) (loff : BitVec 14) (swap win : Bool) (slot : Slot) (s : State) : Res :=
  issueBlock c tk rb loff 64 (.panStr swap win slot) s

def execPanMm (c : CoreIx) (tk : TokIx) (rb : RegIx) (loff : BitVec 14) (turn win : Bool) (slot : Slot) (fold : FoldSel) (s : State) : Res :=
  issueBlock c tk rb loff 64 (.panMm turn win slot fold) s

def execPanRake (c : CoreIx) (tk : TokIx) (rb : RegIx) (loff : BitVec 14) (slot : Fin 4) (s : State) : Res :=
  issueBlock c tk rb loff 64 (.panRake slot) s

def execPanFill (c : CoreIx) (tk : TokIx) (rb : RegIx) (loff : BitVec 14) (turn : Bool) (slot : Slot) (s : State) : Res :=
  issueBlock c tk rb loff 128 (.panFill turn slot) s

def execPanFillFlush (c : CoreIx) (tk : TokIx) (s : State) : Res :=
  issueValue c tk 0 .panFillFlush s

def execPanTwin (c : CoreIx) (tk : TokIx) (rb : RegIx) (loff : BitVec 14) (turn xt : Bool) (xslot : Slot) (side acc : Bool) (gslot : Slot) (tw : TokIx) (s : State) : Res :=
  issueBlock c tk rb loff 128 (.panTwin turn xt xslot side acc gslot tw) s

def execSluCopy (c : CoreIx) (tk : TokIx) (rb : RegIx) (loff : BitVec 14) (sl : SlSel) (press : Press) (s : State) : Res :=
  issueBlock c tk rb loff 64 (.sluCopy sl press) s

def execSluGather (c : CoreIx) (tk : TokIx) (rb : RegIx) (loff : BitVec 14) (sl : SlSel) (s : State) : Res :=
  issueBlock c tk rb loff 64 (.sluGather sl) s

def execSluScatter (c : CoreIx) (tk : TokIx) (rb : RegIx) (loff : BitVec 14) (sl : SlSel) (add : Bool) (s : State) : Res :=
  issueBlock c tk rb loff 64 (.sluScatter sl add) s

def execSluReduce (c : CoreIx) (tk : TokIx) (rb : RegIx) (loff : BitVec 14) (sl : SlSel) (op : RedOp) (s : State) : Res :=
  issueBlock c tk rb loff 64 (.sluReduce sl op) s

def execSluAllReduce (c : CoreIx) (tk : TokIx) (rb : RegIx) (loff : BitVec 14) (sl : SlSel) (op : RedOp) (s : State) : Res :=
  issueBlock c tk rb loff 64 (.sluColl sl op 0) s

def execSluReduceScatter (c : CoreIx) (tk : TokIx) (rb : RegIx) (loff : BitVec 14) (sl : SlSel) (op : RedOp) (s : State) : Res :=
  issueBlock c tk rb loff 64 (.sluColl sl op 1) s

def execSluAllGather (c : CoreIx) (tk : TokIx) (rb : RegIx) (loff : BitVec 14) (sl : SlSel) (op : RedOp) (s : State) : Res :=
  issueBlock c tk rb loff 64 (.sluColl sl op 2) s

def execSluAllToAll (c : CoreIx) (tk : TokIx) (rb : RegIx) (loff : BitVec 14) (sl : SlSel) (op : RedOp) (s : State) : Res :=
  issueBlock c tk rb loff 64 (.sluColl sl op 3) s

def execSluXmitWrite (c : CoreIx) (tk : TokIx) (rb : RegIx) (loff : BitVec 14) (sl : SlSel) (s : State) : Res :=
  issueBlock c tk rb loff 64 (.sluXmit sl 0) s

def execSluXmitRead (c : CoreIx) (tk : TokIx) (rb : RegIx) (loff : BitVec 14) (sl : SlSel) (s : State) : Res :=
  issueBlock c tk rb loff 64 (.sluXmit sl 1) s

def execSluXmitRed (c : CoreIx) (tk : TokIx) (rb : RegIx) (loff : BitVec 14) (sl : SlSel) (s : State) : Res :=
  issueBlock c tk rb loff 64 (.sluXmit sl 2) s

def execSluXmitSend (c : CoreIx) (tk : TokIx) (rb : RegIx) (loff : BitVec 14) (sl : SlSel) (s : State) : Res :=
  issueBlock c tk rb loff 64 (.sluXmit sl 3) s

def execSluWait (c : CoreIx) (tk : TokIx) (rb : RegIx) (loff : BitVec 14) (sl : SlSel) (s : State) : Res :=
  issueBlock c tk rb loff 64 (.sluWait sl) s

def execBrnBatch (c : CoreIx) (tk : TokIx) (rb : RegIx) (loff : BitVec 14) (s : State) : Res :=
  issueBlock c tk rb loff 64 .brnBatch s

def execXtlRun (c : CoreIx) (tk : TokIx) (rb : RegIx) (lx : Fin 8) (first last : BitVec 8) (s : State) : Res :=
  issueValue c tk rb (.xtlRun lx first last) s

def execXtlSeal (c : CoreIx) (tk : TokIx) (rb : RegIx) (skip : Bool) (s : State) : Res :=
  issueValue c tk rb (.xtlSeal skip) s

def execXtlBind (c : CoreIx) (tk : TokIx) (rb : RegIx) (loff : BitVec 14) (lx : Fin 8) (slot : BitVec 8) (s : State) : Res :=
  issueBlock c tk rb loff 64 (.xtlBind lx slot) s

def execXtlUnbind (c : CoreIx) (tk : TokIx) (lx : Fin 8) (slot : BitVec 8) (s : State) : Res :=
  issueValue c tk 0 (.xtlUnbind lx slot) s

def execXtlEntry (c : CoreIx) (tk : TokIx) (rb : RegIx) (loff : BitVec 14) (lx : Fin 8) (group : BitVec 10) (s : State) : Res :=
  issueBlock c tk rb loff 64 (.xtlEntry lx group) s

def execXtlInit (c : CoreIx) (tk : TokIx) (rb : RegIx) (loff : BitVec 14) (lx : Fin 8) (slot : BitVec 8) (s : State) : Res :=
  issueBlock c tk rb loff 64 (.xtlInit lx slot) s

def execXtlGather (c : CoreIx) (tk : TokIx) (rb : RegIx) (loff : BitVec 14) (lx : Fin 8) (slot : BitVec 8) (s : State) : Res :=
  issueBlock c tk rb loff 64 (.xtlGather lx slot) s

end Sys2Proof.Machine
end

