-- ==== Sys2Proof/Machine/Pan.lean ====
section
/-! DEFINITION. The pans' commands in progress (04_pans.md, 05_twin_pans.md): beginning or refusing the command at the
head, passes with their tally and rake, completion, the fill gate, clock gating. -/

namespace Sys2Proof.Machine

/-- Changes one pan. -/
def State.onPan (s : State) (p : ClusterIx) (f : PanSt → PanSt) : State := { s with pan := s.pan.set p (f s.pan[p]) }

/-- A pan register. -/
def panReg (p : ClusterIx) (off : Nat) : Nat := panBase p.val + off

/-- The twin pan (R147). -/
def twinOf (p : ClusterIx) : ClusterIx := Fin.ofNat 8 (if p.val % 2 = 0 then p.val + 1 else p.val - 1)

/-- The context of a pan command of a core. -/
def State.panCtx (s : State) (p : ClusterIx) (core : Nat) : XCtx := XCtx.start s 1 (s.panSrc p.val) (some p.val) core

/-- PAN_FOLD.POLICY. -/
def State.foldPolicy (s : State) (p : ClusterIx) : Nat := s.fld (panReg p 0x10) 1 0

/-- The rake slots and TURN a command names. -/
def UnitOp.slots : UnitOp → List Slot
  | .panStr _ _ sl => [sl]
  | .panMm _ _ sl _ => [sl]
  | .panFill _ sl => [sl]
  | .panTwin _ _ sx _ _ sg _ => [sx, sg]
  | _ => []

/-! How a command ends. -/

/-- Both sides of a twin name the command; `finish` counts it once, when its other side is done. -/
def State.finishPan (s : State) (r : PanRun) (cmd : UnitCmd) (fault : Option Bad) : State :=
  let role := (r.job.map (·.role)).getD 0
  if role = 0 then
    match fault with
    | some b => s.refuse cmd b.1 b.2
    | none => s.finish cmd false
  else
    let tok := match role, cmd.op with
      | 2, .panTwin _ _ _ _ _ _ tw => tw
      | _, _ => cmd.tk
    let other : Bool := match r.twin with
      | some t => (s.pan[t].running.toList ++ s.pan[t].ending).any (fun (q : PanRun) =>
          q.cmd == cmd && (q.job.map (·.role)).getD 0 != 0)
      | none => false
    let s := match fault with
      | some b => s.deferTrap cmd.core 8 b.1 b.2
      | none => s
    let s := s.sendToken cmd.core tok fault.isSome
    if other then s else (s.onCore cmd.core (fun k => k.doneOne .pan)).settle cmd.core

/-- A refused command writes nothing: event, error status, deferred trap; a PAN.TWIN sets both tokens (R140, R168). -/
def State.refusePan (s : State) (p : ClusterIx) (cmd : UnitCmd) (b : Bad) : State :=
  match cmd.op with
  | .panTwin _ _ _ _ _ _ tw =>
    let own := clusterOf cmd.core
    ((s.raise (s.panSrc own.val) b.1 b.2).sendToken cmd.core tw true).refuse cmd b.1 b.2
  | _ => s.refuseRaise (s.panSrc p.val) cmd b

/-- A command ended before it began: its descriptors could not be read. -/
def XCtx.lostPan (x : XCtx) (cmd : UnitCmd) : State :=
  let s := x.close
  match x.badEnd with
  | some b =>
    (match cmd.op with
      | .panTwin _ _ _ _ _ _ tw => s.sendToken cmd.core tw true
      | _ => s).refuse cmd b.1 b.2
  | none => s

/-- A PAN.TWIN. -/
def UnitCmd.isTwin (c : UnitCmd) : Bool :=
  match c.op with
  | .panTwin .. => true
  | _ => false

/-- A command whose streaming operand is a window. -/
def UnitCmd.isWin (c : UnitCmd) : Bool :=
  match c.op with
  | .panStr _ w _ => w
  | .panMm _ w _ _ => w
  | _ => false

/-- The stripe buffer's ways return to the cache when no window command is in progress or next in the queue (R223). -/
def PanSt.settleStripe (q : PanSt) : PanSt :=
  { q with stripeOn := q.stripeOn && ((q.running.toList ++ q.ending).any (fun (r : PanRun) => r.stripe.isSome) ||
      q.queue.head?.any UnitCmd.isWin) }

/-- Takes the head of the queue away, and a PAN.TWIN from both queues (R168). -/
def State.dequeuePan (s : State) (p : ClusterIx) : State :=
  let twin := (s.pan[p].queue.head?).any UnitCmd.isTwin
  let s := s.onPan p (fun q => ({ q with queue := q.queue.tail } : PanSt).settleStripe)
  if twin then s.onPan (twinOf p) (fun q => ({ q with queue := q.queue.tail } : PanSt).settleStripe) else s

/-- A command of the pan is in its passes, its load or its slot's replacement. -/
def PanSt.passing (q : PanSt) : Bool := q.running.any (fun r => !(r.passes.isEmpty && r.job.isSome))

/-- The pan is free to begin something: no pass is in flight and no unit waits for a record (R509). A product whose passes are
done has its writes still to be performed and holds nothing up (R305); a PAN.LDS or PAN.RAKE in progress does. -/
def PanSt.free (q : PanSt) : Bool := !q.passing && q.held.isEmpty

/-- No command of the pan is in progress (R155). -/
def PanSt.idle (q : PanSt) : Bool := q.running.isNone && q.ending.isEmpty && q.held.isEmpty

/-- The streaming window of a run. -/
def PanRun.window (r : PanRun) : Option WinRec :=
  match r.job.bind (fun j => j.parts.head?) with
  | some a => (match a.src with
      | .win w => some w
      | _ => none)
  | none => none

/-- Whether a window command continues the stripe sequence of the one before it on the pan, and its plan (R228). -/
def PanSt.continues (q : PanSt) (w : WinRec) : Option StripePlan :=
  match q.lastWin with
  | some (v, pl, stop) => if w.keep && v == { w with m0 := 0, mcount := 0 } && stop == w.m0 then some pl else none
  | none => none

/-- The stripes of a command that begins: those of the sequence it continues, or new ones; any other command ends the sequence
(R223, R225, R228). -/
def PanSt.beginStripes (q : PanSt) (r : PanRun) : PanSt × Option StripePlan :=
  match r.window with
  | none => ({ q with stripes := [], lastWin := none }, none)
  | some w =>
    let keep := q.continues w
    let pl := match keep with
      | some pl => some pl
      | none => w.plan
    ({ q with
       stripeOn := q.stripeOn || pl.isSome
       stripes := if keep.isSome then q.stripes else []
       lastWin := pl.map (fun pl => ({ w with m0 := 0, mcount := 0 }, pl, w.m0 + w.count)) }, pl)

/-- A tile of unspecified values with the geometry of the last tile a product used (R138, R161; log entry 22). -/
def PanJob.lastTile (j : PanJob) : Tile :=
  let ps := j.passes.getLast?
  let d := match j.stat with
    | .mem d _ _ _ => d.field
    | _ => 0
  ⟨false, uniq (j.passes.map (·.array)), j.tFmt, d, j.cls, j.fold,
    ((j.parts.head?.map (·.dcol)).getD 0) + ((ps.map (·.n0)).getD 0),
    (ps.map (·.kc)).getD j.k, (ps.map (·.nc)).getD j.n, [], none⟩

/-- The tile a cross side preloads for the next PAN.TWIN of its queue (R160). -/
def State.preload (s : State) (p : ClusterIx) : State :=
  match s.pan[p].queue with
  | [] => s
  | c :: _ =>
    match c.op with
    | .panTwin turn _ _ side _ _ _ =>
      let own := clusterOf c.core
      if (if side then twinOf own else own) ≠ p then s
      else
        let x := s.panCtx p c.core.val
        let (d, x) := x.panDesc (c.va 5)
        (match d with
          | .ok d =>
            let nt := (c.word 4).toNat
            let kt := (c.word 7).toNat
            let n0 := (c.word 3).toNat
            let k0 := (c.word 6).toNat
            let (cells, x) := x.readTile d.fmt (.mem d turn n0 k0) nt kt
            if x.fault.isSome ∨ kt = 0 ∨ nt = 0 ∨ 1024 < kt ∨ 1024 < nt then s
            else x.s.onPan p (fun q => { q with
              back := some ⟨true, [0], d.fmt, d.field, (ldsClass d.fmt false).getD 0, 1, k0, nt, kt, cells, none⟩
              preloaded := some c })
          | _ => s)
    | _ => s

/-- The passes of a product are done. PAN.MM and PAN.TWIN leave tiles of unspecified values, but for the W tile that a cross
side preloads while its last rows stream (R138, R160, R161). -/
def State.passesDone (s : State) (p : ClusterIx) (r : PanRun) : State :=
  match r.cmd.op, r.job with
  | .panMm .., some j => s.onPan p (fun q => { q with front := some j.lastTile, back := some j.lastTile, preloaded := none })
  | .panTwin .., some j =>
    let s := s.onPan p (fun q => { q with front := some j.lastTile, back := some j.lastTile, preloaded := none })
    if j.role = 1 ∧ r.prefetch then s.preload p else s
  | _, _ => s

/-- A command begins; one before it whose passes are done ends by itself. With passes to run a gated pan soft-starts (R114),
and the first pass is counted. -/
def State.startRun (s : State) (p : ClusterIx) (r : PanRun) : State :=
  let (q, pl) := s.pan[p].beginStripes r
  let r := { r with stripe := pl }
  let s := s.onPan p (fun _ => { q with ending := q.ending ++ q.running.toList, running := some r })
  if r.passes.isEmpty then s.passesDone p r
  else
    let s := if s.pan[p].gated then (s.onPan p (fun q => { q with gated := false })).count (panReg p 0x4B0) 1 else s
    s.count (panReg p 0x400) 1

/-- A run of a command; `job` is its product with the rake it uses. -/
def State.newRun (s : State) (p : ClusterIx) (x : XCtx) (cmd : UnitCmd) (job : Option (PanJob × Rake)) (fold : Nat) : PanRun where
  job := job.map (·.1)
  cmd := cmd
  fold := fold
  tile := none
  rake := (job.map (·.2)).getD Rake.raw
  spans := (job.map (fun (j, r) => j.spans r)).getD []
  bus := []
  stripe := none
  twin := none
  passes := (job.map (fun (j, _) => j.passes)).getD []
  acc := []
  pend := []
  notes := x.notes
  bads := []
  tally := (s.reg (panReg p 8)).getLsbD 0
  prefetch := (s.reg (panReg p 0x80008)).getLsbD 0
  suspect := []
  nonFinite := []

/-! The fill gate (R131 to R135). -/

/-- A request's tag: tile and rake slot. -/
def UnitCmd.tag (c : UnitCmd) : List (BitVec 64) × UnitOp := (c.block.take 5, c.op)

/-- Rows of a batch. -/
def Batch.rows (b : Batch) : Nat := (b.reqs.map (fun r => (r.cmd.word 7).toNat)).foldl (· + ·) 0

/-- The tag of a batch. -/
def Batch.tag (b : Batch) : Option (List (BitVec 64) × UnitOp) := (b.reqs.head?).map (fun r => r.cmd.tag)

/-- A batch fires (R134): it joins the fired ones, and is counted. -/
def State.fire (s : State) (p : ClusterIx) (b : Batch) (timeout : Bool) : State :=
  let s := s.onPan p (fun q => { q with batches := q.batches.filter (fun c => c ≠ b), fired := q.fired ++ [b] })
  let s := (s.count (panReg p 0x480) 1).count (panReg p 0x490) b.rows
  if timeout then s.count (panReg p 0x4A0) 1 else s

/-- Fires the earliest-opened batches while the pending rows plus `r` exceed 4096 (R132). -/
def State.fireRoom (p : ClusterIx) (r : Nat) : Nat → State → State
  | 0, s => s
  | n + 1, s =>
    match s.pan[p].batches with
    | b :: _ =>
      if 4096 < ((s.pan[p].batches.map Batch.rows).foldl (· + ·) 0) + r then State.fireRoom p r n (s.fire p b false) else s
    | [] => s

/-- THRESHOLD and TIMEOUT in force (values outside 32–4096 act as the bounds). -/
def State.fillCtl (s : State) (p : ClusterIx) : Nat × Nat :=
  (max 32 (min 4096 (s.fld (panReg p 0x18) 12 0)), s.fld (panReg p 0x18) 23 16)

/-- Batches opened TIMEOUT tides ago fire, in order of opening (R133). -/
def State.fireDue (s : State) (p : ClusterIx) : State :=
  (s.pan[p].batches.filter (fun b => decide (b.tmo ≠ 0 ∧ b.since.toNat + b.tmo ≤ s.tide.num.toNat))).foldl
    (fun s b => s.fire p b true) s

/-- The gate accepts a request (R132). A batch whose time is over has fired at its edge and takes none (R133). -/
def State.acceptFill (s : State) (p : ClusterIx) (f : FillReq) : State :=
  let s := s.fireDue p
  let r := (f.cmd.word 7).toNat
  let tag := f.cmd.tag
  let mine (s : State) : Option Batch := s.pan[p].batches.find? (fun b => b.tag = some tag)
  let s := match mine s with
    | some b => if b.thr < b.rows + r then s.fire p b false else s
    | none => s
  let s := match mine s, s.pan[p].batches with
    | none, b :: l => if 8 ≤ l.length + 1 then s.fire p b false else s
    | _, _ => s
  let s := State.fireRoom p r 8 s
  let (thr, tmo) := s.fillCtl p
  let s := match mine s with
    | some b =>
      s.onPan p (fun q => { q with batches := q.batches.map (fun c => if c = b then { c with reqs := c.reqs ++ [f] } else c) })
    | none => s.onPan p (fun q => { q with batches := q.batches ++ [⟨[f], s.tide.num, thr, tmo⟩] })
  match mine s with
  | some b => if b.thr ≤ b.rows then s.fire p b false else s
  | none => s

/-- FILL_TIMEOUT (R133): every batch opened TIMEOUT tides ago fires, in order of opening. -/
def execFillTimeout (p : ClusterIx) (s : State) : Res := .next (s.fireDue p)

/-! Beginning a command. -/

/-- Whether the tile of a batch stands in FRONT (R134): loaded from the same descriptor address, offsets, extents and TURN, in the
class and fold the batch runs in (DESIGN CHOICE, log entry 89). -/
def Tile.holds (t : Tile) (req : UnitCmd) (cls fold : Nat) : Bool :=
  t.known && t.cls == cls && t.fold == fold &&
    (match t.src with
      | some c => (match c.op, req.op with
          | .panFill a _, .panFill b _ => a == b && c.block.take 5 == req.block.take 5
          | .panLds a _ _, .panFill b _ => a == b && c.block.take 5 == req.block.take 5
          | _, _ => false)
      | none => false)

/-- A fired batch begins: against FRONT when FRONT holds its tile, else its tile is loaded and swapped in (R134). When it is
refused, each of its requests is (R140). -/
def State.beginBatch (s : State) (p : ClusterIx) (b : Batch) : State :=
  let q := s.pan[p]
  match b.reqs with
  | [] => s.onPan p (fun q => { q with fired := q.fired.tail })
  | f :: _ =>
    let (turn, slot) := match f.cmd.op with
      | .panFill t sl => (t, sl)
      | _ => (false, Slot.raw)
    let s := s.onPan p (fun q => { q with fired := q.fired.tail })
    let build (core : Nat) : Read (PanJob × Rake) × XCtx :=
      (s.panCtx p core).buildFill q (s.foldPolicy p) b.reqs turn slot (q.slotWords slot)
    let refuseAll (s : State) (e : Nat → Bad) : State :=
      b.reqs.foldl (fun s r => s.refuseRaise (s.panSrc p.val) r.cmd (e r.cmd.core.val)) s
    if q.width = 0 then refuseAll s (fun c => bad1001 5 c slot)
    else
      let (j, x) := build f.cmd.core.val
      match j with
      | .bad e => refuseAll x.close (fun c => match (build c).1 with
          | .bad e => e
          | _ => e)
      | .lost =>
        let s := x.close
        (match x.badEnd with
          | some e => b.reqs.foldl (fun s r => s.refuse r.cmd e.1 e.2) s
          | none => s)
      | .ok (j, rk) =>
        let front := match q.front with
          | some t => if t.holds f.cmd j.cls j.fold ∧ !(q.holding t).isEmpty then some t else none
          | none => none
        let (cells, x) := match front with
          | some t => (t.cells, x)
          | none => x.readTile j.tFmt j.stat j.k j.n
        let arr := match front with
          | some t => q.holding t
          | none => q.arrays j.fold
        let j := ({ j with stat := .cells j.n cells } : PanJob).planned q arr true
        let s := x.s
        let s := if front.isSome then s
          else s.onPan p (fun q => { q with
            front := some ⟨true, arr, j.tFmt, f.stat.field, j.cls, j.fold, (f.cmd.word 2).toNat, j.k, j.n, cells, some f.cmd⟩
            back := none, preloaded := none })
        let all := (List.range b.reqs.length).map (fun i => x.fault.map (fun e => (i, e)))
        s.startRun p { s.newRun p x f.cmd (some (j, rk)) j.fold with bads := all.filterMap id }

/-- PAN.STR at the head (R137, R221). -/
def State.beginStr (s : State) (p : ClusterIx) (cmd : UnitCmd) (swap win : Bool) (slot : Slot) : State :=
  let q := s.pan[p]
  match (if swap then q.back else q.front) with
  | none => (s.dequeuePan p).refusePan p cmd (bad1001 2 cmd.core.val slot)
  | some tile =>
    let (j, x) := (s.panCtx p cmd.core.val).buildStr q cmd win slot (q.slotWords slot) tile
    match j with
    | .bad e => ((x.close).dequeuePan p).refusePan p cmd e
    | .lost => ({ x with s := x.s.dequeuePan p } : XCtx).lostPan cmd
    | .ok (j, rk) =>
      let s := x.s.dequeuePan p
      let s := if swap then s.onPan p (fun q => { q with front := q.back, back := none, preloaded := none }) else s
      let s := match (j.parts.head?).bind (fun a => a.src.emptyDim) with
        | some (d, o) => s.raise (s.panSrc p.val) 0x1006 (pack [(cmd.core.val, 0), (d, 8), (intCode 32 o, 16)])
        | none => s
      s.startRun p (s.newRun p x cmd (some (j, rk)) j.fold)

/-- PAN.MM at the head (R112, R113, R221). -/
def State.beginMm (s : State) (p : ClusterIx) (cmd : UnitCmd) (turn win : Bool) (slot : Slot) (sel : FoldSel) : State :=
  let q := s.pan[p]
  let (j, x) := (s.panCtx p cmd.core.val).buildMm q (s.foldPolicy p) cmd turn win slot sel (q.slotWords slot)
  match j with
  | .bad e => ((x.close).dequeuePan p).refusePan p cmd e
  | .lost => ({ x with s := x.s.dequeuePan p } : XCtx).lostPan cmd
  | .ok (j, rk) =>
    let s := x.s.dequeuePan p
    let s := match (j.parts.head?).bind (fun a => a.src.emptyDim) with
      | some (d, o) => s.raise (s.panSrc p.val) 0x1006 (pack [(cmd.core.val, 0), (d, 8), (intCode 32 o, 16)])
      | none => s
    s.startRun p (s.newRun p x cmd (some (j, rk)) j.fold)

/-- PAN.LDS at the head (R136): it reads its tile with the descriptor, fold and arrays of its beginning (R109, R323). -/
def State.beginLds (s : State) (p : ClusterIx) (cmd : UnitCmd) (turn narrow : Bool) (sel : FoldSel) : State :=
  let (j, x) := (s.panCtx p cmd.core.val).buildLds s.pan[p] (s.foldPolicy p) cmd turn narrow sel
  match j with
  | .bad e => ((x.close).dequeuePan p).refusePan p cmd e
  | .lost => ({ x with s := x.s.dequeuePan p } : XCtx).lostPan cmd
  | .ok (t, src) =>
    let (cells, x) := x.readTile t.fmt src t.k t.n
    let s := x.s.dequeuePan p
    s.startRun p { s.newRun p x cmd none t.fold with tile := some { t with cells := cells, known := x.fault.isNone } }

/-- PAN.TWIN at the head of both queues (R155 to R157, R168): both sides begin. -/
def State.beginTwin (s : State) (p : ClusterIx) (cmd : UnitCmd) (turn xt : Bool) (xslot : Slot) (side acc : Bool)
    (gslot : Slot) : State :=
  let own := clusterOf cmd.core
  let cp := if side then twinOf own else own
  let gp := twinOf cp
  let qc := s.pan[cp]
  let qg := s.pan[gp]
  -- a tile preloaded for a refused command is discarded: BACK holds unspecified values (R160, R161)
  let drop (s : State) : State := s.onPan cp (fun q =>
    if q.preloaded.isSome then
      { q with back := q.back.map (fun t => { t with known := false, cells := [], src := none }), preloaded := none }
    else q)
  let stop (s : State) (e : Bad) : State := drop ((s.dequeuePan p).refusePan p cmd e)
  if qc.width = 0 ∨ qg.width = 0 then stop s (bad1001 5 cmd.core.val xslot)
  else if qc.slotMissing xslot then stop s (bad1001 3 cmd.core.val xslot)
  else if qg.slotMissing gslot then stop s (bad1001 3 cmd.core.val gslot)
  else
    let (o, x) := (s.panCtx own cmd.core.val).checkTwin qc.width qg.width cmd acc xslot gslot (qc.slotWords xslot)
      (qg.slotWords gslot)
    match o with
    | .bad e => stop x.close e
    | .lost => drop (({ x with s := x.s.dequeuePan p } : XCtx).lostPan cmd)
    | .ok o =>
      let pre := match qc.preloaded, qc.back with
        | some c, some t => if c = cmd then some t.cells else none
        | _, _ => none
      let jc := crossJob qc cmd o turn (qc.slotWords xslot) pre
      let jg := gatherJob qg cmd o xt acc (qg.slotWords gslot)
      let s := (x.s.dequeuePan p).onPan cp (fun q => { q with preloaded := none })
      -- R157: when either pan is gated, both soft-start
      let gate := (qc.gated || qg.gated) && !jc.passes.isEmpty
      let s := if gate then (s.onPan cp (fun q => { q with gated := true })).onPan gp (fun q => { q with gated := true }) else s
      -- R164: an element of either side must not meet an operand of either side
      let run (s : State) (q : ClusterIx) (j : PanJob) (rk : Rake) (far : List (Int × Nat)) (n : XNotes) : State :=
        let r := s.newRun q x cmd (some (j, rk)) 1
        s.startRun q { r with twin := some (twinOf q), notes := n, spans := r.spans ++ far }
      run (run s cp jc o.rx (jg.allSpans o.rg) x.notes) gp jg o.rg (jc.allSpans o.rx) XNotes.none

/-- PAN_COMMAND_BEGIN (R140, R155, R305, R629): a free pan begins its first fired batch, else the command at the head of its
queue; a PAN.TWIN waits for its partner, a PAN.RAKE for the commands that use its slot (R125). -/
def execPanCommandBegin (p : ClusterIx) (s : State) : Res :=
  let q := s.pan[p]
  if !s.clocked || !q.free then .next s
  else
    match q.fired, q.queue with
    | b :: _, _ => .next (s.beginBatch p b)
    | [], [] => .next s
    | [], cmd :: _ =>
      let core := cmd.core.val
      let refuse (c : Nat) (sl : Slot) : Res := .next ((s.dequeuePan p).refusePan p cmd (bad1001 c core sl))
      match cmd.op with
      | .panTwin turn xt xs side acc gs _ =>
        let t := s.pan[twinOf p]
        if q.idle && t.idle && t.fired.isEmpty && t.queue.head? == some cmd then .next (s.beginTwin p cmd turn xt xs side acc gs)
        else .next s
      | .panFillFlush =>
        if q.width = 0 then refuse 5 .raw
        else
          let s := (s.dequeuePan p).fireDue p
          let s := s.pan[p].batches.foldl (fun s b => s.fire p b false) s
          .next (s.finish cmd false)
      | .panRake slot =>
        let busy := (q.batches ++ q.fired).any (fun b => b.reqs.any (fun r => r.cmd.op.slots.contains (.slot slot))) ||
          (q.running.toList ++ q.ending).any (fun (r : PanRun) => r.cmd.op.slots.contains (.slot slot))
        if q.width = 0 then refuse 5 (.slot slot)
        else if busy then .next s
        else if rakeInvalid (blockBytes cmd.block) then refuse 4 (.slot slot)
        else
          let s := s.dequeuePan p
          .next (s.startRun p (s.newRun p (s.panCtx p core) cmd none 1))
      | .panFill _ slot =>
        if q.width = 0 then refuse 5 slot
        else if q.slotMissing slot then refuse 3 slot
        else
          let (f, x) := (s.panCtx p core).checkFill q (s.foldPolicy p) cmd slot (q.slotWords slot)
          (match f with
            | .bad e => .next (((x.close).dequeuePan p).refusePan p cmd e)
            | .lost => .next (({ x with s := x.s.dequeuePan p } : XCtx).lostPan cmd)
            | .ok f =>
              -- without columns there is nothing to gather: it completes at once (R113)
              if cmd.word 4 = 0 then .next (((x.close).dequeuePan p).finish cmd false)
              else .next (((x.close).dequeuePan p).acceptFill p f))
      | .panLds turn narrow sel => if q.width = 0 then refuse 5 .raw else .next (s.beginLds p cmd turn narrow sel)
      | .panStr swap win slot =>
        if q.width = 0 then refuse 5 slot
        else if q.slotMissing slot then refuse 3 slot
        else .next (s.beginStr p cmd swap win slot)
      | .panMm turn win slot sel =>
        if q.width = 0 then refuse 5 slot
        else if q.slotMissing slot then refuse 3 slot
        else .next (s.beginMm p cmd turn win slot sel)
      | _ => .next s

/-! Passes. -/

/-- A suspect unit's record as its pan first makes it (R509). -/
def PanJob.record (j : PanJob) (p : ClusterIx) (u : PanUnit) (engines : List Nat) : RepRec where
  pan := p
  cmds := j.parts.map (·.cmd)
  role := j.role
  rake := j.rake
  lds := j.lds
  unit := u
  engines := engines
  contOver := false
  sigs := ⟨0, 0⟩
  ovf := []
  phase := .running
  replayPan := none
  thirdPan := none
  repSigs := ⟨0, 0⟩
  repEngines := []

/-- A unit becomes suspect (R129, R509): a record is taken, or the pan waits for one with event 0x0309. A unit that
is suspect already adds the engines. -/
def State.suspect (s : State) (p : ClusterIx) (r : RepRec) : State :=
  let d := panDie p
  let same (o : RepRec) : Bool := o.pan == p && o.phase == .running && o.role == r.role && o.unit == r.unit && o.cmds == r.cmds
  let add (l : List RepRec) : List RepRec :=
    l.map (fun o => if same o then { o with engines := r.engines.foldl (fun a e => setAdd e a) o.engines } else o)
  if s.int.recs[d].any same then s.onRecs d add
  else if s.pan[p].held.any same then s.onPan p (fun q => { q with held := add q.held })
  else
    let s := s.count 0x210400 1
    if s.int.recs[d].length < 16 then s.onRecs d (fun l => l ++ [r])
    else
      let s := if s.pan[p].held.isEmpty then s.raiseMod 2 0x309 (pack [(d.val, 0), (p.val, 4)]) else s
      s.onPan p (fun q => { q with held := q.held ++ [r] })

/-- The continuation elements of a unit that its own command overwrites (R512). -/
def PanJob.contOver (j : PanJob) (u : PanUnit) : Bool :=
  let pos (p : PanPart) (d : Desc) (lo cnt n0 nn : Nat) : List (Int × Nat) :=
    if d.empty then []
    else (List.range cnt).flatMap (fun i => (List.range nn).flatMap (fun n => d.spans (delinear d.ext (p.at d (lo + i) (n0 + n)).1)))
  let dsts := j.parts.flatMap (fun p => pos p p.dst 0 p.rows 0 j.n)
  (unitParts j.parts u).any (fun (p, lo, cnt, _) =>
    match p.cont with
    | some c => (pos p c lo cnt u.n0 u.nn).any (fun a => dsts.any (spansMeet a))
    | none => false)

/-- Stores what a command writes: stages 3, 5 and 6 before the destination. A request that met a fault, before or here, leaves its
own elements unspecified (R135, R342). -/
def XCtx.storePlans (x : XCtx) (plans : List RakePlan) (bads : List (Nat × (Nat × Nat))) :
    List (Nat × (Nat × Nat)) × XCtx :=
  let order := plans.filter (fun a => a.kind != 0) ++ plans.filter (fun a => a.kind == 0)
  let share (a : RakePlan) (req : Nat) : Plan :=
    if a.lots.all (fun l => l.1 == req) then a.plan
    else a.plan.cut ((a.lots.filter (fun l => l.1 == req)).flatMap (·.2))
  let (bads, x) := order.foldl (fun (acc : List (Nat × (Nat × Nat)) × XCtx) a =>
    (uniq (a.lots.map (·.1))).foldl (fun (acc : List (Nat × (Nat × Nat)) × XCtx) req =>
      if acc.1.any (fun b => b.1 == req) then acc
      else
        let (f, x) := acc.2.ownFault (fun x => ((), x.put (share a req)))
        (addBad req f.2 acc.1, x)) acc) (bads, x)
  (bads, order.foldl (fun x a =>
    ((uniq (a.lots.map (·.1))).filter (fun req => bads.any (fun b => b.1 == req))).foldl (fun x req =>
      x.scramble (share a req)) x) x)

/-- The rake over every unit of a command whose passes are done: writes, counts, overflow of each command's own step (R83, R121,
R135, R514), and the signatures of suspect units. The faults that its requests met come with it. -/
def XCtx.finishPasses (x : XCtx) (p : ClusterIx) (r : PanRun) (j : PanJob) : List (Nat × (Nat × Nat)) × XCtx :=
  let part := x.part.getD 0
  let seed := (x.s.seed[Fin.ofNat 4 part]).toNat
  let before := x.ovfs
  let ((outs, plans, bads), x) := x.rakeUnits j r.rake j.units r.acc r.spans seed
  let x := { x with s := x.s.count (panReg p 0x470) (x.ovfs - before) }
  let x := (outs.zip j.units.zipIdx).foldl (fun (x : XCtx) (o, u, i) =>
    let steps := uniq (o.ovf ++ (r.nonFinite.filter (fun a => a.1 = i)).map (·.2))
    match r.suspect.find? (fun (k, _) => k = i) with
    | none => { x with s := steps.foldl (fun s k => s.setOverflow part p.val k) x.s }
    | some _ =>
      -- the operands are read for the signature alone
      let (sig, _) := x.opSig j r.rake u
      let fill (c : RepRec) : RepRec :=
        if c.pan = p ∧ c.phase = .running ∧ c.role = j.role ∧ c.unit = u then
          { c with sigs := ⟨sig, o.sig⟩, ovf := steps, contOver := j.contOver u, phase := .replay }
        else c
      let s := (x.s.onRecs (panDie p) (fun l => l.map fill)).onPan p (fun q => { q with held := q.held.map fill })
      { x with s := s }) x
  let bads := bads.foldl (fun l b => addBad b.1 (some b.2) l) r.bads
  -- a fault in what every request shares is a fault of each
  let shared := match r.cmd.op with
    | .panFill .. => none
    | _ => x.fault
  x.storePlans plans (addBad 0 shared bads)

/-- Rows of a turned X read at full rate from the gather cluster's retention area, or pan-cycles of slow rows: every pass of
the gather side reads them (R174). -/
def XCtx.turnCount (x : XCtx) (p : ClusterIx) (j : PanJob) : XCtx :=
  if j.role ≠ 2 then x
  else
    match j.parts.head? with
    | none => x
    | some a =>
      match a.src with
      | .mem _ true _ _ =>
        let all := (a.src.spans a.rows j.k).all (fun (v, _) =>
          match (x.s.xlate x.part 1 .read false v).reason with
          | none => x.s.region (x.s.xlate x.part 1 .read false v).pa == some (.ret p.val)
          | some _ => false)
        { x with s := if all then x.s.count (panReg p 0x80440) a.rows else x.s.count (panReg p 0x80450) (16 * a.rows) }
      | _ => x

/-- The product of the pass in progress: the gather side's tile is what the twin bus has brought (R147, R150). -/
def PanRun.passJob (r : PanRun) (j : PanJob) : PanJob := if j.role = 2 then { j with stat := .cells j.n r.bus } else j

/-- Whether the rows of dY that a gather pass needs have not all come over the twin bus. -/
def PanRun.waitsBus (r : PanRun) (j : PanJob) (ps : PanPass) : Bool :=
  j.role == 2 && decide (r.bus.length < (ps.k0 + ps.kc) * j.n)

/-- PAN_PASS_COMPLETE (R96, R129): the pass in progress ends with its tally compared. `ups` are the faults of the array during the
pass. A gather pass ends after the cross pass that sends its block of dY (R147; log entry 90). -/
def execPanPassComplete (p : ClusterIx) (ups : List Upset) (s : State) : Res :=
  match s.pan[p].running with
  | none => .next s
  | some r =>
    match r.job, r.passes with
    | some j, ps :: rest =>
      if !s.pan[p].held.isEmpty || r.waitsBus j ps then .next s
      else
        let x := { (s.panCtx p r.cmd.core.val).resume r.notes with stripe := r.stripe, stripes := s.pan[p].stripes }
        let (o, x) := x.runPass (r.passJob j) ps ups r.tally (PassOut.start r.acc r.pend)
        let x := x.turnCount p j
        if x.held s then .next s
        else
        let s := x.s.onPan p (fun q => { q with stripes := x.stripes })
        -- counts of the pass
        let macs := s.pan[p].mac + ps.rows.length * ps.nc * ps.kc
        let s := (s.onPan p (fun q => { q with mac := macs % 2 ^ 20 })).count (panReg p 0x410) (macs / 2 ^ 20)
        let s := (s.count (panReg p 0x440) o.fails).count (panReg p 0x450) o.skips
        let s := if r.tally then s else s.count (panReg p 0x460) 1
        let s := if j.role = 1 then
            (s.count (panReg p 0x80430) ps.rows.length).onPan (twinOf p) (fun q =>
              { q with running := q.running.map (fun t => { t with bus := t.bus ++ o.bus }) })
          else s
        let unit := (j.units.zipIdx.find? (fun (u, _) =>
          decide (u.n0 ≤ ps.n0 ∧ ps.n0 < u.n0 + u.nn) && ps.rows.any u.rows.contains))
        let s := match o.first with
          | none => s
          | some (i, g) =>
            let dest := match partAt j.parts i with
              | some (a, k) => a.drow + k
              | none => 0
            s.raise (s.panSrc p.val) 0x1002 (pack [(bitsOf (s.ctrAt (panReg p 0x400)) 31 0, 32), (low 24 dest, 8),
              (((j.engines ps.array g).getLast?).getD 0, 0)])
        let engines := o.groups.flatMap (j.engines ps.array)
        let (s, r) := match unit with
          | none => (s, r)
          | some (u, i) =>
            let r := { r with nonFinite := r.nonFinite ++ o.nonFinite.map (fun k => (i, k)) }
            if o.groups.isEmpty then (s, r)
            else
              (s.suspect p (j.record p u engines), { r with suspect := (i, engines) :: r.suspect })
        let bads := o.bads.foldl (fun l b => addBad b.1 (some b.2) l) r.bads
        -- TALLY_EN governs the passes that begin after its write (R130)
        let r := { r with
          passes := rest, acc := o.acc, pend := o.pend, bads := bads, tally := (s.reg (panReg p 8)).getLsbD 0
          notes := x.notes }
        let s := s.onPan p (fun q => { q with running := some r })
        .next (if rest.isEmpty then s.passesDone p r else s.count (panReg p 0x400) 1)
    | _, _ => .next s

/-! Completion. -/

/-- The command that completes next: the oldest whose writes are still to be performed, or the one in progress when it has no
pass left. -/
def PanSt.completing (q : PanSt) : Option PanRun :=
  match q.ending with
  | r :: _ => some r
  | [] => q.running.filter (fun r => r.passes.isEmpty)

/-- The pan without it. -/
def PanSt.completed (q : PanSt) : PanSt :=
  PanSt.settleStripe (match q.ending with
    | _ :: l => { q with ending := l }
    | [] => { q with running := none })

/-- The requests of a fired batch end, each with the fault it met itself (R134, R135, R342). -/
def State.endFill (s : State) (p : ClusterIx) (j : PanJob) (bads : List (Nat × (Nat × Nat))) : State :=
  j.parts.foldl (fun s a =>
    match assoc a.req bads with
    | some f =>
      let v := (s.panCtx p a.cmd.core.val).faultPayload f
      (s.raise (s.panSrc p.val) 0x1202 v).refuse a.cmd 0x1202 v
    | none => s.finish a.cmd false) s

/-- PAN_COMMAND_COMPLETE (R305): a command with no pass left completes. The rake's stages 2 to 7 have run and its writes are
performed; PAN.LDS has loaded its tile into BACK, PAN.RAKE has replaced its slot; OOB_CNT and the command's events come before
its token (R330). -/
def execPanCommandComplete (p : ClusterIx) (s : State) : Res :=
  match s.pan[p].completing with
  | none => .next s
  | some r =>
    let x := (s.panCtx p r.cmd.core.val).resume r.notes
    match r.cmd.op, r.job with
    | .panRake slot, _ =>
      .next ((s.onPan p (fun q => { q.completed with slots := q.slots.set slot (some r.cmd.block) })).finish r.cmd false)
    | .panLds .., _ =>
      let s := x.close.onPan p (fun q => { q.completed with back := r.tile, preloaded := none })
      (match x.badEnd with
        | some b => .next (s.refuse r.cmd b.1 b.2)
        | none => .next (s.finish r.cmd false))
    | _, none => .next (s.onPan p PanSt.completed)
    | op, some j =>
      let (bads, x) := x.finishPasses p r (r.passJob j)
      let done (s : State) : State := s.onPan p PanSt.completed
      match op with
      | .panFill .. =>
        let s := done ({ x with fault := none } : XCtx).close
        .next ((s.endFill p j bads).settleRecs (panDie p))
      | .panTwin .. =>
        let s := (done x.close).count (panReg p 0x80400) 1
        let s := if j.role = 1 then s.count (panReg p 0x80420) (twinHold j.cls r.cmd) else s
        .next ((s.finishPan r r.cmd x.badEnd).settleRecs (panDie p))
      | _ => .next (((done x.close).finishPan r r.cmd x.badEnd).settleRecs (panDie p))

/-- PAN_CLOCK_GATE (R114): after IDLE_CYCLES pan-cycles with no pass in flight the pan gates its engine clocks. -/
def execPanClockGate (p : ClusterIx) (s : State) : Res :=
  if s.pan[p].running.any (fun r => !r.passes.isEmpty) then .next s else .next (s.onPan p (fun q => { q with gated := true }))

end Sys2Proof.Machine
end

