-- ==== Sys2Proof/Machine/Taps.lean ====
section
/-! DEFINITION. The snoop taps: check-value contexts fed and lines traced (R523 to R528). -/

namespace Sys2Proof.Machine

/-! Check-value units. -/

/-- One bit of a CRC of width `w` (R523). -/
def crcBit (w poly : Nat) (v : Nat) (bit : Bool) : Nat :=
  let top := (v / 2 ^ (w - 1) % 2 == 1) != bit
  let v := v * 2 % 2 ^ w
  if top then Nat.xor v (poly % 2 ^ w) else v

/-- One byte: least significant bit first when `refIn` (R523). -/
def crcByte (w poly : Nat) (refIn : Bool) (v : Nat) (b : Byte) : Nat :=
  (List.range 8).foldl (fun v i => crcBit w poly v (b.getLsbD (if refIn then i else 7 - i))) v

/-- The low `w` bits in reverse order. -/
def bitReverse (w v : Nat) : Nat :=
  ((List.range w).map (fun i => v / 2 ^ i % 2 * 2 ^ (w - 1 - i))).foldl (· + ·) 0

/-- A check-value unit's width in force: values outside 8–64 act as 64 (R523). -/
def State.cvWidth (s : State) (n : Nat) : Nat :=
  let w := s.fld (cvBase n) 22 16
  if 8 ≤ w ∧ w ≤ 64 then w else 64

/-- Offset of a context's registers. -/
def cvCtx (n k : Nat) : Nat := cvBase n + 0x100 + 0x40 * k

/-- RES of a context (R523). -/
def State.cvResult (s : State) (n k : Nat) : BitVec 64 :=
  let w := s.cvWidth n
  let v := (s.reg (cvCtx n k)).toNat % 2 ^ w
  let v := if (s.reg (cvBase n)).getLsbD 2 then bitReverse w v else v
  BitVec.ofNat 64 (Nat.xor v ((s.reg (cvBase n + 0x18)).toNat % 2 ^ w))

/-- One byte taken by a context's running register. -/
def State.cvTake (s : State) (n k : Nat) (b : Byte) : State :=
  let w := s.cvWidth n
  let v := crcByte w (s.reg (cvBase n + 8)).toNat ((s.reg (cvBase n)).getLsbD 1) ((s.reg (cvCtx n k)).toNat % 2 ^ w) b
  s.setReg (cvCtx n k) (BitVec.ofNat 64 v)

/-- One byte of the tapped stream at virtual address `a` offered to context `k` of unit `n` (R526). -/
def State.cvFeed (s : State) (n k a : Nat) (b : Byte) : State :=
  let c := cvCtx n k
  let base := s.reg (c + 0x10)
  let len := s.fld (c + 0x18) 40 0
  let va := bitsOf base 55 0
  let fed := s.fld (c + 0x20) 40 0
  if !base.getLsbD 63 || s.int.cvDead.contains (n, k) || !(decide (va ≤ a) && decide (a < va + len)) then s
  else if a = va + fed then
    let s := (s.cvTake n k b).setFld (c + 0x20) 40 0 (fed + 1)
    if fed + 1 = len then s.setFld (c + 0x20) 63 63 1 else s
  else
    let s := s.setFld (cvBase n + 0x20) (16 + k) (16 + k) 1
    ({ s with int := { s.int with cvDead := (n, k) :: s.int.cvDead } } : State).raise (s.cvSrc n) 0x307
      (pack [(n, 0), (k, 4)])

/-- A run of bytes offered to every context of unit `n`. -/
def State.cvRun (s : State) (n va : Nat) (bs : List Byte) : State :=
  (List.range 16).foldl (fun s k =>
    bs.zipIdx.foldl (fun s (b, i) => s.cvFeed n k (va + i) b) s) s

/-- Whether unit `n` is enabled on a tap. -/
def State.cvOn (s : State) (n tap : Nat) : Bool :=
  (s.reg (cvBase n)).getLsbD 0 && s.fld (cvBase n) 15 8 == tap

/-! Trace (R528). -/

/-- Offset of a die's trace registers. -/
def traceBase (d : Nat) : Nat := 0x220000 + 0x100 * d

/-- One line of the traced stream: one in 2^SAMPLE is recorded, or dropped and flagged in the next record; with WRAP 0 the unit stops at the buffer's end. -/
def State.traceLine (s : State) (d tap va : Nat) (bs : List Byte) : State :=
  let b := traceBase d
  let dd : Fin 4 := Fin.ofNat 4 d
  if !(s.reg b).getLsbD 0 || (s.reg b).getLsbD 1 || s.fld b 15 8 != tap then s
  else
    let n := s.int.traced[dd] + 1
    if n < 2 ^ s.fld b 7 4 then { s with int := { s.int with traced := s.int.traced.set dd n } }
    else
      -- whether the record is written in time is a free choice (log entry 107)
      let (w, s) := s.fresh
      let lost := w.getLsbD 0
      let flag := b2n s.int.traceLost[dd]
      let s := { s with int := { s.int with traced := s.int.traced.set dd 0, traceLost := s.int.traceLost.set dd lost } }
      let len := (s.reg (b + 0x10)).toNat
      let ptr := s.fld (b + 0x18) 40 0
      let rec_ := leBytes 8 s.tide.num.toNat ++ leBytes 4 s.tide.ns ++ [BitVec.ofNat 8 tap, BitVec.ofNat 8 flag] ++
        leBytes 2 bs.length ++ leBytes 8 va ++ (bs ++ List.replicate 8 0).take 8
      if lost || decide (len < ptr + 32) then s
      else
        let s := s.store ((s.reg (b + 8)).toNat + ptr) rec_
        let next := ptr + 32
        if len < next + 32 then
          if (s.reg b).getLsbD 2 then s.setFld (b + 0x18) 40 0 0
          else ((s.setFld (b + 0x18) 40 0 next).setFld b 1 1 1).raise ⟨d, 2, 0xFF, s.partNum d⟩ 0x30A (BitVec.ofNat 64 d)
        else s.setFld (b + 0x18) 40 0 next

/-- Cuts a run of bytes at 64-byte lines. -/
def cutLines (va : Nat) (bs : List Byte) : List (Nat × List Byte) :=
  let head := 64 - va % 64
  if bs.length ≤ head then (if bs.isEmpty then [] else [(va, bs)])
  else
    (va, bs.take head) ::
      ((chunks 64 bs.length (bs.drop head)).zipIdx.map (fun (l, i) => (va + head + 64 * i, l)))

/-- A run of bytes seen by a tap of a die: the check-value units of the die and its trace unit. -/
def State.tap (s : State) (d tap va : Nat) (bs : List Byte) : State :=
  let s := [2 * d, 2 * d + 1].foldl (fun s n => if s.cvOn n tap then s.cvRun n va bs else s) s
  if (s.reg (traceBase d)).getLsbD 0 then (cutLines va bs).foldl (fun s (a, l) => s.traceLine d tap a l) s else s

/-- A run of bytes of crystallizer x's slow tier seen by CV8+x: tap 0 sluice reads, 1 sluice writes. -/
def State.tapSlow (s : State) (x tap va : Nat) (bs : List Byte) : State :=
  if s.cvOn (8 + x) tap then s.cvRun (8 + x) va bs else s

end Sys2Proof.Machine
end

