-- ==== Sys2Proof/Machine/SluMath.lean ====
section
/-! DEFINITION. How a sluice addresses, reads, writes and combines elements (14_sluices.md): owner tables, copies
and their block scales, add-on-writes, pressed blocks, packed bytes. -/

namespace Sys2Proof.Machine

/-! This module's identity and the connection table. -/

/-- TU_DEVICE. -/
def State.device (s : State) : Nat := s.fld (optBase 0) 15 0

/-- The connection entry of a die for an endpoint, where one is valid (R482). An entry that is not listed reads
VALID 0. -/
def State.connOf (s : State) (d dev die : Nat) : Option Nat :=
  let b := optBase d + 0x8000
  (s.regs.find? (fun (o, v) =>
    decide (b ≤ o) && decide (o < b + 0x4000) && v.getLsbD 63 && bitsOf v 15 0 == dev && bitsOf v 17 16 == die)).map
    (fun (o, _) => (o - b) / 8)

/-- Whether a connection entry is broken. -/
def State.connBroken (s : State) (d j : Nat) : Bool := (s.reg (optBase d + 0x8000 + 8 * j)).getLsbD 62

/-! The context of a sluice command. -/

/-- OP as RED segments and collective tags code it. -/
def redCode : RedOp → Nat
  | .sum => 0
  | .min => 1
  | .max => 2

/-- Bytes to be written or added at an owner on another module; `red` is the element format and OP of a RED. -/
structure SluOut where
  dev : Nat
  die : Nat
  va : Nat
  data : List Byte
  red : Option (Nat × Nat)
  deriving DecidableEq, Repr

/-- A sluice command's dealings: the memory context, bytes already fetched from owners, bytes it still needs, what it
sends to owners, the first bad owner entry (R347), fleur granules. -/
structure SluCtx where
  x : XCtx
  got : List ((Nat × Nat × Nat) × Byte)
  need : List (Nat × Nat × Nat)
  outs : List SluOut
  bad : Option Bad
  gran : Nat
  lastGran : Option Nat

/-- A context of a sluice. -/
def State.sluCtx (s : State) (i : Nat) (core : Nat) (got : List ((Nat × Nat × Nat) × Byte)) : SluCtx :=
  ⟨{ XCtx.start s 2 (s.sluSrc i) (some (i / 4)) core with log := true }, got, [], [], none, 0, none⟩

/-- Changes the memory context. -/
def SluCtx.lift {α : Type} (c : SluCtx) (f : XCtx → α × XCtx) : α × SluCtx :=
  let (a, x) := f c.x
  (a, { c with x := x })

/-- Where an element lies: the descriptor and indices to address it with, the base of its scales, and the owner when it is
on another module. `ok` is false where its owner entry faults the command: it has no place (R347). -/
structure Loc where
  d : Desc
  idx : List Nat
  sbase : Int
  remote : Option (Nat × Nat)
  ok : Bool
  deriving DecidableEq, Repr

/-- Replaces element `k` of a list. -/
def setAt (l : List Nat) (k v : Nat) : List Nat := l.zipIdx.map (fun (a, i) => if i = k then v else a)

/-- Resolves an element (R346, R347). -/
def SluCtx.locate (c : SluCtx) (d : Desc) (idx : List Nat) : Loc × SluCtx :=
  if d.ownVa = 0 then (⟨d, idx, d.scaleBase, none, true⟩, c)
  else
    let i := (idx[d.ownDim]?).getD 0
    let j := i / d.ownExt
    let ea := d.ownVa + 16 * j
    let none_ : Loc := ⟨d, idx, 0, none, false⟩
    let (bs, lost, x) := c.x.tryRecord ea 16
    let c := { c with x := x }
    let dev := recNat bs 0 2
    let flags := recNat bs 2 1
    let va := recNat bs 8 8
    let die := flags % 4
    let fail (r : Nat) : Loc × SluCtx :=
      (none_, { c with bad := match c.bad with
            | some b => some b
            | none => some (0x1204, pack [(low 56 ea, 0), (r, 56)]) })
    -- a read of the table that fails translation, or meets a poisoned line, is the command's own fault (R342, R352)
    if lost then (none_, c)
    else if flags / 128 = 0 ∨ flags / 4 % 32 ≠ 0 ∨ !recZero bs 3 5 ∨ 2 ^ 56 ≤ va then fail 0
    else
      let d' : Desc := { d with base := va, ownVa := 0 }
      let sb : Int := (va : Int) + d.scaleBase - d.base
      let idx' := setAt idx d.ownDim (i - j * d.ownExt)
      if dev = c.x.s.device then (⟨d', idx', sb, none, true⟩, c)
      else
        match c.x.s.connOf c.x.die dev die with
        | none => fail 1
        | some e => if c.x.s.connBroken c.x.die e then fail 2 else (⟨d', idx', sb, some (dev, die), true⟩, c)

/-- Bytes at an owner, from what was fetched; missing bytes are noted and read as 0. -/
def SluCtx.remoteBytes (c : SluCtx) (o : Nat × Nat) (va n : Nat) : List Byte × SluCtx :=
  (List.range n).foldl (fun (acc : List Byte × SluCtx) k =>
    let key := (o.1, o.2, va + k)
    match assoc key acc.2.got with
    | some b => (acc.1 ++ [b], acc.2)
    | none => (acc.1 ++ [0], { acc.2 with need := acc.2.need ++ [key] })) ([], c)

/-- Whether a walk over a tensor's rows takes the fleur path: rows of fewer than 64 bytes, or a stride (R337, R430). -/
def Desc.fleur (d : Desc) : Bool := d.cols * d.fmt.elem.bits < 512 || d.stride.headD 1 != 1

/-- The address lies on a slow-tier page of the sluice's partition. -/
def SluCtx.slowAt (c : SluCtx) (a : Int) : Bool :=
  decide (0 ≤ a) && c.x.part.any (fun p =>
    let w := c.x.s.walk p a.toNat
    w.reason.isNone && w.kind == 1)

/-- Where an address of the sluice's partition lies on a page that is not of the slow tier (R424). -/
def SluCtx.fleurAt (c : SluCtx) (a : Int) : Option Nat :=
  if a < 0 then none
  else
    match c.x.part with
    | none => none
    | some p =>
      let w := c.x.s.walk p a.toNat
      if w.reason.isNone ∧ w.kind ≠ 1 then some w.pa else none

/-- One element of a walk on the fleur path: consecutive elements in one granule count once (R337). The path is never used
for a slow-tier page (R424). -/
def SluCtx.granule (c : SluCtx) (on : Bool) (d : Desc) (idx : List Nat) (write : Bool) : SluCtx :=
  if !on then c
  else
    let a := (d.address idx).1
    match c.fleurAt a with
    | none => c
    | some pa =>
      let g := (a / 8).toNat
      if c.lastGran = some g then c
      else { c with gran := c.gran + 1, lastGran := some g, x := { c.x with s := c.x.s.fleur pa write } }

/-- A fleur write of an element. -/
def SluCtx.fleurStore (c : SluCtx) (on : Bool) (d : Desc) (idx : List Nat) (code : Nat) : SluCtx :=
  let c := c.granule on d idx true
  let c := { c with x := c.x.writeCode d idx code }
  if !on then c
  else
    match c.fleurAt (d.address idx).1 with
    | none => c
    | some pa => { c with x := { c.x with s := c.x.s.fleurWrote pa } }

/-- An address at an owner: outside [0, 2^56) it is a translation fault (R325). -/
def SluCtx.remoteAt (c : SluCtx) (a : Int) : Option Nat × SluCtx :=
  if a < 0 ∨ (2 ^ 56 : Int) ≤ a then (none, { c with x := c.x.faulted a 6 }) else (some a.toNat, c)

/-- Bytes at an owner's address. -/
def SluCtx.remoteRd (c : SluCtx) (o : Nat × Nat) (a : Int) (n : Nat) : List Byte × SluCtx :=
  match c.remoteAt a with
  | (some va, c) => c.remoteBytes o va n
  | (none, c) => (List.replicate n 0, c)

/-- The codes of an element, element and scale. -/
def SluCtx.cell (c : SluCtx) (d : Desc) (idx : List Nat) (fleur : Bool) : Cell × SluCtx :=
  let (l, c) := c.locate d idx
  let scaleAt : Int := l.sbase + l.d.blockOf l.idx
  if !l.ok then (d.fmt.zeroCell, c)
  else
    match l.remote with
    | none =>
      let c := c.granule fleur l.d l.idx false
      let (k, bad, x) := c.x.readCode l.d l.idx
      let raw : Nat := if bad ∧ poisonNan d.fmt.elem then d.fmt.elem.nanCode else k
      if d.fmt.scaled then
        let (sb, x) := x.rdAt d.pinned scaleAt 1
        ((raw, leNat sb), { c with x := x })
      else ((raw, 0), { c with x := x })
    | some o =>
      let (a, b) := l.d.address l.idx
      let w := d.fmt.elem.bits
      let (bs, c) := c.remoteRd o a (spanBytes w b)
      let code := leNat bs / 2 ^ b % 2 ^ w
      if d.fmt.scaled then
        let (sb, c) := c.remoteRd o scaleAt 1
        ((code, leNat sb), c)
      else ((code, 0), c)

/-- Notes a clamped access. -/
def SluCtx.clamped (c : SluCtx) (d : Desc) (n : Nat) (write zero : Bool) : SluCtx :=
  { c with x := c.x.clamped d.va n write zero }

/-- The codes at a linear position (R329 to R331). -/
def SluCtx.cellLin (c : SluCtx) (d : Desc) (p : Int) : Cell × SluCtx :=
  if d.empty then (d.fmt.zeroCell, c.clamped d 1 false true)
  else
    let (idx, oob) := d.clampLin p
    (c.clamped d (b2n oob) false false).cell d idx (d.stride.headD 1 != 1)

/-- The codes at a matrix position. -/
def SluCtx.cellRC (c : SluCtx) (d : Desc) (row col : Int) (fleur : Bool) : Cell × SluCtx :=
  if d.empty then (d.fmt.zeroCell, c.clamped d 1 false true)
  else
    let (idx, oob) := d.clampRC row col
    (c.clamped d (b2n oob) false false).cell d idx fleur

/-- Threads a context through a list. -/
def SluCtx.collect {α β : Type} (c : SluCtx) (f : SluCtx → α → β × SluCtx) (l : List α) : List β × SluCtx :=
  l.foldl (fun (acc : List β × SluCtx) a =>
    let (b, c) := f acc.2 a
    (acc.1 ++ [b], c)) ([], c)

/-! Writing. -/

/-- Sends bytes to an owner's address. -/
def SluCtx.remoteWr (c : SluCtx) (o : Nat × Nat) (a : Int) (bs : List Byte) (red : Option (Nat × Nat)) : SluCtx :=
  match c.remoteAt a with
  | (some va, c) => { c with outs := c.outs ++ [⟨o.1, o.2, va, bs, red⟩] }
  | (none, c) => c

/-- Stores an element's code at its place: only its bits change (R326); at an owner as bytes of a WRITE. An element without a
place is not written (R347). -/
def SluCtx.storeCode (c : SluCtx) (l : Loc) (code : Nat) (fleur : Bool) : SluCtx :=
  if !l.ok then c
  else
    match l.remote with
    | none => c.fleurStore fleur l.d l.idx code
    | some o =>
      let (a, b) := l.d.address l.idx
      let w := l.d.fmt.elem.bits
      let n := spanBytes w b
      if w % 8 = 0 then c.remoteWr o a (leBytes n code) none
      else
        let (old, c) := c.remoteRd o a n
        let mask := (2 ^ w - 1) * 2 ^ b
        let v := Nat.lor (Nat.land (leNat old) (2 ^ (8 * n) - 1 - mask)) (code % 2 ^ w * 2 ^ b)
        let bs := leBytes n v
        let got := bs.zipIdx.foldl (fun g (x, k) => assocPut (o.1, o.2, a.toNat + k) x g) c.got
        ({ c with got := got } : SluCtx).remoteWr o a bs none

/-- Stores a block's scale code. -/
def SluCtx.storeScale (c : SluCtx) (l : Loc) (code : Nat) : SluCtx :=
  let a : Int := l.sbase + l.d.blockOf l.idx
  if !l.ok then c
  else
    match l.remote with
    | none => { c with x := c.x.wrAt l.d.pinned a [BitVec.ofNat 8 code] }
    | some o => c.remoteWr o a [BitVec.ofNat 8 code] none

/-- Overflows on write (R65). -/
def SluCtx.overflow (c : SluCtx) (n : Nat) : SluCtx :=
  { c with x := { c.x with ovf := c.x.ovf || n != 0, ovfs := c.x.ovfs + n } }

/-- A block of a block-scaled tensor written whole: what the command does not write is read and kept, and the scale
is chosen from every value (R66 to R70, R427). -/
def SluCtx.writeScaledBlock (c : SluCtx) (d : Desc) (ws : List ElemWrite) (blk : Nat) (fleur : Bool) : SluCtx :=
  let els := d.blockElems blk
  let (vs, c) := c.collect (fun c idx =>
    match d.lastWrite ws (linear d.ext idx) with
    | some w => ((w.val, w.rnd), c)
    | none =>
      let (k, c) := c.cell d idx false
      ((d.fmt.cellVal k, Rnd.rne), c)) els
  let (sc, codes, ovfs) := writeBlock d.fmt vs
  let c := c.overflow ovfs
  let c := if vs.any (fun v => !v.1.isFin) then
      { c with x := { c.x with nanBlocks := c.x.nanBlocks ++
          [(((d.address (els.headD [])).1 % 2 ^ 56).toNat, d.field.toNat)] } }
    else c
  let c := (els.zip codes).foldl (fun c (idx, k) =>
    let (l, c) := c.locate d idx
    c.storeCode l k fleur) c
  let (l, c) := c.locate d (els.headD [])
  c.storeScale l sc

/-- A command's writes to a tensor, in element order, collisions settled (R332). -/
def SluCtx.write (c : SluCtx) (d : Desc) (ws : List ElemWrite) (fleur : Bool) : SluCtx :=
  if d.empty then c.clamped d ws.length true true
  else if d.fmt.scaled then
    (dedup (ws.map (fun w => d.blockOf (delinear d.ext w.lin)))).foldl (fun c b => c.writeScaledBlock d ws b fleur) c
  else
    ws.foldl (fun c w =>
      let (k, o) := d.fmt.elem.writeUnscaled w.rnd w.val
      let (l, c) := (c.overflow (b2n o)).locate d (delinear d.ext w.lin)
      c.storeCode l k fleur) c

/-- The code that a write stores for an element's code: a NaN is the canonical one (R57, R64). -/
def Fmt.canonCode (f : Fmt) (k : Nat) : Nat := if (f.decode k).isNan then f.elem.nanCode else k

/-- A block whose elements travelled with one scale is stored as it travelled (R436); one that the command writes only in
part, or from several blocks, is read, joined and encoded again (R427, R627). -/
def SluCtx.writeCellBlock (c : SluCtx) (d : Desc) (ws : List (Nat × Cell)) (blk : Nat) (fleur : Bool) : SluCtx :=
  let els := d.blockElems blk
  let cells := els.map (fun idx => (ws.reverse.find? (fun w => d.sameElem w.1 (linear d.ext idx))).map (·.2))
  let sc := (((cells.headD none).map (·.2)).getD 0 : Nat)
  if cells.all (fun (k : Option Cell) => k.any (fun q => q.2 == sc)) then
    let c := (els.zip cells).foldl (fun (c : SluCtx) (q : List Nat × Option Cell) =>
      let k := q.2.getD (0, 0)
      let (l, c) := (c.overflow (b2n !(d.fmt.cellVal k).isFin)).locate d q.1
      c.storeCode l (d.fmt.canonCode k.1) fleur) c
    let (l, c) := c.locate d (els.headD [])
    c.storeScale l sc
  else c.writeScaledBlock d (ws.map (fun w => ⟨w.1, d.fmt.cellVal w.2, .rne⟩)) blk fleur

/-- Elements written by their codes, element and scale, as they travelled (R436). A value that is not finite is an
overflow on write (R65). `raw` bytes, those of a SLU.XMIT READ, are stored as they came (R443). -/
def SluCtx.writeCells (c : SluCtx) (d : Desc) (ws : List (Nat × Cell)) (fleur raw : Bool) : SluCtx :=
  if d.empty then c.clamped d ws.length true true
  else if d.fmt.scaled then
    (dedup (ws.map (fun w => d.blockOf (delinear d.ext w.1)))).foldl (fun c b => c.writeCellBlock d ws b fleur) c
  else
    ws.foldl (fun c (lin, k) =>
      let (l, c) := (c.overflow (b2n !(d.fmt.cellVal k).isFin)).locate d (delinear d.ext lin)
      c.storeCode l (if raw then k.1 else d.fmt.canonCode k.1) fleur) c

/-! Add-on-writes (R315, R316). -/

/-- Whether a format takes add-on-writes: unscaled FP32, BF16 or INT32. -/
def Fmt.addable (f : Fmt) : Bool := !f.scaled && (f.elem == .fp32 || f.elem == .bf16 || f.elem == .int32)

/-- op(old, incoming) on codes, and whether the result is an overflow on write. -/
def addCodes (e : Elem) (op : RedOp) (old inc : Nat) : Nat × Bool :=
  match e, op with
  | .fp32, .sum =>
    let r := (fFP32.ieee ((d32 old).add (d32 inc))).1
    (r, nonFinite32 r)
  | .fp32, o =>
    let r := fFP32.minMax (o == .max) old inc
    (r, nonFinite32 r)
  | .bf16, .sum => fBF16.write .rne ((fBF16.decode old).add (fBF16.decode inc))
  | .bf16, o =>
    let r := fBF16.minMax (o == .max) old inc
    (r, !(fBF16.decode r).isFin)
  | _, .sum =>
    let v := codeInt 32 old + codeInt 32 inc
    Elem.writeUnscaled .int32 .rne (vInt v)
  | _, .min => (intCode 32 (min (codeInt 32 old) (codeInt 32 inc)), false)
  | _, .max => (intCode 32 (max (codeInt 32 old) (codeInt 32 inc)), false)

/-- A contribution at a physical address joins the line update being built, or starts one, which the home slice counts
(R317). -/
def XCtx.contribute (x : XCtx) (pa : Nat) : XCtx :=
  if x.upd.any (fun a => a / 64 == pa / 64) && !x.upd.contains pa then { x with upd := pa :: x.upd }
  else
    let s := match x.s.homeOf pa with
      | some h => (x.s.count (cacheBase h + 0x440) 1).takeUpdate h
      | none => x.s
    { x with s := s, upd := [pa] }

/-- Adds one element in memory at a local address: read and written as one (R19, R341). An element of a poisoned line reads as
R352 says, and the line stays poisoned. -/
def XCtx.addAt (x : XCtx) (e : Elem) (op : RedOp) (pinned : Bool) (a : Int) (inc : Nat) : XCtx :=
  let n := e.bits / 8
  let (p, x) := x.xlate .atomic pinned a
  match p with
  | none => x
  | some pa =>
    let x := x.meet pa n false none
    let bad := x.s.poisoned pa
    let x := if bad then x.poisonedAt a.toNat else x
    let old : Nat := if bad ∧ poisonNan e then e.nanCode else leNat (x.s.rdBytes pa n)
    let (r, o) := addCodes e op old inc
    let x := x.contribute pa
    { x.push a.toNat pa (leBytes n r) with ovf := x.ovf || o, ovfs := x.ovfs + b2n o }

/-- Adds one element, at its owner by RED. -/
def SluCtx.add (c : SluCtx) (d : Desc) (op : RedOp) (lin : Nat) (inc : Nat) : SluCtx :=
  let (l, c) := c.locate d (delinear d.ext lin)
  let a := (l.d.address l.idx).1
  if !l.ok then c
  else
    match l.remote with
    | none => { c with x := c.x.addAt d.fmt.elem op l.d.pinned a inc }
    | some o => c.remoteWr o a (leBytes (d.fmt.elem.bits / 8) inc) (some (d.field.toNat, redCode op))

/-! Pressed tensors (R229 to R234). -/

/-- The code of a value in a pressed tensor's source format. -/
def pressFmt (e : Elem) : FFmt := (e.layout).getD fFP32

/-- Where value `lin` of a pressed tensor lies: the owner's chunk is a pressed tensor of the same extents whose blocks count
from the chunk's base (R230, R346; DEDUCED, log entry 83). Answers the place, the block in the chunk, and the place in the
block. -/
def SluCtx.pressedAt (c : SluCtx) (d : Desc) (lin : Nat) : (Loc × Nat × Nat) × SluCtx :=
  let (l, c) := c.locate d (delinear d.ext lin)
  let n := linear d.ext l.idx
  ((l, n / 128, n % 128), c)

/-- How a block was pressed, where the bytes that pressing stored there still stand (R234). -/
def State.pressedAs (s : State) (pa blk : Nat) : Option (Elem × Bool) :=
  (s.stk.pressed.find? (fun (q : Nat × Nat × Elem × Bool) => q.1 = pa ∧ q.2.1 = blk)).map (fun q => q.2.2)

/-- Notes how a block at a physical address was pressed. -/
def State.notePressed (s : State) (pa blk : Nat) (e : Elem) (half : Bool) : State :=
  { s with stk := { s.stk with
      pressed := (pa, blk, e, half) :: s.stk.pressed.filter (fun (q : Nat × Nat × Elem × Bool) => q.1 != pa) } }

/-- Value `lin` of a pressed tensor (R232). A block that was pressed with another ratio or source format expands to
unspecified values (R234). -/
def SluCtx.expand (c : SluCtx) (d : Desc) (half : Bool) (lin : Nat) : Val × SluCtx :=
  let e := d.fmt.elem
  let n := pressBytes e half
  let ((l, b, i), c) := c.pressedAt d lin
  let at_ : Int := l.d.base + b * n
  if !l.ok then (vZero false, c)
  else
    match l.remote with
    | some o =>
      let (bs, c) := c.remoteRd o at_ n
      (expandVal (leNat bs) (pressWidth e half) i, c)
    | none =>
      let (bs, x) := c.x.rd d.pinned (l.d.base + b * n) n
      let w := x.s.xlate x.part x.cls .read d.pinned at_
      match (if w.reason.isNone then x.s.pressedAs w.pa (leNat bs) else none) with
      | some k =>
        if k = (e, half) then (expandVal (leNat bs) (pressWidth e half) i, { c with x := x })
        else
          let (v, s) := x.s.fresh
          ((pressFmt e).decode (v.toNat % 2 ^ e.bits), { c with x := { x with s := s } })
      | none => (expandVal (leNat bs) (pressWidth e half) i, { c with x := x })

/-- Element `i` of block `b` of a chunk exists: it lies within the tensor, and within the chunk where there are owners. `j` is
the chunk. -/
def Desc.pressedElem (d : Desc) (j b i : Nat) : Bool :=
  let n := 128 * b + i
  decide (n < d.elems) &&
    (if d.ownVa = 0 then true
     else
       let k := ((delinear d.ext n)[d.ownDim]?).getD 0
       decide (k < d.ownExt) && decide (j * d.ownExt + k < (d.ext[d.ownDim]?).getD 0))

/-- Writes whole pressed blocks from values by linear index, the last write to an index standing. Indices beyond the tensor's
extent are pressed as +0 (R231); those inside it that the copy does not give are free values (log entry 83). -/
def SluCtx.press (c : SluCtx) (d : Desc) (half : Bool) (ws : List ElemWrite) : SluCtx :=
  let e := d.fmt.elem
  let n := pressBytes e half
  let (ps, c) := c.collect (fun c (w : ElemWrite) =>
    let ((l, b, i), c) := c.pressedAt d w.lin
    let chunk := if d.ownVa = 0 then 0 else ((delinear d.ext w.lin)[d.ownDim]?).getD 0 / d.ownExt
    (((l, chunk, b, i), w), c)) ws
  let key (p : (Loc × Nat × Nat × Nat) × ElemWrite) : Nat × Nat := (p.1.2.1, p.1.2.2.1)
  let blocks := ps.foldl (fun (a : List ((Loc × Nat × Nat × Nat) × ElemWrite)) p =>
    if a.any (fun q => key q == key p) then a else a ++ [p]) []
  blocks.foldl (fun (c : SluCtx) q =>
    let (l, j, b, _) := q.1
    let mine := (ps.filter (fun p => key p == key q)).reverse
    let (vs, c) := c.collect (fun (c : SluCtx) (i : Nat) =>
      match mine.find? (fun p => p.1.2.2.2 = i) with
      | some (_, w) =>
        let (k, o) := (pressFmt e).write .rne w.val
        ((if w.val.isFin then (pressFmt e).decode k else w.val), c.overflow (b2n (o && w.val.isFin)))
      | none =>
        if !d.pressedElem j b i then (vZero false, c)
        else
          let (v, s) := c.x.s.fresh
          ((pressFmt e).decode (v.toNat % 2 ^ e.bits), { c with x := { c.x with s := s } })) (List.range 128)
    let (blk, bad) := pressBlock vs (pressWidth e half) (pressEmin e)
    let c := c.overflow (b2n bad)
    let at_ : Int := l.d.base + b * n
    if !l.ok then c
    else
      match l.remote with
      | some o => c.remoteWr o at_ (leBytes n blk) none
      | none =>
        let x := c.x.wr d.pinned (l.d.base + b * n) (leBytes n blk)
        let w := x.s.xlate x.part x.cls .write d.pinned at_
        { c with x := if w.reason.isNone then { x with s := x.s.notePressed w.pa blk e half } else x }) c

/-! Packed bytes (R58, R443). -/

/-- Element codes packed as consecutive bytes. -/
def packCodes (w : Nat) (codes : List Nat) : List Byte :=
  let v := codes.zipIdx.foldl (fun a (k, i) => a + k % 2 ^ w * 2 ^ (w * i)) 0
  leBytes ((codes.length * w + 7) / 8) v

/-- Element codes of packed bytes. -/
def unpackCodes (w n : Nat) (bs : List Byte) : List Nat :=
  let v := leNat bs
  (List.range n).map (fun i => v / 2 ^ (w * i) % 2 ^ w)

/-- Bytes [off, off + len) of the packed elements of a tensor from element `sidx`. -/
def SluCtx.packed (c : SluCtx) (d : Desc) (sidx off len : Nat) : List Byte × SluCtx :=
  let w := d.fmt.elem.bits
  let first := 8 * off / w
  let last := (8 * (off + len) + w - 1) / w
  let (ks, c) := c.collect (fun c j =>
    let (k, c) := c.cellLin d ((sidx + first + j : Nat) : Int)
    (k.1, c)) (List.range (last - first))
  let v := ks.zipIdx.foldl (fun a (k, i) => a + k * 2 ^ (w * i)) 0
  (leBytes len (v / 2 ^ (8 * off - first * w)), c)

end Sys2Proof.Machine
end

