-- ==== Sys2Proof/Machine/Transport.lean ====
section
/-! DEFINITION. Segments, ports and connections as senders use them (15_tuimal_links.md): forming flits from segment
streams, routes, sequence numbers, unacknowledged segments. -/

namespace Sys2Proof.Machine

/-! Ports. -/

/-- A port register. -/
def linkReg (p : PortIx) (off : Nat) : Nat := optBase (p.val / 16) + 0x1000 + 0x100 * (p.val % 16) + off

/-- A port counter. -/
def linkCtr (p : PortIx) (off : Nat) : Nat := optBase (p.val / 16) + 0x4000 + 0x200 * (p.val % 16) + off

/-- Changes one port. -/
def State.onPort (s : State) (p : PortIx) (f : PortSt → PortSt) : State :=
  { s with link := { s.link with port := s.link.port.set p (f s.link.port[p]) } }

/-- LINK_STATUS.STATE. -/
def State.portState (s : State) (p : PortIx) : Nat := s.fld (linkReg p 0) 3 0

/-- The engine of a port, as an event source. -/
def State.portSrc (s : State) (p : PortIx) : Src := s.optSrc (p.val / 8)

/-- Flits a port sends in one VC order (R470): STAT and CTL alternate, then RSP, then REQ. -/
def PortSt.pick (q : PortSt) : Option (Fin 4) :=
  let can (v : Fin 4) : Bool := !q.tx[v].isEmpty && q.cred[v] != 0
  (if q.alt then [3, 2, 1, 0] else [2, 3, 1, 0] : List (Fin 4)).find? can

/-- Sends one data flit: a sequence number, a credit, a place in the replay buffer (R468, R469). -/
def PortSt.sendFlit (q : PortSt) (v : Fin 4) : PortSt :=
  let n := min 256 q.tx[v].length
  { q with
    tx := q.tx.set v (q.tx[v].drop n)
    cred := q.cred.set v (q.cred[v] - 1)
    alt := if v = 2 then true else if v = 3 then false else q.alt
    nextSeq := q.nextSeq + 1
    unacked := q.unacked ++ [⟨q.nextSeq, v.val, q.tx[v].take n, 1⟩]
    rx := match q.rx.toList.zipIdx.find? (fun (r, _) => r.ret != 0) with
      | some (_, i) => let i : Fin 4 := Fin.ofNat 4 i
                       q.rx.set i { q.rx[i] with ret := q.rx[i].ret - min 1023 q.rx[i].ret }
      | none => q.rx }

/-- Sends every flit that credits and the replay buffer allow, while the port is UP (R469 to R471). -/
def State.pumpN (p : PortIx) : Nat → State → State
  | 0, s => s
  | n + 1, s =>
    if s.portState p ≠ 3 ∨ 2400 ≤ s.link.port[p].unacked.length then s
    else
      match s.link.port[p].pick with
      | none => s
      | some v => State.pumpN p n ((s.onPort p (fun q => q.sendFlit v)).count (linkCtr p 0) 1)

/-- Forwarded segments of a VC stop waiting when all of the VC's units have been sent. -/
def PortSt.unstall (q : PortSt) : PortSt :=
  { q with stalled := q.stalled.filter (fun (v, _) => !q.tx[Fin.ofNat 4 v].isEmpty) }

/-- `pumpN` as often as there are units. -/
def State.pump (s : State) (p : PortIx) : State :=
  let q := s.link.port[p]
  (State.pumpN p (((q.tx.toList.map List.length).foldl (· + ·) 0) / 32 + 1) s).onPort p PortSt.unstall

/-! Segments. -/

/-- The VC of a segment type (R480). -/
def segVc (typ : Nat) : Fin 4 :=
  if typ = 2 ∨ typ = 5 then 1 else if typ = 6 ∨ typ = 7 then 2 else if typ = 8 then 3 else 0

/-- The units of a segment: header and payload, padded to 32 bytes (R478, R479). -/
def Seg.bytes (g : Seg) : List Byte :=
  let b (n x : Nat) := leBytes n x
  let h := b 1 g.typ ++ b 1 g.flags ++ b 2 g.len ++ b 2 g.srcDev ++ b 2 g.dstDev ++ b 1 g.dies ++ b 1 g.queue ++
    b 1 g.etype ++ b 1 g.hops ++ b 4 g.msn ++ b 8 g.arg ++ b 8 g.aux
  let l := h ++ g.data
  l ++ List.replicate ((32 - l.length % 32) % 32) 0

/-- The header a stream begins with. -/
def segHeader (bs : List Byte) : Seg where
  typ := recNat bs 0 1
  flags := recNat bs 1 1
  len := recNat bs 2 2
  srcDev := recNat bs 4 2
  dstDev := recNat bs 6 2
  dies := recNat bs 8 1
  queue := recNat bs 9 1
  etype := recNat bs 10 1
  hops := recNat bs 11 1
  msn := recNat bs 12 4
  arg := recNat bs 16 8
  aux := recNat bs 24 8
  data := []

/-- Payload bytes a segment carries: a READ carries none (R480). -/
def Seg.payload (g : Seg) : Nat := if g.typ = 1 then 0 else g.len

/-- The segment a stream begins with, when it has arrived whole, and the units it takes. -/
def takeSegment (bs : List Byte) : Option (Seg × Nat) :=
  if bs.length < 32 then none
  else
    let g := segHeader bs
    let u := (32 + g.payload + 31) / 32
    if bs.length < 32 * u then none else some ({ g with data := (bs.drop 32).take g.payload }, u)

/-- The port a device id's route names now (R487): PRIMARY when UP, else ALT when UP. -/
def State.route (s : State) (dev : Nat) : Option PortIx :=
  let e := bitsOf (s.reg (optBase 0 + 0x20000 + 8 * (dev / 4))) (16 * (dev % 4) + 15) (16 * (dev % 4))
  let up (p : Nat) : Option PortIx := if p < 64 ∧ s.portState (Fin.ofNat 64 p) = 3 then some (Fin.ofNat 64 p) else none
  if e / 32768 = 0 then none
  else
    match up (e % 128) with
    | some p => some p
    | none => up (e / 256 % 128)

/-- A segment dropped at a die (R490): counted, with event 0x1707. -/
def State.dropSeg (s : State) (die : Nat) (port : Nat) (g : Seg) (reason : Nat) : State :=
  (s.count (optBase die + 0x410) 1).raise (s.optSrc (port / 8)) 0x1707
    (pack [(reason, 0), (g.srcDev, 16), (g.dstDev, 32), (port, 48)])

/-- Queues a segment on a port. -/
def State.sendOn (s : State) (p : PortIx) (g : Seg) : State :=
  let v := segVc g.typ
  (s.onPort p (fun q => { q with tx := q.tx.set v (q.tx[v] ++ g.bytes) })).pump p

/-- Sends a segment of this module on its route; one without a route is dropped (R487, R490). -/
def State.sendSeg (s : State) (die : Nat) (g : Seg) : State :=
  match s.route g.dstDev with
  | some p => s.sendOn p g
  | none => s.dropSeg die (16 * die) g 3

/-! Connections. -/

def State.connAt (s : State) (d j : Nat) : Conn := (assoc (d, j) s.link.conns).getD Conn.reset

def State.setConn (s : State) (d j : Nat) (c : Conn) : State :=
  { s with link := { s.link with conns := assocPut (d, j) c s.link.conns } }

/-- Device id and die of an entry. -/
def State.connPeer (s : State) (d j : Nat) : Nat × Nat :=
  let v := s.reg (optBase d + 0x8000 + 8 * j)
  (bitsOf v 15 0, bitsOf v 17 16)

/-- The payload of a kept segment as memory holds it now (R485). -/
def State.formBody (s : State) (d : Nat) : TxBody → List Byte
  | .elems ds core sidx off len => ((s.sluCtx (8 * d) core []).packed ds sidx off len).1
  | .fetch va len => ((XCtx.start s 2 (s.sluSrc (8 * d)) none 0).rd false va len).1
  | .bytes l => l

/-- Sends a kept segment. -/
def State.transmit (s : State) (d : Nat) (t : TxSeg) : State :=
  s.sendSeg d { t.seg with data := s.formBody d t.body }

/-- Sends waiting segments while fewer than 256 are unacknowledged (R485). -/
def State.fillConn (d j : Nat) : Nat → State → State
  | 0, s => s
  | n + 1, s =>
    let c := s.connAt d j
    match c.waiting with
    | [] => s
    | t :: l =>
      if 256 ≤ c.unacked.length then s
      else State.fillConn d j n ((s.setConn d j { c with unacked := c.unacked ++ [t], waiting := l }).transmit d t)

/-- A segment takes the connection's next MSN and is sent, or waits. -/
def State.sendConn (s : State) (d j : Nat) (g : Seg) (body : TxBody) (owner : Option (Nat × Nat)) : State :=
  let c := s.connAt d j
  let (dev, die) := s.connPeer d j
  let g := { g with srcDev := s.device, dstDev := dev, dies := d + 4 * die, msn := c.next.toNat }
  State.fillConn d j 1 (s.setConn d j { c with next := c.next + 1, waiting := c.waiting ++ [⟨g, body, owner⟩] })

/-- A READ whose data is awaited (R481: at most 4096 bytes). -/
def State.sendRead (s : State) (d j : Nat) (va len : Nat) (owner : Nat × Nat) (queue : Nat := 0) : State :=
  let c := s.connAt d j
  let s := s.setConn d j { c with reads := c.reads ++ [⟨c.next.toNat, len, owner, va, 0⟩] }
  s.sendConn d j ⟨1, 3, len, 0, 0, 0, queue, 0, 0, 0, va, 0, []⟩ (.bytes []) none

/-- A segment of no connection: ACK, TIME, CTRL and STATUS. -/
def State.plainSeg (s : State) (typ die dev ddie arg aux : Nat) (data : List Byte) : Seg :=
  ⟨typ, 3, data.length, s.device, dev, die + 4 * ddie, 0, 0, 0, 0, arg, aux, data⟩

/-- Acknowledges what the connection has performed: every MSN below the expected one (R483, R484). -/
def State.sendAck (s : State) (d j : Nat) (nak : Bool) : State :=
  let c := s.connAt d j
  let (dev, die) := s.connPeer d j
  (s.setConn d j { c with ackDue := 0 }).sendSeg d
    (s.plainSeg 5 d dev die ((c.expect - 1).toNat + 2 ^ 32 * b2n nak) 0 [])

/-! Runs that wait for segments. -/

/-- Changes a running command of a sluice. -/
def State.onRun (s : State) (i : SluIx) (id : Nat) (f : SluRun → SluRun) : State :=
  { s with slu := s.slu.set i { s.slu[i] with
      running := s.slu[i].running.map (fun r => if r.id = id then f r else r) } }

/-- Changes a Brine unit. -/
def State.onBrn (s : State) (d : DieIx) (f : BrnSt → BrnSt) : State := { s with brn := s.brn.set d (f s.brn[d]) }

/-- Changes a slot or reserve of a Brine batch. -/
def BrnBatch.onItem (b : BrnBatch) (res : Bool) (ix : Nat) (f : BrnItem → BrnItem) : BrnBatch :=
  let g (l : List BrnItem) : List BrnItem := l.map (fun i => if i.ix = ix then f i else i)
  if res then { b with rsvs := g b.rsvs } else { b with items := g b.items }

/-- A queue pair. -/
def State.qpAt (s : State) (q : Nat) : QpSt := (assoc q s.link.qp).getD QpSt.reset

def State.setQp (s : State) (q : Nat) (z : QpSt) : State :=
  { s with link := { s.link with qp := assocPut q z s.link.qp } }

/-- The owner of a READ of Brine unit d: 32 + d, and the batch, item and fetch it belongs to. -/
def brnKey (batch : Nat) (i : BrnItem) : Nat := ((2 * batch + b2n i.res) * 2 ^ 15 + i.ix) * 4 + i.fetches

/-- Changes the item that a key names while that fetch is in progress. -/
def State.onBrnKey (s : State) (d key : Nat) (f : BrnItem → BrnItem) : State :=
  let ix := key / 4 % 2 ^ 15
  let q := key / 2 ^ 17
  s.onBrn (Fin.ofNat 4 d) (fun u => { u with batches := u.batches.map (fun b =>
    if b.id = q / 2 then
      b.onItem (q % 2 == 1) ix (fun i => if i.phase == .fetching && i.fetches == key % 4 then f i else i)
    else b) })

/-- One segment or read that a sluice's run or a Brine fetch waited for is done. -/
def State.ownerDone (s : State) (o : Nat × Nat) (err : Bool) : State :=
  if o.1 < 32 then s.onRun (Fin.ofNat 32 o.1) o.2 (fun r => { r with out := r.out - 1, error := r.error || err })
  else s.onBrnKey (o.1 - 32) o.2 (fun i => { i with out := i.out - 1, failed := i.failed || err })

/-- A broken connection (R485): every command pending on it fails, event 0x1708, BROKEN until VALID is written. -/
def State.breakConn (s : State) (d j : Nat) : State :=
  let c := s.connAt d j
  let (dev, die) := s.connPeer d j
  let s := (c.unacked ++ c.waiting).foldl (fun s t => match t.owner with
    | some o => s.ownerDone o true
    | none => s) s
  let s := c.reads.foldl (fun s r => s.ownerDone r.owner true) s
  let s := s.setConn d j { c with unacked := [], waiting := [], reads := [], resent := 0 }
  (s.setFld (optBase d + 0x8000 + 8 * j) 62 62 1).raise (s.optSrc (2 * d)) 0x1708 (pack [(j, 0), (dev, 16), (die, 32)])

/-- Sends every unacknowledged segment of a connection again, in MSN order, or breaks it after RETRY_MAX times
without progress (R485). -/
def State.resend (s : State) (d j : Nat) : State :=
  let c := s.connAt d j
  if c.unacked.isEmpty then s
  else if max 1 (s.fld (optBase 0 + 8) 55 48) ≤ c.resent then s.breakConn d j
  else
    let s := s.setConn d j { c with resent := c.resent + 1 }
    c.unacked.foldl (fun s t => (s.count (optBase d + 0x400) 1).transmit d t) s

/-- An acknowledgement up to MSN `n` (R484): those segments are done; `failed` are those whose bytes were not all
performed (R444). -/
def State.acked (s : State) (d j : Nat) (n : Nat) (failed : List Nat) : State :=
  let c := s.connAt d j
  -- MSN ≤ n modulo 2^32, within a window of 2^31 (R483)
  let done (t : TxSeg) : Bool := decide ((BitVec.ofNat 32 n - BitVec.ofNat 32 t.seg.msn).toNat < 2 ^ 31)
  let gone := c.unacked.filter done
  if gone.isEmpty then s
  else
    let s := s.setConn d j { c with unacked := c.unacked.filter (fun t => !done t), resent := 0 }
    let s := gone.foldl (fun s t => match t.owner with
      | some o => s.ownerDone o (failed.contains t.seg.msn)
      | none => s) s
    State.fillConn d j 256 s

end Sys2Proof.Machine
end

