-- ==== Sys2Proof/Machine/Deliver.lean ====
section
/-! DEFINITION. Messages performed at the receiving die (R443 to R446, R491): writes, reads, add-on-writes and SENDs
into a queue's ring, whichever module or die sent them. -/

namespace Sys2Proof.Machine

/-- Changes a die's receive state. -/
def State.onDie (s : State) (d : DieIx) (f : DieSlu → DieSlu) : State :=
  { s with dieSlu := s.dieSlu.set d (f s.dieSlu[d]) }

/-- The context of a message performed at die `t`, arriving through die `via` (R444, R491): addresses of the partition
that owns the die. -/
def State.recvCtx (s : State) (t via : Nat) : XCtx :=
  { XCtx.start s 2 (s.sluSrc (8 * t)) none 0 with die := via }

/-- Ends the dealings of a message at its receiver: events raised; whether every byte was performed. -/
def XCtx.received (x : XCtx) : State × Bool := (x.close, x.fault.isNone)

/-- Cuts a run of addresses at pages: offset and length of each piece (`fuel` pieces). -/
def pagePieces (va : Nat) : Nat → Nat → Nat → List (Nat × Nat)
  | 0, _, _ => []
  | fuel + 1, off, n =>
    if n = 0 then []
    else
      let k := min n (65536 - (va + off) % 65536)
      (off, k) :: pagePieces va fuel (off + k) (n - k)

/-- Stores bytes at an address, page by page: a part that fails is not written (R444). -/
def XCtx.wrLong (x : XCtx) (va : Nat) (bs : List Byte) : XCtx :=
  (pagePieces va (bs.length / 65536 + 2) 0 bs.length).foldl (fun x (o, k) => x.wr false (va + o) ((bs.drop o).take k)) x

/-- Reads bytes, page by page. -/
def XCtx.rdLong (x : XCtx) (va n : Nat) : List Byte × XCtx :=
  (pagePieces va (n / 65536 + 2) 0 n).foldl (fun (acc : List Byte × XCtx) (o, k) =>
    let (b, x) := acc.2.rd false (va + o) k
    (acc.1 ++ b, x)) ([], x)

/-- A WRITE's bytes performed. -/
def State.performWrite (s : State) (t via va : Nat) (bs : List Byte) : State × Bool :=
  ((s.recvCtx t via).wrLong va bs).received

/-- The element a RED names by its format: FP32, BF16 or INT32. -/
def redElem (etype : Nat) : Elem := if etype = 0 then .fp32 else if etype = 0x20 then .bf16 else .int32

/-- A RED's elements added in ascending position (R443), and the overflows met. -/
def State.performRed (s : State) (t via va etype : Nat) (op : RedOp) (bs : List Byte) : State × Bool × Nat :=
  let e := redElem etype
  let n := e.bits / 8
  let x := (chunks n bs.length bs).zipIdx.foldl (fun (x : XCtx) (b, i) => x.addAt e op false ((va + n * i : Nat) : Int) (leNat b))
    (s.recvCtx t via)
  let (s, ok) := x.received
  (s, ok, x.ovfs)

/-- A message counted at a receive queue (R445). -/
def State.countQueue (s : State) (t q : Nat) : State := s.count (fabBase t + 0x1000 + 0x10 * q) 1

/-! SENDs (R446). -/

/-- Event 0x1604. -/
def State.ringEvent (s : State) (t q dev : Nat) (invalid : Bool) : State :=
  s.raise (s.sluSrc (8 * t)) 0x1604 (pack [(q, 0), (t, 8), (b2n invalid, 10), (dev, 16)])

/-- How reserving room for a SEND ends. -/
inductive Room where
  /-- reserved, from this offset -/
  | at (start : Nat)
  /-- the queue is not VALID, or its record failed translation -/
  | invalid
  /-- the ring is full: the message is held -/
  | full
  deriving DecidableEq, Repr

/-- Bytes a SEND of `len` bytes takes in a ring. -/
def sendSpace (len : Nat) : Nat := 64 * ((32 + len + 63) / 64)

/-- Reserves ring room for a message of `len` bytes (R446, R481). -/
def State.reserve (s : State) (t via q dev die len : Nat) : Room × State :=
  let dt : DieIx := Fin.ofNat 4 t
  let rec_ := (s.reg (fabBase t + 0x100)).toNat + 32 * q
  let (bs, x) := (s.recvCtx t via).rdRecord rec_ 32
  if x.fault.isSome ∨ x.badRecord then (.invalid, (x.close).ringEvent t q dev true)
  else
    let s := x.s
    if recNat bs 20 4 % 2 = 0 then (.invalid, s.ringEvent t q dev true)
    else
      let ring := recNat bs 0 8
      let len' := recNat bs 8 4
      let head := recNat bs 12 4
      let mine := s.dieSlu[dt].res.filter (fun r => r.queue = q)
      let tail := match mine.getLast? with
        | some r => r.start + r.need
        | none => recNat bs 16 4
      let need := sendSpace len
      let wrap := len' < tail + need
      let start := if wrap then 0 else tail
      let full : Bool :=
        if tail < head then wrap || decide (head ≤ tail + need)
        else wrap && decide (head ≤ need)
      if full then
        if s.dieSlu[dt].fullTide = some s.tide.num then (.full, s)
        else (.full, (s.onDie dt (fun q => { q with fullTide := some s.tide.num })).ringEvent t q dev false)
      else
        let s := if wrap ∧ tail + 32 ≤ len' then
            (s.performWrite t via (ring + tail) (leBytes 4 0 ++ leBytes 4 0xFFFFFFFF ++ List.replicate 24 0)).1
          else s
        (.at start, s.onDie dt (fun z => { z with res := z.res ++ [⟨dev, die, q, start, need, len, false⟩] }))

/-- The header of a SEND. -/
def sendHeader (dev die len : Nat) (tide : BitVec 64) : List Byte :=
  leBytes 2 dev ++ leBytes 1 die ++ [0] ++ leBytes 4 len ++ leBytes 8 tide.toNat ++ List.replicate 16 0

/-- Bytes of a SEND stored at an offset of its payload. -/
def State.sendBytes (s : State) (t via q start off : Nat) (bs : List Byte) : State × Bool :=
  let rec_ := (s.reg (fabBase t + 0x100)).toNat + 32 * q
  let (r, _) := (s.recvCtx t via).rdRecord rec_ 32
  s.performWrite t via (recNat r 0 8 + start + 32 + off) bs

/-- The last bytes of a SEND are performed: its header, TAIL past every message that is done, and the queue's count. -/
def State.sendDone (s : State) (t via q dev die start : Nat) (ok : Bool) : State :=
  let dt : DieIx := Fin.ofNat 4 t
  let rec_ := (s.reg (fabBase t + 0x100)).toNat + 32 * q
  let (r, _) := (s.recvCtx t via).rdRecord rec_ 32
  let len := ((s.dieSlu[dt].res.find? (fun z => z.queue = q ∧ z.start = start)).map (·.len)).getD 0
  let s := (s.performWrite t via (recNat r 0 8 + start) (sendHeader dev die len s.tide.num)).1
  let res := s.dieSlu[dt].res.map (fun z => if z.queue = q ∧ z.start = start then { z with done := true } else z)
  let mine := res.filter (fun z => z.queue = q)
  let gone := mine.takeWhile (·.done)
  let s := s.onDie dt (fun z => { z with res := res.filter (fun a => !gone.contains a) })
  let s := match gone.getLast? with
    | some z => (s.performWrite t via (rec_ + 16) (leBytes 4 (z.start + z.need))).1
    | none => s
  if ok then s.countQueue t q else s

/-- A whole SEND at once, as a die of this module sends it: none while the ring is full. -/
def State.performSend (s : State) (t via q dev die : Nat) (bs : List Byte) : State × Option Bool :=
  match s.reserve t via q dev die bs.length with
  | (.full, s) => (s, none)
  | (.invalid, s) => (s, some false)
  | (.at start, s) =>
    let (s, ok) := s.sendBytes t via q start 0 bs
    (s.sendDone t via q dev die start ok, some ok)

end Sys2Proof.Machine
end

