-- ==== Sys2Proof/Machine/SluJobs.lean ====
section
/-! DEFINITION. A sluice command's checks (R426, R432, R436, R443), what it reads and writes, and how a collective's
data is cut into messages. -/

namespace Sys2Proof.Machine

/-- FN of a sluice command (R296). -/
def UnitOp.sluFn : UnitOp → Nat
  | .sluCopy .. => 0
  | .sluGather .. => 1
  | .sluScatter .. => 2
  | .sluReduce .. => 3
  | .sluColl .. => 4
  | .sluXmit .. => 5
  | _ => 6

/-- Event 0x1601 (R426). -/
def bad1601 (cause core i fn : Nat) : Bad := (0x1601, pack [(cause, 0), (core, 8), (i, 16), (fn, 21)])

/-- A sluice operand's descriptor. -/
def XCtx.sluDesc (x : XCtx) (va : Nat) (press : Bool) : Read Desc × XCtx := x.readDesc va ⟨false, press⟩

/-- Whether any of these elements of a destination lies on a slow-tier page (R424). -/
def SluCtx.onSlow (c : SluCtx) (d : Desc) (lins : List Nat) : Bool :=
  !d.empty && lins.any (fun n =>
    let (l, c) := c.locate d (delinear d.ext n)
    l.ok && l.remote.isNone && c.slowAt (l.d.address l.idx).1)

/-- Linear positions `base + j` for j below `n`, clamped. -/
def Desc.linsAt (d : Desc) (base n : Nat) : List Nat := (List.range n).map (fun j => (d.atLin ((base + j : Nat) : Int)).1)

/-- Index `i` of an index tensor (R429). -/
def SluCtx.index (c : SluCtx) (d : Desc) (i : Nat) : Int × SluCtx :=
  let (k, c) := c.cellLin d (i : Int)
  (codeInt 32 k.1, c)

/-- The elements of rows of a destination, by row. -/
def Desc.rowLins (d : Desc) (rows : List Int) : List Nat :=
  rows.flatMap (fun r => (List.range d.cols).map (fun (k : Nat) => (d.atRC r (k : Int)).1))

/-! Group records (R432). -/

/-- A valid group record with its member list. -/
structure Group where
  wide : Bool
  rank : Nat
  members : List (Nat × Nat)
  resVa : Nat
  ordinal : BitVec 64
  deriving DecidableEq, Repr

/-- The address of a group's record on a die. -/
def State.groupVa (s : State) (die g : Nat) : Nat := (s.reg (sluBase (2 * die) + 0x48)).toNat + 64 * g

/-- Reads and checks a group record; none where it is refused with cause 0x05. -/
def XCtx.group (x : XCtx) (g : Nat) : Read (Option Group) × XCtx :=
  let cnt := min 65536 (x.s.fld (sluBase (2 * x.die) + 0x50) 16 0)
  if cnt ≤ g then (.ok none, x)
  else
    let (bs, x) := x.rdRecord (x.s.groupVa x.die g) 64
    if x.fault.isSome ∨ x.badRecord then (.lost, x)
    else
      let n := recNat bs 0 4
      let rank := recNat bs 4 4
      let flags := recNat bs 8 1
      if n = 0 ∨ 65536 < n ∨ n ≤ rank ∨ flags % 2 = 0 ∨ 4 ≤ flags ∨ !recZero bs 9 7 ∨ !recZero bs 40 24
          ∨ recNat bs 24 8 % 512 ≠ 0 then (.ok none, x)
      else
        let (ms, x) := (pagePieces (recNat bs 16 8) 6 0 (4 * n)).foldl (fun (acc : List Byte × XCtx) (o, k) =>
          let (b, x) := acc.2.rdRecord (recNat bs 16 8 + o) k
          (acc.1 ++ b, x)) ([], x)
        if x.fault.isSome ∨ x.badRecord then (.lost, x)
        else
          let raw := (List.range n).map (fun i => recNat ms (4 * i) 4)
          let members := raw.map (fun m => (m % 65536, m / 65536 % 4))
          let me := (x.s.device, x.die)
          if raw.any (fun m => decide (2 ^ 18 ≤ m)) ∨ members[rank]? ≠ some me
              ∨ members.zipIdx.any (fun (m, i) => m == me && i != rank) then (.ok none, x)
          else
            (.ok (some ⟨flags / 2 % 2 == 1, rank, members, recNat bs 24 8, BitVec.ofNat 64 (recNat bs 32 8)⟩), x)

/-- Ranks a member sends to: its neighbours in the chain, or every other rank (R435, R436). -/
def collPeers (kind rank n : Nat) : List Nat :=
  if kind ≤ 1 then (if rank = 0 then [] else [rank - 1]) ++ (if rank + 1 < n then [rank + 1] else [])
  else (List.range n).filter (· != rank)

/-- Whether an endpoint can be addressed: a die of this module, or an entry of the connection table (R482). -/
def State.reachable (s : State) (d dev die : Nat) : Bool := dev == s.device || (s.connOf d dev die).isSome

/-! Checks. -/

/-- Checks a command at its start (R426); the reserved bytes of its block are ignored (R293). Field ranges first, then the group, then each descriptor, then
the causes in ascending order. -/
def SluCtx.build (c : SluCtx) (i : Nat) (cmd : UnitCmd) : Read SluJob × XCtx :=
  let core := cmd.core.val
  let w (k : Nat) : Nat := (cmd.word k).toNat
  let bad (cause : Nat) (x : XCtx) : Read SluJob × XCtx := (.bad (bad1601 cause core i cmd.op.sluFn), x)
  let x := c.x
  let idxOk (d : Desc) : Bool := d.field == 0x90
  match cmd.op with
  | .sluCopy _ press =>
      thenRead (x.sluDesc (w 0) (press != .none)) fun src x =>
      thenRead (x.sluDesc (w 2) (press != .none)) fun dst x =>
        if press ≠ .none ∧ src.compressible = dst.compressible then bad 8 x
        else if press ≠ .none ∧ ((src.compressible && w 1 % 128 != 0) || (dst.compressible && w 3 % 128 != 0)) then bad 6 x
        else (.ok (.copy src dst (w 1) (w 3) (w 4) press), x)
  | .sluGather _ =>
      thenRead (x.sluDesc (w 0) false) fun src x =>
      thenRead (x.sluDesc (w 1) false) fun idx x =>
      thenRead (x.sluDesc (w 2) false) fun dst x =>
        if src.field ≠ dst.field ∨ src.cols ≠ dst.cols then bad 2 x
        else if !idxOk idx then bad 3 x
        else (.ok (.gather src idx dst (w 3) (w 4)), x)
  | .sluScatter _ add =>
      thenRead (x.sluDesc (w 0) false) fun src x =>
      thenRead (x.sluDesc (w 1) false) fun idx x =>
      thenRead (x.sluDesc (w 2) false) fun dst x =>
        if src.field ≠ dst.field ∨ src.cols ≠ dst.cols then bad 2 x
        else if !idxOk idx then bad 3 x
        else if add ∧ !dst.fmt.addable then (.bad (bad1103 dst.field.toNat 0 core), x)
        else if add then
          let (rows, _) := ({ c with x := x } : SluCtx).collect (fun c k => c.index idx k) (List.range (w 4))
          if ({ c with x := x } : SluCtx).onSlow dst (dst.rowLins rows) then bad 4 x
          else (.ok (.scatter src idx dst (w 3) (w 4) true), x)
        else (.ok (.scatter src idx dst (w 3) (w 4) false), x)
  | .sluReduce _ op =>
      thenRead (x.sluDesc (w 0) false) fun src x =>
      thenRead (x.sluDesc (w 2) false) fun dst x =>
        if src.field ≠ dst.field then bad 2 x
        else if !dst.fmt.addable then (.bad (bad1103 dst.field.toNat 0 core), x)
        else if ({ c with x := x } : SluCtx).onSlow dst (dst.linsAt (w 3) (w 4)) then bad 4 x
        else (.ok (.reduce src dst (w 1) (w 3) (w 4) op), x)
  | .sluXmit _ msg =>
    let dev := w 3 % 65536
    let die := w 3 / 65536 % 4
    let q := w 3 / 2 ^ 24 % 256
    if w 3 / 2 ^ 18 % 64 ≠ 0 ∨ 2 ^ 32 ≤ w 3 then bad 1 x
    else
      thenRead (x.sluDesc (w 0) false) fun src x =>
        let bits := w 4 * src.fmt.elem.bits
        if msg = 3 ∧ 65536 < bits / 8 then bad 1 x
        else if src.fmt.scaled then bad 2 x
        else if msg = 2 ∧ !src.fmt.addable then (.bad (bad1103 src.field.toNat 0 core), x)
        else if bits % 8 ≠ 0 then bad 6 x
        else if !x.s.reachable x.die dev die then bad 7 x
        else
          let slow : Bool := msg == 2 && dev == x.s.device &&
            ((x.s.partOfDie die).any (fun p => (List.range (w 4)).any (fun j =>
              let v := x.s.walk p (w 2 + j * (src.fmt.elem.bits / 8))
              v.reason.isNone && v.kind == 1)))
          if slow then bad 4 x
          else (.ok (.xmit src (w 1) (w 4) msg (w 2) dev die q), x)
  | .sluColl _ op kind =>
    if 65535 < w 5 ∨ (kind ≠ 3 ∧ w 7 ≠ 0) ∨ (2 ≤ kind ∧ op ≠ .sum) then bad 1 x
    else
      thenRead (x.group (w 5)) fun g x =>
        match g with
        | none => bad 5 x
        | some g =>
          thenRead (x.sluDesc (w 0) false) fun src x =>
          thenRead (x.sluDesc (w 2) false) fun dst x =>
          thenRead (if w 7 = 0 then (.ok none, x)
            else thenRead (x.sluDesc (w 7) false) (fun d x => (.ok (some d), x))) fun idx x =>
            let n := g.members.length
            let count := w 4
            let rows := idx.isSome
            let s := count / n
            let unit := if kind = 3 then s else count
            if kind ≤ 1 ∧ !src.fmt.addable then (.bad (bad1103 src.field.toNat 0 core), x)
            else if src.field ≠ dst.field ∨ (rows ∧ src.cols ≠ dst.cols) then bad 2 x
            else if idx.any (fun d => !idxOk d) then bad 3 x
            else if kind ≤ 1 ∧ ({ c with x := x } : SluCtx).onSlow dst (dst.linsAt (w 3) (if kind = 0 then count else s)) then bad 4 x
            else if (kind = 1 ∨ (kind = 3 ∧ !rows)) ∧ count % n ≠ 0 then bad 6 x
            else if 2 ≤ kind ∧ !rows ∧ src.fmt.scaled ∧ (unit % src.fmt.blk ≠ 0 ∨ w 1 % src.fmt.blk ≠ 0 ∨ w 3 % src.fmt.blk ≠ 0
                ∨ src.scaleDim ≠ 0 ∨ dst.scaleDim ≠ 0) then bad 6 x
            else if (collPeers kind g.rank n).any (fun r =>
                !(x.s.reachable x.die ((g.members[r]?).getD (0, 0)).1 ((g.members[r]?).getD (0, 0)).2)) then bad 7 x
            else
              (.ok (.coll ⟨src, dst, idx, w 1, w 3, count, kind, op, w 5, g.ordinal, g.wide, g.rank, g.members, g.resVa⟩), x)
  | _ => bad 1 x

/-- The step of a command (R425): the block's STEP for a collective, else that of the granule. -/
def UnitCmd.sluStep (c : UnitCmd) : BitVec 64 :=
  match c.op with
  | .sluColl .. => c.word 6
  | _ => c.step

/-! What a command does to tensors. Each answers the destination and the linear indices it addressed, for the
unspecified values of a faulted command (R347). -/

/-- Writes at linear positions from `base`: clamped and counted. -/
def SluCtx.linWrites (c : SluCtx) (d : Desc) (base : Nat) (vs : List Val) : List ElemWrite × SluCtx :=
  if d.empty then (vs.map (fun v => ⟨0, v, .rne⟩), c)
  else
    c.collect (fun c (v, j) =>
      let (n, oob) := d.atLin ((base + j : Nat) : Int)
      (⟨n, v, .rne⟩, c.clamped d (b2n oob) true false)) vs.zipIdx

/-- SLU.COPY (R427). -/
def SluCtx.copy (c : SluCtx) (src dst : Desc) (sidx didx count : Nat) (press : Press) : List Nat × SluCtx :=
  let half := press == .half
  let pressing := press != .none
  let (vs, c) := c.collect (fun c j =>
    let p : Int := ((sidx + j : Nat) : Int)
    if pressing && src.compressible then
      if src.empty then (vZero false, c.clamped src 1 false true)
      else
        let q := clampIx src.elems p
        (c.clamped src (b2n (decide ((q : Int) ≠ p))) false false).expand src half q
    else
      let (k, c) := c.cellLin src p
      (src.fmt.cellVal k, c)) (List.range count)
  let (ws, c) := c.linWrites dst didx vs
  let c := if pressing && dst.compressible then
      (if dst.empty then c.clamped dst ws.length true true else c.press dst half ws)
    else c.write dst ws (dst.stride.headD 1 != 1)
  (ws.map (·.lin), c)

/-- Rows copied: source row, destination row (R429). -/
def SluCtx.moveRows (c : SluCtx) (src dst : Desc) (rows : List (Int × Int)) : List Nat × SluCtx :=
  let (ws, c) := rows.foldl (fun (acc : List ElemWrite × SluCtx) (a, b) =>
    let (l, c) := acc.2.collect (fun c (k : Nat) =>
      let (v, c) := c.cellRC src a (k : Int) src.fleur
      let (n, oob) := dst.atRC b (k : Int)
      let c := if dst.empty then c else c.clamped dst (b2n oob) true false
      ((⟨n, src.fmt.cellVal v, .rne⟩ : ElemWrite), c)) (List.range src.cols)
    (acc.1 ++ l, c)) ([], c)
  (ws.map (·.lin), c.write dst ws dst.fleur)

/-- Rows added (R315, R429). -/
def SluCtx.addRows (c : SluCtx) (src dst : Desc) (rows : List (Int × Int)) : List Nat × SluCtx :=
  rows.foldl (fun (acc : List Nat × SluCtx) (a, b) =>
    let (l, c) := acc.2.collect (fun c (k : Nat) =>
      let (v, c) := c.cellRC src a (k : Int) src.fleur
      let (n, oob) := dst.atRC b (k : Int)
      if dst.empty then (0, c.clamped dst 1 true true)
      else (n, (c.clamped dst (b2n oob) true false).add dst .sum n v.1)) (List.range src.cols)
    (acc.1 ++ l, c)) ([], c)

/-- SLU.REDUCE (R428). -/
def SluCtx.reduce (c : SluCtx) (src dst : Desc) (sidx didx count : Nat) (op : RedOp) : List Nat × SluCtx :=
  c.collect (fun c j =>
    let (v, c) := c.cellLin src ((sidx + j : Nat) : Int)
    let (n, oob) := dst.atLin ((didx + j : Nat) : Int)
    if dst.empty then (0, c.clamped dst 1 true true)
    else (n, (c.clamped dst (b2n oob) true false).add dst op n v.1)) (List.range count)

/-- The elements a SLU.XMIT READ writes: its bytes unpacked into the SRC positions (R443). -/
def SluCtx.unpackInto (c : SluCtx) (d : Desc) (sidx count : Nat) (bs : List Byte) : List Nat × SluCtx :=
  let codes := unpackCodes d.fmt.elem.bits count bs
  let (ws, c) := c.collect (fun c (k, j) =>
    let (n, oob) := d.atLin ((sidx + j : Nat) : Int)
    let c := if d.empty then c else c.clamped d (b2n oob) true false
    ((n, ((k, 0) : Cell)), c)) codes.zipIdx
  (ws.map (·.1), c.writeCells d ws (d.stride.headD 1 != 1) true)

/-- A free value as a block of a pressed destination. -/
def SluCtx.scramblePressed (c : SluCtx) (d : Desc) (half : Bool) (lins : List Nat) : SluCtx :=
  let n := pressBytes d.fmt.elem half
  let (ps, c) := c.collect (fun c (k : Nat) => c.pressedAt d k) lins
  (ps.foldl (fun (a : List (Loc × Nat)) p => if a.contains (p.1, p.2.1) then a else a ++ [(p.1, p.2.1)]) []).foldl
    (fun (c : SluCtx) q =>
      if !q.1.ok then c
      else
        let (vs, s) := (List.range ((n + 7) / 8)).foldl (fun (acc : List Byte × State) _ =>
          let (v, s) := acc.2.fresh
          (acc.1 ++ leBytes 8 v.toNat, s)) ([], c.x.s)
        let c := { c with x := { c.x with s := s } }
        let at_ := q.1.d.base + q.2 * n
        match q.1.remote with
        | some o => c.remoteWr o at_ (vs.take n) none
        | none => { c with x := c.x.wr d.pinned at_ (vs.take n) }) c

/-- Every element a faulted command addressed holds an unspecified value (R342, R347); `half` is the ratio of a pressed
destination. -/
def SluCtx.scramble (c : SluCtx) (d : Desc) (lins : List Nat) (half : Bool) : SluCtx :=
  if d.empty then c
  else if d.compressible then c.scramblePressed d half lins
  else
    lins.foldl (fun c n =>
      let (a, s) := c.x.s.fresh
      let (b, s) := s.fresh
      let c := { c with x := { c.x with s := s } }
      let (l, c) := c.locate d (delinear d.ext n)
      let c := c.storeCode l (a.toNat % 2 ^ d.fmt.elem.bits) false
      if d.fmt.scaled then c.storeScale l (b.toNat % 256) else c) c

/-! Collectives: elements to messages and back. -/

/-- Elements a message carries. -/
def collStep : Nat := 512

/-- Code width of partials on their way up a chain: the carry type (R434). -/
def CollJob.carry (j : CollJob) : Elem := if j.wide && j.src.fmt.elem == .bf16 then .fp32 else j.src.fmt.elem

/-- widen of R434. -/
def CollJob.widen (j : CollJob) (k : Nat) : Nat := if j.carry == j.src.fmt.elem then k else k * 65536

/-- narrow of R434, and whether it is an overflow on write. -/
def CollJob.narrow (j : CollJob) (k : Nat) : Nat × Bool :=
  if j.carry == j.src.fmt.elem then (k, false) else fBF16.write .rne (d32 k)

/-- Payload of element codes, each with its block's scale where the format has one. -/
def cellsBytes (f : Fmt) (l : List Cell) : List Byte :=
  packCodes f.elem.bits (l.map (·.1)) ++ (if f.scaled then l.map (fun c => BitVec.ofNat 8 c.2) else [])

/-- Elements of a payload. -/
def bytesCells (f : Fmt) (n : Nat) (bs : List Byte) : List Cell :=
  let codes := unpackCodes f.elem.bits n bs
  let at_ := (n * f.elem.bits + 7) / 8
  codes.zipIdx.map (fun (k, i) => (k, if f.scaled then ((bs[at_ + i]?).getD 0).toNat else 0))

/-- Positions of a member's contribution to rank `q` (R436): linear positions, or rows under R441. -/
def CollJob.sendLins (j : CollJob) (q : Nat) : List Nat :=
  let s := j.count / j.members.length
  if j.kind = 3 then (List.range s).map (fun k => j.sidx + q * s + k) else (List.range j.count).map (j.sidx + ·)

/-- The tag of a segment with COLL set (R481). -/
def collTag (m : CollMsg) : List Byte :=
  leBytes 8 m.inst.toNat ++ leBytes 8 m.step.toNat ++ leBytes 8 m.count ++ leBytes 2 m.group ++
    leBytes 1 (m.kind + 4 * m.op + 16 * b2n m.idx + 128 * b2n m.fail) ++ leBytes 1 m.fmt.toNat ++ leBytes 4 m.chunk

/-- The message of a COLL segment. -/
def collOfSeg (g : Seg) : CollMsg :=
  let code := recNat g.data 26 1
  { dev := g.srcDev, die := g.dies % 4, inst := BitVec.ofNat 64 (recNat g.data 0 8),
    step := BitVec.ofNat 64 (recNat g.data 8 8), count := recNat g.data 16 8, group := recNat g.data 24 2,
    kind := code % 4, op := code / 4 % 4, idx := code / 16 % 2 == 1, fmt := BitVec.ofNat 8 (recNat g.data 27 1),
    chunk := recNat g.data 28 4, ovf := g.flags / 8 % 2 == 1, last := g.flags / 2 % 2 == 1, fail := code / 128 == 1,
    data := g.data.drop 32 }

/-- SUMSQ of R439: blocks of 4096 squares, each summed exactly and rounded once, the blocks added in FP64. -/
def sumSq (f : Fmt) (codes : List Nat) : Nat :=
  let blocks := chunks 4096 codes.length codes
  (blocks.map (fun b => (fFP64.ieee (b.foldl (fun a k => a.add ((f.decode k).mul (f.decode k))) (vZero false))).1)).foldl
    (fun a b => (fFP64.ieee ((fFP64.decode a).add (fFP64.decode b))).1) 0

end Sys2Proof.Machine
end

