-- ==== Sys2Proof/Machine/Sluice.lean ====
section
/-! DEFINITION. The sluices' commands in progress (14_sluices.md): start, movement, completion, waits and
collectives. -/

namespace Sys2Proof.Machine

/-- The die of a sluice. -/
def sluDie (i : SluIx) : DieIx := Fin.ofNat 4 (i.val / 8)

/-- The cluster of a sluice. -/
def sluCluster (i : SluIx) : ClusterIx := Fin.ofNat 8 (i.val / 4)

/-- A sluice counter. -/
def sluCtr (i : SluIx) (off : Nat) : Nat := sluBase (i.val / 4) + off + 0x40 * (i.val % 4)

/-- Changes one sluice. -/
def State.onSlu (s : State) (i : SluIx) (f : SluSt → SluSt) : State := { s with slu := s.slu.set i (f s.slu[i]) }

/-- A running command. -/
def State.runOf (s : State) (i : SluIx) (id : Nat) : Option SluRun := s.slu[i].running.find? (fun r => r.id = id)

/-! Counts and taps of one movement. -/

/-- Insertion by address. -/
def insAddr (a : Nat × Nat × Nat) : List (Nat × Nat × Nat) → List (Nat × Nat × Nat)
  | [] => [a]
  | b :: l => if a.1 ≤ b.1 then a :: b :: l else b :: insAddr a l

/-- The accesses of a log in ascending address, each address once (R527). -/
def ascending (l : List (Nat × Nat × Nat)) : List (Nat × Nat × Nat) :=
  ((l.foldr insAddr []).foldl (fun (acc : List (Nat × Nat × Nat) × Nat) (va, pa, n) =>
    let skip := acc.2 - va
    if n ≤ skip then acc else (acc.1 ++ [(va + skip, pa + skip, n - skip)], va + n)) ([], 0)).1

/-- Whether any check-value or trace unit is enabled. -/
def State.tapsOn (s : State) : Bool :=
  (List.range 16).any (fun n => (s.reg (cvBase n)).getLsbD 0) || (List.range 4).any (fun d => (s.reg (traceBase d)).getLsbD 0)

/-- A sluice's reads or writes seen by its taps (R524): the bytes as `src` holds them. -/
def State.sluTaps (s : State) (src : State) (i : SluIx) (write : Bool) (log : List (Nat × Nat × Nat)) : State :=
  if !s.tapsOn then s
  else
    (ascending log).foldl (fun s (va, pa, n) =>
      let bs := src.rdBytes pa n
      let s := s.tap (i.val / 8) (i.val % 8 + 1 + 8 * b2n write) va bs
      match s.region pa with
      | some (.slow x) => s.tapSlow x (b2n write) va bs
      | _ => s) s

/-- Bytes counted in units of 64, the rest kept. -/
def State.sluBytes (s : State) (i : SluIx) (rd wr : Nat) : State :=
  let q := s.slu[i]
  let r := q.rdRem + rd
  let w := q.wrRem + wr
  ((s.onSlu i (fun q => { q with rdRem := r % 64, wrRem := w % 64 })).count (sluCtr i 0x410) (r / 64)).count
    (sluCtr i 0x420) (w / 64)

/-- Total length of a log. -/
def logBytes (l : List (Nat × Nat × Nat)) : Nat := (l.map (fun (_, _, n) => n)).foldl (· + ·) 0

/-- The state after a movement: counters, taps, the overflow flag (R425). `before` is the state it read. -/
def SluCtx.commit (c : SluCtx) (before : State) (i : SluIx) (step : BitVec 64) : State :=
  let x := c.x
  let s := x.s.sluBytes i (logBytes x.rlog) (logBytes x.wlog)
  let s := if c.gran = 0 then s else s.count (sluCtr i 0x430) c.gran
  let s := if x.ovfs = 0 then s else s.count (sluBase (i.val / 4) + 0x520) x.ovfs
  let s := if x.ovf then s.setOverflow (x.part.getD 0) (i.val / 4) step else s
  (s.sluTaps before i false x.rlog).sluTaps x.s i true x.wlog

/-! Fetching from owners and sending to them. -/

/-- Consecutive addresses joined into runs of at most 4096 bytes. -/
def joinRuns (l : List (Nat × Nat × Nat)) : List ((Nat × Nat × Nat) × Nat) :=
  l.foldl (fun acc k =>
    match acc.getLast? with
    | some ((d, e, a), n) =>
      if d = k.1 ∧ e = k.2.1 ∧ a + n = k.2.2 ∧ n < 4096 then acc.dropLast ++ [((d, e, a), n + 1)] else acc ++ [(k, 1)]
    | none => [(k, 1)]) []

/-- Sends READs for bytes that owners hold (R431). -/
def State.fetchRemote (s : State) (i : SluIx) (id : Nat) (need : List (Nat × Nat × Nat)) : State :=
  let d := i.val / 8
  (joinRuns (need.foldl (fun a k => if a.contains k then a else a ++ [k]) [])).foldl (fun s (k, n) =>
    match s.connOf d k.1 k.2.1 with
    | none => s.onRun i id (fun r => { r with error := true })
    | some j =>
      if s.connBroken d j then s.onRun i id (fun r => { r with error := true })
      else (s.onRun i id (fun r => { r with out := r.out + 1 })).sendRead d j k.2.2 n (i.val, id)) s

/-- Writes to owners joined where they follow on one another. -/
def joinOuts (l : List SluOut) : List SluOut :=
  l.foldl (fun acc o =>
    match acc.getLast? with
    | some p =>
      if p.dev = o.dev ∧ p.die = o.die ∧ p.red = o.red ∧ p.va + p.data.length = o.va ∧ p.data.length + o.data.length ≤ 4096
      then acc.dropLast ++ [{ p with data := p.data ++ o.data }] else acc ++ [o]
    | none => [o]) []

/-- One kept segment of a run to an endpoint. -/
def State.sendRun (s : State) (i : SluIx) (id dev die : Nat) (g : Seg) (body : TxBody) : State :=
  let d := i.val / 8
  match s.connOf d dev die with
  | none => s.onRun i id (fun r => { r with error := true })
  | some j =>
    if s.connBroken d j then s.onRun i id (fun r => { r with error := true })
    else (s.onRun i id (fun r => { r with out := r.out + 1 })).sendConn d j g body (some (i.val, id))

/-- WRITE and RED messages to owners (R431); they name no receive queue. A RED carries the command's OP in AUX, 0 for SUM (log
entry 84). -/
def State.sendOuts (s : State) (i : SluIx) (id : Nat) (l : List SluOut) : State :=
  (joinOuts l).foldl (fun s o =>
    let g : Seg := ⟨match o.red with | some _ => 3 | none => 0, 0, o.data.length, 0, 0, 0, 0, (o.red.map (·.1)).getD 0, 0, 0, o.va,
      (o.red.map (·.2)).getD 0, []⟩
    s.sendRun i id o.dev o.die g (.bytes o.data)) s

/-! Movement. -/

/-- What the command does to tensors, with its destination. -/
def SluJob.move (j : SluJob) (c : SluCtx) : Option Desc × List Nat × SluCtx :=
  match j with
  | .copy src dst a b n p => let (l, c) := c.copy src dst a b n p; (some dst, l, c)
  | .gather src idx dst b n =>
    let (rows, c) := c.collect (fun c k => c.index idx k) (List.range n)
    let (l, c) := c.moveRows src dst (rows.zipIdx.map (fun (r, i) => (r, ((b + i : Nat) : Int))))
    (some dst, l, c)
  | .scatter src idx dst a n add =>
    let (rows, c) := c.collect (fun c k => c.index idx k) (List.range n)
    let pairs := rows.zipIdx.map (fun (r, i) => (((a + i : Nat) : Int), r))
    let (l, c) := if add then c.addRows src dst pairs else c.moveRows src dst pairs
    (some dst, l, c)
  | .reduce src dst a b n op => let (l, c) := c.reduce src dst a b n op; (some dst, l, c)
  | .xmit .. => (none, [], c)
  | .coll _ => (none, [], c)

/-- The fault of a movement: an owner entry (R347), a failed translation (R342), a poisoned record (R352). -/
def SluCtx.fault (c : SluCtx) : Option Bad :=
  match c.bad with
  | some b => some b
  | none => c.x.badEnd

/-- The ratio of a pressed copy. -/
def SluJob.half : SluJob → Bool
  | .copy _ _ _ _ _ p => p == .half
  | _ => false

/-- Ends a movement: unspecified values for a fault's destination, counts, taps, the events of the command, and what
goes to owners. The event of a bad owner entry is raised once for the command (R347). -/
def State.moved (s : State) (i : SluIx) (r : SluRun) (dst : Option Desc) (lins : List Nat) (c : SluCtx) : State :=
  let f := c.fault
  let c := match f, dst with
    | some _, some d => { c.scramble d lins r.job.half with outs := [] }
    | _, _ => c
  let t := { c with x := { c.x with s := c.commit s i r.step } }.x.close
  let t := match c.bad, r.fault with
    | some b, none => t.raise (t.sluSrc i.val) b.1 b.2
    | _, _ => t
  (t.onRun i r.id (fun r => { r with moved := true, fault := f, notes := XNotes.none })).sendOuts i r.id c.outs

/-- Pieces of at most 4096 bytes. -/
def pieces4k (n : Nat) : List (Nat × Nat) :=
  (List.range ((n + 4095) / 4096)).map (fun k => (4096 * k, min 4096 (n - 4096 * k)))

/-- A SLU.XMIT (R443): performed at a die of this module, or sent. -/
def State.moveXmit (s : State) (i : SluIx) (r : SluRun) (src : Desc) (sidx count msg rva dev die q : Nat) : State :=
  let d := i.val / 8
  let core := r.cmd.core.val
  let c := s.sluCtx i.val core r.got
  let n := count * src.fmt.elem.bits / 8
  let own := dev == s.device
  if count = 0 then s.onRun i r.id (fun r => { r with moved := true })
  else if msg = 1 then
    let (bs, ok, c) : List Byte × Bool × SluCtx :=
      if own then
        let (bs, x) := (c.x.s.recvCtx die d).rdLong rva n
        (bs, x.fault.isNone, { c with x := { c.x with s := x.close } })
      else
        let (bs, c) := c.remoteBytes (dev, die) rva n
        (bs, true, c)
    if !c.need.isEmpty then s.fetchRemote i r.id c.need
    else
      let (l, c) := c.unpackInto src sidx count bs
      (s.moved i r (some src) l c).onRun i r.id (fun r => { r with error := r.error || !ok })
  else
    let (bs, c) := c.packed src sidx 0 n
    if !c.need.isEmpty then s.fetchRemote i r.id c.need
    else if c.fault.isSome then s.moved i r none [] c
    else if own then
      let done (t : State) (ok : Bool) : State :=
        (t.moved i r none [] { c with x := { c.x with s := t } }).onRun i r.id (fun r => { r with error := r.error || !ok })
      match msg with
      | 0 =>
        let (t, ok) := c.x.s.performWrite die d rva bs
        done (if ok then t.countQueue die q else t) ok
      | 2 =>
        let (t, ok, o) := c.x.s.performRed die d rva src.field.toNat .sum bs
        let t := if o = 0 then t else t.setOverflow (c.x.part.getD 0) (i.val / 4) r.step
        let t := if o = 0 then t else t.count (sluBase (i.val / 4) + 0x520) o
        done (if ok then t.countQueue die q else t) ok
      | _ =>
        match c.x.s.performSend die d q s.device d bs with
        | (t, some ok) => done t ok
        | (_, none) => (s.reserve die d q s.device d bs.length).2
    else
      let t := s.moved i r none [] c
      let last := (pieces4k n).length - 1
      (pieces4k n).zipIdx.foldl (fun t ((o, k), p) =>
        let flags := b2n (p == 0) + 2 * b2n (p == last)
        let arg := if msg = 3 then (if p = 0 then n else 0) + 2 ^ 32 * o else rva + o
        let g : Seg := ⟨if msg = 0 then 0 else if msg = 2 then 3 else 4, flags, k, 0, 0, 0, q,
          if msg = 2 then src.field.toNat else 0, 0, 0, arg, 0, []⟩
        t.sendRun i r.id dev die g
          (if src.ownVa = 0 then .elems src core sidx o k else .bytes ((bs.drop o).take k))) t

/-- Moves a command that is not a collective. -/
def State.moveRun (s : State) (i : SluIx) (r : SluRun) : State :=
  match r.job with
  | .coll _ => s
  | .xmit src a n msg rva dev die q => s.moveXmit i r src a n msg rva dev die q
  | j =>
    let (dst, l, c) := j.move (s.sluCtx i.val r.cmd.core.val r.got)
    if c.x.held s then s
    else if !c.need.isEmpty then s.fetchRemote i r.id c.need else s.moved i r dst l c

/-- Whether a command needs the links as soon as it starts. -/
def SluJob.remote (j : SluJob) (own : Nat) : Bool :=
  match j with
  | .copy a b _ _ _ _ => a.ownVa != 0 || b.ownVa != 0
  | .gather a _ b _ _ => a.ownVa != 0 || b.ownVa != 0
  | .scatter a _ b _ _ _ => a.ownVa != 0 || b.ownVa != 0
  | .reduce a b _ _ _ _ => a.ownVa != 0 || b.ownVa != 0
  | .xmit _ _ _ _ _ dev _ _ => dev != own
  | .coll _ => false

/-! Collectives. -/

/-- The sluice of a die that runs the instance a chunk belongs to. -/
def State.sluFor (s : State) (d : DieIx) (m : CollMsg) : Option Nat :=
  (List.range 8).find? (fun k => s.slu[(Fin.ofNat 32 (8 * d.val + k) : SluIx)].running.any (fun r =>
    match r.job with
    | .coll j => j.group = m.group ∧ j.inst = m.inst
    | _ => false))

/-- Chunks in the staging of a sluice: 64 at most (R437). -/
def stagingChunks : Nat := 64

/-- Whether there is staging for a chunk: an instance of its own runs at the die, and its sluice's is not full (R437). -/
def State.hasStaging (s : State) (d : DieIx) (m : CollMsg) : Bool :=
  match s.sluFor d m with
  | some k => decide ((s.dieSlu[d].inbox.filter (fun a => s.sluFor d a == some k)).length < stagingChunks)
  | none => false

/-- Chunks that their senders hold are staged, in arrival order, as far as there is staging for them; staging of an
instance that has ended is given up (R437). -/
def State.stageChunks (s : State) (d : DieIx) : State :=
  let s := s.onDie d (fun q => { q with inbox := q.inbox.filter (fun m => (s.sluFor d m).isSome) })
  s.dieSlu[d].held.foldl (fun s m =>
    if s.hasStaging d m then s.onDie d (fun q => { q with inbox := q.inbox ++ [m], held := q.held.erase m }) else s) s

/-- A chunk that reaches a die: staged, or held by its sender (R437). -/
def State.holdChunk (s : State) (d : DieIx) (m : CollMsg) : State :=
  (s.onDie d (fun q => { q with held := q.held ++ [m] })).stageChunks d

/-- Sends one message of an instance to a member (R433, R438, R481). -/
def State.collSend (s : State) (i : SluIx) (r : SluRun) (j : CollJob) (rank chunk : Nat) (last fail : Bool) (data : List Byte) :
    State :=
  let (dev, die) := (j.members[rank]?).getD (0, 0)
  let part := s.partNum (i.val / 8)
  let m : CollMsg := {
    dev := s.device, die := i.val / 8, inst := j.inst, step := r.step, count := j.count, group := j.group,
    kind := j.kind, op := redCode j.op, idx := j.idx.isSome, fmt := j.src.field, chunk := chunk,
    ovf := s.gate.ovf.contains (part, r.step), last := last, fail := fail, data := data }
  let cl := sluCluster i
  let b := s.collRem[cl] + data.length
  let s := ({ s with collRem := s.collRem.set cl (b % 64) } : State).count (sluBase cl.val + 0x510) (b / 64)
  if dev = s.device then s.holdChunk (Fin.ofNat 4 die) m
  else
    let flags := b2n (chunk == 0) + 2 * b2n last + 4 + 8 * b2n m.ovf
    s.sendRun i r.id dev die ⟨0, flags, 32 + data.length, 0, 0, 0, 0, 0, 0, 0, 0, 0, []⟩ (.bytes (collTag m ++ data))

/-- Sends a stream of elements to a member in messages of `collStep` elements, after a prefix. -/
def State.collStream (s : State) (i : SluIx) (r : SluRun) (j : CollJob) (rank : Nat) (pre : List Byte) (f : Fmt) (l : List Cell) :
    State :=
  let k := max 1 ((l.length + collStep - 1) / collStep)
  (List.range k).foldl (fun s p =>
    s.collSend i r j rank p (p + 1 == k) false
      ((if p = 0 then pre else []) ++ cellsBytes f ((l.drop (collStep * p)).take collStep))) s

/-- The format of what travels up a chain. -/
def CollJob.upFmt (j : CollJob) : Fmt := if j.carry == j.src.fmt.elem then j.src.fmt else ⟨.fp32, 0, false⟩

/-- A member's own contribution at linear positions. -/
def SluCtx.contribution (c : SluCtx) (j : CollJob) (lins : List Nat) : List Cell × SluCtx :=
  c.collect (fun c (k : Nat) => c.cellLin j.src (k : Int)) lins

/-- Rows for each rank (R441): the destination rank of every row, clamped and counted. -/
def SluCtx.rowRanks (c : SluCtx) (j : CollJob) (idx : Desc) : List Nat × SluCtx :=
  c.collect (fun c k =>
    let (v, c) := c.index idx k
    let q := clampIx j.members.length v
    (q, c.clamped idx (b2n (decide ((q : Int) ≠ v))) false false)) (List.range j.count)

/-- The rows sent to one rank, in ascending source row. -/
def SluCtx.rowsFor (c : SluCtx) (j : CollJob) (ranks : List Nat) (q : Nat) : List Cell × SluCtx :=
  (ranks.zipIdx.filter (fun (a, _) => a = q)).foldl (fun (acc : List Cell × SluCtx) (_, k) =>
    let (l, c) := acc.2.collect (fun c (col : Nat) => c.cellRC j.src ((j.sidx + k : Nat) : Int) (col : Int) j.src.fleur)
      (List.range j.src.cols)
    (acc.1 ++ l, c)) ([], c)

/-- What a member has for every rank at its start: rank, rows announced, elements. -/
def SluCtx.collParts (c : SluCtx) (j : CollJob) : List (Nat × Nat × List Cell) × SluCtx :=
  match j.idx with
  | some d =>
    let (ranks, c) := c.rowRanks j d
    c.collect (fun c q =>
      let (l, c) := c.rowsFor j ranks q
      ((q, (ranks.filter (· = q)).length, l), c)) (List.range j.members.length)
  | none =>
    c.collect (fun c q =>
      let (l, c) := c.contribution j (j.sendLins q)
      ((q, 0, l), c)) (List.range j.members.length)

/-- Changes the collective of a run. -/
def State.onColl (s : State) (i : SluIx) (id : Nat) (f : CollSt → CollSt) : State :=
  s.onRun i id (fun r => { r with coll := r.coll.map f })

/-- What a part of an instance met is kept for its end; a bad owner entry raises event 0x1204 once (R347). -/
def State.collNote (s : State) (i : SluIx) (r : SluRun) (c : SluCtx) : State :=
  let s := match c.bad, r.fault with
    | some b, none => s.raise (s.sluSrc i.val) b.1 b.2
    | _, _ => s
  s.onRun i r.id (fun q => { q with
    notes := c.x.notes
    fault := match q.fault with
      | some f => some f
      | none => c.fault
    error := q.error || c.fault.isSome })

/-- A member's first part of an instance: its contribution read, and what it sends first. -/
def State.collBegin (s : State) (i : SluIx) (r : SluRun) (j : CollJob) : State :=
  let n := j.members.length
  let c := s.sluCtx i.val r.cmd.core.val r.got
  let c := { c with x := c.x.resume r.notes }
  let keep (s : State) (c : SluCtx) : State := (c.commit s i r.step).collNote i r c
  if j.kind ≤ 1 then
    let (own, c) := if j.rank = 0 then c.contribution j (j.sendLins 0) else ([], c)
    if !c.need.isEmpty then s.fetchRemote i r.id c.need
    else
      let s := (keep s c).onColl i r.id (fun z => { z with ready := true })
      if j.rank ≠ 0 then s
      else if n = 1 then s.onColl i r.id (fun z => { z with up := j.count, res := own.map (·.1) })
      else if j.count = 0 then s
      else (s.onColl i r.id (fun z => { z with up := j.count })).collStream i r j 1 []
        j.upFmt (own.map (fun k => (j.widen k.1, 0)))
  else
    let (parts, c) := c.collParts j
    if !c.need.isEmpty then s.fetchRemote i r.id c.need
    else
      let s := keep s c
      let mine := (parts.find? (fun (q, _) => q = j.rank))
      let s := s.onColl i r.id (fun z => { z with
        ready := true
        cells := [(j.rank, (mine.map (fun (_, _, l) => l)).getD [])]
        rows := [(j.rank, (mine.map (fun (_, k, _) => k)).getD 0)]
        done := [j.rank] })
      if j.count = 0 ∧ j.idx.isNone then s.onColl i r.id (fun z => { z with done := List.range n })
      else
        parts.foldl (fun s (q, k, l) =>
          if q = j.rank then s
          else s.collStream i r j q (if j.idx.isSome then leBytes 8 k else []) j.src.fmt l) s

/-- The instance fails at this member (R433): event 0x1602, error status, unspecified results, and a notice to every member
that this one has a connection to. -/
def State.collFail (s : State) (i : SluIx) (r : SluRun) (j : CollJob) : State :=
  let s := (s.onRun i r.id (fun r => { r with error := true })).raise (s.sluSrc i.val) 0x1602
    (pack [(j.group, 0), (bitsOf j.inst 47 0, 16)])
  ((List.range j.members.length).filter (fun q => q != j.rank &&
    (match j.members[q]? with
      | some (dev, die) => s.reachable (i.val / 8) dev die
      | none => false))).foldl (fun s q => s.collSend i r j q 0 true true []) s

/-- Whether the fields of a chunk agree with the member's own command (R433); COUNT may differ with IDX (R441). -/
def CollMsg.agrees (m : CollMsg) (j : CollJob) (step : BitVec 64) : Bool :=
  m.kind == j.kind && m.op == redCode j.op && m.fmt == j.src.field && m.step == step && m.idx == j.idx.isSome &&
    (m.count == j.count || j.idx.isSome)

/-- A partial that came up the chain is combined with the member's contribution (R434) and goes on, or turns into
results at the last rank. -/
def State.collUp (s : State) (i : SluIx) (r : SluRun) (j : CollJob) (z : CollSt) (m : CollMsg) : State :=
  let n := j.members.length
  let k := min collStep (j.count - z.up)
  let part := bytesCells j.upFmt k m.data
  let c := s.sluCtx i.val r.cmd.core.val r.got
  let c := { c with x := c.x.resume r.notes }
  let (own, c) := c.contribution j ((List.range k).map (fun a => j.sidx + z.up + a))
  if !c.need.isEmpty then
    -- the member's own elements are fetched from their owner first; the chunk stays (R431)
    (s.onDie (sluDie i) (fun q => { q with inbox := m :: q.inbox })).fetchRemote i r.id c.need
  else
  let (sums, c) := c.collect (fun c (p, o) =>
    let (v, ov) := addCodes j.carry j.op p.1 (j.widen o.1)
    (v, c.overflow (b2n ov))) (part.zip own)
  let last := j.rank + 1 == n
  let (outs, c) := if last then c.collect (fun c v =>
      let (w, ov) := j.narrow v
      (w, c.overflow (b2n ov))) sums else (sums, c)
  let ov := c.x.ovf
  let s := (c.commit s i r.step).collNote i r c
  let s := s.onColl i r.id (fun z => { z with up := z.up + k, ovf := z.ovf || ov, res := if last then z.res ++ outs else z.res })
  if last then
    s.collSend i r j (j.rank - 1) m.chunk m.last false (cellsBytes j.src.fmt (outs.map (fun v => (v, 0))))
  else s.collSend i r j (j.rank + 1) m.chunk m.last false (cellsBytes j.upFmt (outs.map (fun v => (v, 0))))

/-- A finished chunk on its way down the chain: kept, and passed on (R435). -/
def State.collDown (s : State) (i : SluIx) (r : SluRun) (j : CollJob) (z : CollSt) (m : CollMsg) : State :=
  let k := min collStep (j.count - z.res.length)
  let s := s.onColl i r.id (fun z => { z with res := z.res ++ (bytesCells j.src.fmt k m.data).map (·.1) })
  if j.rank = 0 then s else s.collSend i r j (j.rank - 1) m.chunk m.last false m.data

/-- Elements of a direct stream. -/
def State.collDirect (s : State) (i : SluIx) (r : SluRun) (j : CollJob) (z : CollSt) (q : Nat) (m : CollMsg) : State :=
  let rows := if m.chunk = 0 ∧ j.idx.isSome then recNat m.data 0 8 else (assoc q z.rows).getD 0
  let data := if m.chunk = 0 ∧ j.idx.isSome then m.data.drop 8 else m.data
  let have_ := (assoc q z.cells).getD []
  let total := if j.idx.isSome then rows * j.src.cols
    else if j.kind = 3 then j.count / j.members.length else j.count
  let k := min collStep (total - have_.length)
  s.onColl i r.id (fun z => { z with
    rows := assocPut q rows z.rows
    cells := assocPut q (have_ ++ bytesCells j.src.fmt k data) z.cells
    done := if m.last then z.done ++ [q] else z.done })

/-- A chunk taken by the member's running command. -/
def State.collTake (s : State) (i : SluIx) (r : SluRun) (j : CollJob) (z : CollSt) (m : CollMsg) : State :=
  if r.error then s
  -- a failure is passed on, so that it reaches every member of a chain (R433)
  else if m.fail then s.collFail i r j
  else if !m.agrees j r.step then s.collFail i r j
  else
    let s := if m.ovf then
        (s.setOverflow (s.partNum (i.val / 8)) (i.val / 4) r.step).onColl i r.id (fun z => { z with ovfIn := true })
      else s
    let s := s.onColl i r.id (fun z => { z with since := s.tide.num, warned := false })
    match j.members.idxOf? (m.dev, m.die) with
    | none => s
    | some q =>
      if j.kind ≤ 1 then
        if q + 1 = j.rank then s.collUp i r j z m
        else if q = j.rank + 1 then s.collDown i r j z m
        else s
      else s.collDirect i r j z q m

/-- A running collective of a die that a chunk belongs to. -/
def State.collTarget (s : State) (d : DieIx) (m : CollMsg) : Option (SluIx × SluRun × CollJob × CollSt) :=
  (List.range 8).findSome? (fun k =>
    let i : SluIx := Fin.ofNat 32 (8 * d.val + k)
    s.slu[i].running.findSome? (fun r =>
      match r.job, r.coll with
      | .coll j, some z =>
        -- a member whose own elements are on their way from an owner takes no chunk
        if j.group = m.group ∧ j.inst = m.inst ∧ z.ready ∧ !r.moved ∧ (j.src.ownVa = 0 ∨ r.out = 0) then some (i, r, j, z) else none
      | _, _ => none))

/-- COLL_CHUNK_RECEIVE (R433, R434, R437, R438, R441): held chunks are staged, then the first staged chunk is taken by the
instance that runs at the die. -/
def execCollChunkReceive (d : DieIx) (s : State) : Res :=
  let s := s.stageChunks d
  let box := s.dieSlu[d].inbox
  match box.findIdx? (fun m => (s.collTarget d m).isSome) with
  | none => .next s
  | some n =>
    match box[n]? with
    | none => .next s
    | some m =>
      match s.collTarget d m with
      | none => .next s
      | some (i, r, j, z) => .next ((s.onDie d (fun q => { q with inbox := q.inbox.eraseIdx n })).collTake i r j z m)

/-- Whether every chunk of an instance has been received. -/
def CollJob.finished (j : CollJob) (z : CollSt) : Bool :=
  z.ready &&
    (if j.kind ≤ 1 then decide (z.res.length = j.count) else (List.range j.members.length).all (fun q => z.done.contains q))

/-- Where the received elements go (R436, R441). -/
def CollJob.placed (j : CollJob) (z : CollSt) (c : SluCtx) : List (Nat × Cell) × SluCtx :=
  let n := j.members.length
  let s := j.count / n
  let at_ (c : SluCtx) (p : Nat) (k : Cell) : (Nat × Cell) × SluCtx :=
    let (l, oob) := j.dst.atLin (p : Int)
    ((l, k), if j.dst.empty then c else c.clamped j.dst (b2n oob) true false)
  match j.kind with
  | 0 => c.collect (fun c (k, p) => at_ c (j.didx + p) (k, 0)) z.res.zipIdx
  | 1 => c.collect (fun c (k, p) => at_ c (j.didx + p) (k, 0)) ((z.res.drop (j.rank * s)).take s).zipIdx
  | _ =>
    match j.idx with
    | some _ =>
      let rows := (List.range n).flatMap (fun q => chunks (max 1 j.src.cols) ((assoc q z.cells).getD []).length ((assoc q z.cells).getD []))
      c.collect (fun c ((k, col), p) =>
        let (l, oob) := j.dst.atRC ((j.didx + p : Nat) : Int) (col : Int)
        ((l, k), if j.dst.empty then c else c.clamped j.dst (b2n oob) true false))
        (rows.zipIdx.flatMap (fun (row, p) => row.zipIdx.map (fun (k, (col : Nat)) => ((k, col), p))))
    | none =>
      let span := if j.kind = 3 then s else j.count
      c.collect (fun c (q, k, p) => at_ c (j.didx + q * span + p) k)
        ((List.range n).flatMap (fun q => ((assoc q z.cells).getD []).zipIdx.map (fun (k, (p : Nat)) => (q, k, p))))

/-- Elements of DST a failed instance leaves unspecified: those it addresses by its own command. -/
def CollJob.addressed (j : CollJob) : List Nat :=
  let s := j.count / j.members.length
  match j.kind with
  | 0 => j.dst.linsAt j.didx j.count
  | 1 => j.dst.linsAt j.didx s
  | 2 => j.dst.linsAt j.didx (j.count * j.members.length)
  | _ => match j.idx with
    | some _ => j.dst.rowLins ((List.range j.count).map (fun k => ((j.didx + k : Nat) : Int)))
    | none => j.dst.linsAt j.didx j.count

/-- The end of an instance: results written, then the result record (R439). -/
def State.collEnd (s : State) (i : SluIx) (r : SluRun) (j : CollJob) (z : CollSt) : State :=
  let c := s.sluCtx i.val r.cmd.core.val r.got
  let c := { c with x := c.x.resume r.notes }
  let (ws, c) := if r.error then ([], c.scramble j.dst j.addressed false) else j.placed z c
  let c := c.writeCells j.dst ws (if j.idx.isSome then j.dst.fleur else j.dst.stride.headD 1 != 1) false
  if !c.need.isEmpty then s.fetchRemote i r.id c.need
  else
    let ovf := z.ovf || ws.any (fun (_, k) => !(j.dst.fmt.cellVal k).isFin)
    let rowsIn := if j.idx.isSome ∧ !r.error then (z.rows.map (·.2)).foldl (· + ·) 0 else 0
    let sq := if j.kind ≤ 1 ∧ !r.error then sumSq j.src.fmt (ws.map (fun (_, k) => k.1)) else 0
    let rec_ := leBytes 8 j.inst.toNat ++ leBytes 8 sq ++ leBytes 4 rowsIn ++
      leBytes 4 (b2n ovf + 2 * b2n z.ovfIn + 4 * b2n (r.error || c.fault.isSome)) ++ leBytes 8 r.step.toNat
    let c := { c with x := c.x.wr false (j.resVa + 32 * (j.inst.toNat % 16)) rec_ }
    let f := match r.fault with | some f => some f | none => c.fault
    ((s.moved i r (some j.dst) (ws.map (·.1)) c).onRun i r.id (fun r => { r with fault := f })).count
      (sluBase (i.val / 4) + 0x500) 1

/-! Start, waits, completion. -/

/-- A refusal (R426). -/
def State.refuseSlu (s : State) (i : SluIx) (cmd : UnitCmd) (b : Bad) : State := s.refuseRaise (s.sluSrc i.val) cmd b

/-- A collective takes the group's next instance number (R433); a write that fails is the command's fault (R342). -/
def State.takeOrdinal (s : State) (i : SluIx) (core : Nat) (j : CollJob) : Option Bad × State :=
  let x := (s.sluCtx i.val core []).x
  let x := x.wr false (s.groupVa (i.val / 8) j.group + 32) (leBytes 8 (j.inst + 1).toNat)
  (x.badEnd, x.close)

/-- A command that passed its checks begins. -/
def State.startSlu (s : State) (i : SluIx) (cmd : UnitCmd) (job : SluJob) : State :=
  let id := s.slu[i].next
  let coll : Option CollSt := match job with
    | .coll _ => some ⟨false, 0, [], [], [], [], s.tide.num, false, false, false⟩
    | _ => none
  let r : SluRun := ⟨id, cmd, cmd.sluStep, job, coll, [], 0, false, XNotes.none, none, false⟩
  let s := s.onSlu i (fun q => { q with running := q.running ++ [r], next := q.next + 1 })
  match job with
  | .coll j =>
    let (b, s) := s.takeOrdinal i cmd.core.val j
    let r := { r with fault := b, error := b.isSome }
    (s.onRun i id (fun _ => r)).collBegin i r j
  | _ => if job.remote s.device then s.moveRun i r else s

/-- SLU_COMMAND_START (R422, R426): the command at the head of the queue is checked and begins, is refused, or, a
SLU.WAIT, moves to the die's wait table when that has room. -/
def execSluCommandStart (i : SluIx) (s : State) : Res :=
  let q := s.slu[i]
  let d := sluDie i
  match q.queue with
  | [] => .next s
  | cmd :: l =>
    let core := cmd.core.val
    let s' := s.onSlu i (fun q => { q with queue := l })
    if !s.clocked then .next s
    else
      match cmd.op with
      | .sluWait _ =>
        if 255 < (cmd.word 0).toNat then .next (s'.refuseSlu i cmd (bad1601 1 core i.val 6))
        else if s.dieSlu[d].waits.length < 64 then .next (s'.onDie d (fun z => { z with waits := z.waits ++ [cmd] }))
        else .next s
      | _ =>
        if 4 ≤ q.running.length then .next s
        else
          let c := s.sluCtx i.val core []
          match c.build i.val cmd with
          | (.bad b, x) => .next (({ x with s := s' } : XCtx).close.refuseSlu i cmd b)
          | (.lost, x) =>
            let s := ({ x with s := s' } : XCtx).close
            (match x.badEnd with
              | some b => .next (s.refuse cmd b.1 b.2)
              | none => .next s)
          | (.ok job, _) => .next (s'.startSlu i cmd job)

/-- SLU_WAIT_SATISFIED (R445): a wait whose queue has counted to the threshold completes. -/
def execSluWaitSatisfied (d : DieIx) (n : Fin 64) (s : State) : Res :=
  match s.dieSlu[d].waits[n.val]? with
  | none => .next s
  | some cmd =>
    let c := s.ctrAt (fabBase d.val + 0x1000 + 0x10 * ((cmd.word 0).toNat % 256))
    if (cmd.word 1).toNat ≤ c.toNat then
      .next ((s.onDie d (fun z => { z with waits := z.waits.eraseIdx n.val })).finish cmd false)
    else .next s

/-- A command that has moved its data and waits for nothing ends: its token, and deferred cause 0x08 for a fault
(R342, R347). -/
def State.endRun (s : State) (i : SluIx) (id : Nat) : State :=
  match s.runOf i id with
  | none => s
  | some r =>
    if !r.moved || r.out != 0 then s
    else
      let s := (s.onSlu i (fun q => { q with running := q.running.filter (fun a => a.id ≠ id) })).count (sluCtr i 0x400) 1
      match r.fault with
      | some b => s.refuse r.cmd b.1 b.2
      | none => s.finish r.cmd r.error

/-- SLU_COMMAND_COMPLETE (R305): the command's movement is performed, and it completes when nothing of it is
outstanding. -/
def execSluCommandComplete (i : SluIx) (k : Fin 4) (s : State) : Res :=
  match s.slu[i].running[k.val]? with
  | none => .next s
  | some r =>
    if r.moved then .next (s.endRun i r.id)
    else if r.out ≠ 0 then .next s
    else
      match r.job, r.coll with
      | .coll j, some z =>
        if !z.ready then .next (s.collBegin i r j)
        else if r.error || j.finished z then .next ((s.collEnd i r j z).endRun i r.id)
        else .next s
      | _, _ => .next ((s.moveRun i r).endRun i r.id)

/-- COLL_WARN (R437): a collective of the sluice without progress for COLL_WARN tides, once each. -/
def execCollWarn (i : SluIx) (s : State) : Res :=
  let w := s.fld (sluBase (i.val / 4) + 0x40) 31 0
  .next (s.slu[i].running.foldl (fun s r =>
    match r.job, r.coll with
    | .coll j, some z =>
      if w ≠ 0 ∧ !z.warned ∧ !r.moved ∧ z.since.toNat + w ≤ s.tide.num.toNat then
        (s.onColl i r.id (fun z => { z with warned := true })).raise (s.sluSrc i.val) 0x1603
          (pack [(j.group, 0), (bitsOf j.inst 47 0, 16)])
      else s
    | _, _ => s) s)

end Sys2Proof.Machine
end

