-- ==== Sys2Proof/Machine/Sync.lean ====
section
/-! DEFINITION. Synchronisation and system instructions (R285 to R291, R307 to R310). -/

namespace Sys2Proof.Machine

/-- FENCE.L (R307): a local store is written when it issues, so nothing is left to wait for. -/
def execFenceL (c : CoreIx) (s : State) : Res := issueWhen c [] [] (fun s => s.beginWait c .fenceL) s

/-- FENCE.S: staged blocks are written, and every earlier virtual-space access is waited for. -/
def execFenceS (c : CoreIx) (s : State) : Res := issueWhen c [] [] (fun s => (s.flushHandles c).beginWait c .fenceS) s

/-- FENCE.A: FENCE.L, FENCE.S, and FENCE.U on targets 3 to 6. -/
def execFenceA (c : CoreIx) (s : State) : Res := issueWhen c [] [] (fun s => (s.flushHandles c).beginWait c .fenceA) s

def execFenceUQueue (c : CoreIx) (t : Target) (s : State) : Res :=
  issueWhen c [] [] (fun s => s.beginWait c (.fenceUQ t)) s

def execFenceUToken (c : CoreIx) (k : TokIx) (s : State) : Res :=
  issueWhen c [] [] (fun s => s.beginWait c (.fenceUT k)) s

/-- The word of a TIDE.WAIT that names a distance of 0. -/
def tideZeroWord (rd : RegIx) : BitVec 64 := pack [(0x38, 57), (4, 52), (rd.val, 41), (1, 0)]

/-- TIDE.WAIT (R286). A distance is at least 1; a word with 0 takes cause 0x01. -/
def execTideWait (c : CoreIx) (rd : RegIx) (target : TideTarget) (s : State) : Res :=
  match target with
  | .abs ra => issueWhen c [rd, ra] [] (fun s => s.beginWait c (.tide (s.core[c].sget ra) rd)) s
  | .rel n =>
    issueWhen c [rd] [] (fun s =>
      if n = 0 then s.precise c 1 (tideZeroWord rd)
      else s.beginWait c (.tide (s.tide.num + n.setWidth 64) rd)) s

/-- The core arrives at a barrier of its granule. -/
def State.arrive (s : State) (c : CoreIx) (id : Fin 16) : State :=
  let cl := clusterOf c
  let s := s.onDisp cl (fun d =>
    { d with bars := assocPut id.val ((assoc id.val d.bars).getD [] ++ [c]) d.bars })
  let s := (s.onCore c (fun k => { k with wait := some ⟨.bar id, s.tide.num, false⟩ })).count (coreCtr c 0x400) 1
  s.settleBar cl id.val

/-- Whether a core takes part in the running granule. -/
def State.inGranule (s : State) (c : CoreIx) : Bool :=
  match s.disp[clusterOf c].running with
  | some g => g.cores.contains c
  | none => false

/-- BAR (R287, R309): staged blocks are written, and the core waits for every participant; outside a granule it
completes at issue. -/
def execBar (c : CoreIx) (id : Fin 16) (s : State) : Res :=
  issueWhen c [] [] (fun s =>
    if s.inGranule c then (s.flushHandles c).arrive c id else s.retire c (fun k => k)) s

/-- TOKEN.SET: clears ERR, leaves COUNT (R288). -/
def execTokenSet (c : CoreIx) (k : TokIx) (s : State) : Res :=
  issueReg c [] [] (fun q => { q with tok := q.tok.set k { q.tok[k] with err := false } }) s

/-- TOKEN.WAIT: waits for COUNT = 0, then ERR to RD (R288). -/
def execTokenWait (c : CoreIx) (k : TokIx) (rd : RegIx) (s : State) : Res :=
  issueWhen c [rd] [] (fun s => s.beginWait c (.tokenWait k rd)) s

/-- The offset a CSR number names (R289). -/
def csrOff (csr : BitVec 12) : Nat := 8 * csr.toNat

/-- CSR.RD (R289): cause 0x09 with the offset where the number has no register. -/
def execCsrRd (c : CoreIx) (rd : RegIx) (csr : BitVec 12) (s : State) : Res :=
  issueWhen c [rd] [] (fun s =>
    match s.coreRead c (csrOff csr) with
    | some v =>
      let (v, s) := s.readOpen (openCsr c (csrOff csr)) v
      let (v, s) := s.readFills (coreFills (csrOff csr)) v
      s.retire c (fun k => k.sput rd v)
    | none => s.precise c 9 (BitVec.ofNat 64 (csrOff csr))) s

/-- CSR.WR (R289, R290): cause 0x09 where the number has no register, or one only firmware may write. -/
def execCsrWr (c : CoreIx) (ra : RegIx) (csr : BitVec 12) (s : State) : Res :=
  issueWhen c [ra] [] (fun s =>
    match s.coreRead c (csrOff csr) with
    | some _ =>
      if coreFwOnly (csrOff csr) then s.precise c 9 (BitVec.ofNat 64 (csrOff csr))
      else (s.coreWrite c (csrOff csr) (s.core[c].sget ra)).retire c (fun k => k)
    | none => s.precise c 9 (BitVec.ofNat 64 (csrOff csr))) s

/-- TRAP (R291): cause 0x0A with the immediate. -/
def execTrap (c : CoreIx) (imm : BitVec 32) (s : State) : Res :=
  issueWhen c [] [] (fun s => s.precise c 10 (imm.setWidth 64)) s

/-- HALT (R310): acts as FENCE.A, then the core halts. -/
def execHalt (c : CoreIx) (s : State) : Res := issueWhen c [] [] (fun s => (s.flushHandles c).beginWait c .halt) s

end Sys2Proof.Machine
end

