-- ==== Sys2Proof/Machine/CoreEvents.lean ====
section
/-! DEFINITION. What happens to a core apart from the instructions it issues: deferred traps and completions arriving,
trap entry, a stall ending, a granule completing (R241 to R257). -/

namespace Sys2Proof.Machine

/-- DEFERRED_TRAP_ARRIVE (R256): queued among at most 8, else dropped with LOST and event 0x1116. -/
def execDeferredTrapArrive (c : CoreIx) (s : State) : Res :=
  match s.core[c].recsIn with
  | [] => .next s
  | r :: l =>
    if s.core[c].recs.length < 8 then .next (s.onCore c (fun k => { k with recsIn := l, recs := k.recs ++ [r] }))
    else
      .next ((s.onCore c (fun k => { k with recsIn := l, lost := true })).raise (s.coreSrc c.val) 0x1116
        (pack [(c.val, 0), (r.code.toNat, 16)]))

/-- TOKEN_COMPLETION (R241, R242): COUNT decreases, ERR sets with error status; a wait that this satisfies ends. -/
def execTokenCompletion (c : CoreIx) (s : State) : Res :=
  match s.core[c].toksIn with
  | [] => .next s
  | (j, err) :: l =>
    .next ((s.onCore c (fun k => { k with
      toksIn := l
      tok := k.tok.set j ⟨k.tok[j].count - 1, k.tok[j].err || err⟩ })).settle c)

/-- ISSUE_RESUME (R247): the stalled instruction issues once its buffer and tokens have room. -/
def execIssueResume (c : CoreIx) (s : State) : Res :=
  match s.core[c].stall with
  | none => .next s
  | some st =>
    if s.clocked && s.core[c].roomFor st.cmd then
      .next (s.retire c (fun k => ({ k with stall := none } : CoreSt).bufferCmd st.cmd st.la st.size))
    else .next s

/-- A wait inside which an instruction boundary falls (R256, R285). -/
def WaitKind.boundary : WaitKind → Bool
  | .tokenWait .. => true
  | .bar _ => true
  | .tide .. => true
  | _ => false

/-- The core is at an instruction boundary: between two instructions, stalled, or in such a wait. -/
def CoreSt.atBoundary (k : CoreSt) : Bool :=
  k.mode == .running && !k.kill &&
    (match k.wait with
      | none => true
      | some w => w.kind.boundary)

/-- A core that leaves a BAR for its handler withdraws its arrival: the wait begins again (R256). -/
def State.withdraw (s : State) (c : CoreIx) : State :=
  match s.core[c].wait with
  | some ⟨.bar id, _, _⟩ =>
    s.onDisp (clusterOf c) (fun d =>
      match assoc id.val d.bars with
      | some l => { d with bars := assocPut id.val (l.filter (fun x => x ≠ c)) d.bars }
      | none => d)
  | _ => s

/-- Cause 0x0B: the word that failed is a fourth-attempt failure of the core's arrays (R255, R506). -/
def State.parityTrap (s : State) (c : CoreIx) (p : ParityFail) : State :=
  let info : BitVec 64 := match p with
    | .localAddr a => a.setWidth 64
    | .register n => n.setWidth 64
  (s.chanCount ⟨4, c.val, 0⟩ 3 1).precise c 11 info

/-- The fetch of the word at the PC fails (R249, R268): misaligned, or a failed translation with event 0x1202. -/
def State.fetchTrap (s : State) (c : CoreIx) : State :=
  let pc := s.core[c].pc
  if pc.toNat % 8 ≠ 0 then s.precise c 2 pc
  else
    let x := XCtx.start s 5 (s.coreSrc c.val) (some (c.val / 16)) c.val
    let w := s.xlate x.part 5 .fetch false pc.toNat
    match w.reason with
    | some r =>
      let s := if w.bad then s.raise x.src 0x1302 (x.poisonPayload pc.toNat) else s
      (s.raise x.src 0x1202 (x.faultPayload (low 56 pc.toNat, r))).precise c 2 pc
    | none => s

/-- TRAP_ENTRY (R255 to R257). With `parity` the instruction at the PC meets a word that failed four attempts.
Otherwise a deferred trap that is due is taken at this boundary; with none, a fetch at the PC that fails traps. -/
def execTrapEntry (c : CoreIx) (parity : Option ParityFail) (s : State) : Res :=
  let k := s.core[c]
  if !s.clocked || !k.atBoundary then .next s
  else
    match parity with
    | some p => if k.ready then .next (s.parityTrap c p) else .next s
    | none =>
      if k.trapDue then
        match k.recs with
        | [] => .next s
        | r :: l =>
          .next (((s.withdraw c).onCore c (fun k => { k with recs := l })).enterTrap c r.cause.toNat r.code.toNat
            r.info k.pc false)
      else if k.stall.isSome || k.wait.isSome then .next s
      else .next (s.fetchTrap c)

/-- The local index of the sequencer's physical core (R254). -/
def State.sequencer (s : State) (cl : ClusterIx) : Option CoreIx := s.physOf cl (s.fld (clusterBase cl.val + 0x110000) 35 32)

/-- Whether every core of a granule has halted and its tokens read COUNT 0 (R253). -/
def State.granuleDone (s : State) (g : Granule) : Bool :=
  g.cores.all (fun c =>
    let k := s.core[c]
    (k.mode == .halted || k.mode == .fenced) && k.tok.toList.all (fun t => t.count == 0) && k.unitsDone && k.acc.isEmpty)

/-- GRANULE_COMPLETE (R253): STATUS and COST written into the descriptor in the sequencer's local memory; the cluster
dispatches again from the next edge. -/
def execGranuleComplete (cl : ClusterIx) (cost : BitVec 32) (s : State) : Res :=
  match s.disp[cl].running with
  | none => .next s
  | some g =>
    if s.granuleDone g then
      let status := 1 + 2 * b2n g.overran + 4 * b2n g.killed
      let s := match s.sequencer cl with
        | some q => s.onCore q (fun k =>
            (k.localStore (g.addr + 26) [BitVec.ofNat 8 status]).localStore (g.addr + 28) (leBytes 4 cost.toNat))
        | none => s
      .next (s.onDisp cl (fun d => { d with running := none, overrun := false, bars := [] }))
    else .next s

end Sys2Proof.Machine
end

