-- ==== Sys2Proof/Machine/Links.lean ====
section
/-! DEFINITION. Laser source modules, port states and training, the link layer, lanes, knocks (15_tuimal_links.md). -/

namespace Sys2Proof.Machine

/-! Laser source modules (R456 to R460). -/

/-- LASER_STATUS of a bay. -/
def laserReg (b : Nat) (off : Nat) : Nat := optBase (b / 4) + 0x6000 + 0x40 * (b % 4) + off

/-- STATE of a bay. -/
def State.laser (s : State) (b : Nat) : Nat := s.fld (laserReg b 0) 3 0

/-- A bay's module supplies light: SHARING or SOLE. -/
def State.laserLit (s : State) (b : Nat) : Bool := s.laser b == 2 || s.laser b == 3

/-- Sets STATE and SHARE. -/
def State.setLaser (s : State) (b st : Nat) : State :=
  (s.setFld (laserReg b 0) 3 0 st).setFld (laserReg b 0) 23 16 (if st = 2 then 50 else if st = 3 then 100 else 0)

/-- The other bay of an engine. -/
def partnerBay (b : Nat) : Nat := if b % 2 = 0 then b + 1 else b - 1

/-- Whether an engine has light. -/
def State.engineLit (s : State) (o : Nat) : Bool := s.laserLit (2 * o) || s.laserLit (2 * o + 1)

/-- The ports of an engine. -/
def enginePorts (o : Nat) : List PortIx := (List.range 8).map (fun k => Fin.ofNat 64 (8 * o + k))

/-- Sets LINK_STATUS.STATE. -/
def State.setPort (s : State) (p : PortIx) (st : Nat) : State := s.setFld (linkReg p 0) 3 0 st

/-- A port goes DOWN (R460, R468, R469, R474): its replay buffer and streams are discarded, event 0x1702. -/
def State.portDown (s : State) (p : PortIx) (reason : Nat) : State :=
  let s := (((s.setPort p 5).setFld (linkReg p 0) 15 8 0).onPort p (fun q => { PortSt.reset with knock := q.knock }))
  let s := if p.val < 8 then s.setFld (optBase 0 + 0xC000 + 0x40 * p.val) 1 0 0 else s
  s.raise (s.portSrc p) 0x1702 (pack [(p.val, 0), (reason, 6)])

/-- A dark engine takes every port of it that is enabled down with reason 1 (R460). -/
def State.engineDark (s : State) (o : Nat) : State :=
  (enginePorts o).foldl (fun s p => if s.portState p = 0 ∨ s.portState p = 5 then s else s.portDown p 1) s

/-- A port tries again: training, or, in the Ethernet personality, what R499 says it reads while enabled. -/
def State.trainPort (s : State) (p : PortIx) : State := s.setPort p (if s.fld (linkReg p 8) 1 1 = 1 then 6 else 2)

/-- Light returns to a dark engine: each enabled port trains again (R460). -/
def State.engineRelit (s : State) (o : Nat) : State :=
  (enginePorts o).foldl (fun s p => if s.portState p = 5 then s.trainPort p else s) s

/-- LASER_LOSS (R457, R460): a module that supplied light fails or is pulled; its partner becomes SOLE, and the
engine's flits carry LSW. -/
def execLaserLoss (b : Fin 16) (pulled : Bool) (s : State) : Res :=
  let o := b.val / 2
  let was := s.laserLit b.val
  let s := s.setLaser b.val (if pulled then 0 else 5)
  if !was then .next s
  else
    let partner := s.laserLit (partnerBay b.val)
    let s := if partner then
        let s := s.setLaser (partnerBay b.val) 3
        { s with link := { s.link with lsw := s.link.lsw.set (Fin.ofNat 8 o) true } }
      else s
    let s := (s.raise (s.optSrc o) 0x1705 (pack [(b.val, 0), (o, 4), (b2n partner, 7)])).alert 2
    .next (if partner then s else s.engineDark o)

/-- LASER_INSERT (R459): a module in an empty bay warms. -/
def execLaserInsert (b : Fin 16) (hours : BitVec 32) (s : State) : Res :=
  if s.laser b.val = 0 then .next ((s.setLaser b.val 1).setFld (laserReg b.val 0) 63 32 hours.toNat) else .next s

/-- LASER_WARM_DONE (R459): SHARING beside a partner in service, SOLE without one, or FAULT with event 0x1705. -/
def execLaserWarmDone (b : Fin 16) (ok : Bool) (s : State) : Res :=
  let o := b.val / 2
  if s.laser b.val ≠ 1 then .next s
  else if ok then
    if s.laserLit (partnerBay b.val) then .next ((s.setLaser b.val 2).setLaser (partnerBay b.val) 2)
    else .next ((s.setLaser b.val 3).engineRelit o)
  else
    .next (((s.setLaser b.val 5).raise (s.optSrc o) 0x1705
      (pack [(b.val, 0), (o, 4), (b2n (s.laser (partnerBay b.val) == 3), 7)])).alert 2)

/-- LASER_RELEASE_COMPLETE (R458): the partner at full output, the released module dark. -/
def execLaserReleaseComplete (b : Fin 16) (s : State) : Res :=
  if (s.reg (laserReg b.val 8)).getLsbD 0 ∧ s.laser (partnerBay b.val) = 2 then
    .next (((s.setLaser (partnerBay b.val) 3).setLaser b.val 4).setFld (laserReg b.val 8) 0 0 0)
  else .next s

/-- LASER_REMOVED (R623): a released (or failed) module is withdrawn; the bay reads EMPTY. -/
def execLaserRemoved (b : Fin 16) (s : State) : Res :=
  if s.laser b.val = 4 ∨ s.laser b.val = 5 then .next (s.setLaser b.val 0) else .next s

/-- LSW_WINDOW_END (R457). -/
def execLswWindowEnd (w : LswEnd) (s : State) : Res :=
  match w with
  | .engine o => .next { s with link := { s.link with lsw := s.link.lsw.set o false } }
  | .port p => .next (s.onPort p (fun q => { q with mask := false }))

/-! Lanes (R467, R472 to R477). -/

/-- Width for a number of healthy lanes (R474). -/
def laneWidth (n : Nat) : Nat := if n = 8 then 8 else if 6 ≤ n then 6 else if 4 ≤ n then 4 else 0

/-- Healthy lanes of a mask of retired ones, ascending. -/
def healthyLanes (retired : Nat) : List Nat := (List.range 8).filter (fun k => retired / 2 ^ k % 2 = 0)

/-- Receive lanes that carry flits: the lowest healthy ones (R474). -/
def State.rxLanes (s : State) (p : PortIx) : List Nat :=
  let h := healthyLanes (s.fld (linkReg p 0) 31 24)
  h.take (laneWidth h.length)

/-- Takes a sequence number for a link-management flit, kept until acknowledged (R468). -/
def PortSt.sendMgmt (q : PortSt) : PortSt :=
  { q with nextSeq := q.nextSeq + 1, unacked := q.unacked ++ [⟨q.nextSeq, 2, [], 1⟩] }

/-- A receive lane is retired (R475): RX_RETIRED, a link-management flit, the new width, event 0x1701; a port of
width 0 is DOWN. `reason` 0 threshold, 1 signal lost, 2 found at retrain. -/
def State.retireLane (s : State) (p : PortIx) (k reason : Nat) : State :=
  if s.fld (linkReg p 0) 31 24 / 2 ^ k % 2 = 1 then s
  else
    let s := s.setFld (linkReg p 0) (24 + k) (24 + k) 1
    let w := laneWidth (healthyLanes (s.fld (linkReg p 0) 31 24)).length
    let s := (s.setFld (linkReg p 0) 15 12 w).onPort p PortSt.sendMgmt
    let s := s.raise (s.portSrc p) 0x1701 (pack [(p.val, 0), (k, 8), (w, 12), (reason, 16)])
    if w = 0 then s.portDown p 0 else s

/-- LANE_SIGNAL_LOSS (R473): a lane in use is retired at once, except under the mask of R457. -/
def execLaneSignalLoss (p : PortIx) (k : Fin 8) (s : State) : Res :=
  if s.portState p = 3 ∧ (s.rxLanes p).contains k.val ∧ !s.link.port[p].mask then .next (s.retireLane p k.val 1) else .next s

/-- LANE_RETIRE (R472): a lane whose errors of the window reach THRESH is retired. -/
def execLaneRetire (p : PortIx) (k : Fin 8) (s : State) : Res :=
  let th := max 1 (s.fld (optBase 0 + 0x20) 15 0)
  if s.portState p = 3 ∧ th ≤ s.link.port[p].errs[k] then .next (s.retireLane p k.val 0) else .next s

/-- LANE_RECALIBRATE (R477): changes no width and no value; a flit that becomes ready waits up to 2 µs. -/
def execLaneRecalibrate (_ : PortIx) (_ : Fin 8) (s : State) : Res := .next s

/-! Port states and training (R461 to R464). -/

/-- FIRST_LIGHT (R462). -/
def execFirstLight (p : PortIx) (s : State) : Res :=
  if s.portState p = 1 then .next (s.setPort p 2) else .next s

/-- PORT_DOWN_RETRY (R461): training is tried again while the engine has light. -/
def execPortDownRetry (p : PortIx) (s : State) : Res :=
  if s.portState p = 5 ∧ s.engineLit (p.val / 8) then .next (s.trainPort p) else .next s

/-- Credits at initialisation, per VC: REQ, RSP, CTL, STAT (R470). -/
def creditInit : Vector Nat 4 := #v[2400, 2400, 64, 64]

/-- Lanes of a mask that are not set. -/
def missing (m : BitVec 8) : Nat := 255 - m.toNat

/-- Lanes in service that did not lock are retired with reason 2. -/
def State.retireUnlocked (s : State) (p : PortIx) (rx : BitVec 8) : State :=
  (List.range 8).foldl (fun s k =>
    if rx.getLsbD k ∨ s.fld (linkReg p 0) 31 24 / 2 ^ k % 2 = 1 then s
    else
      let s := s.setFld (linkReg p 0) (24 + k) (24 + k) 1
      s.raise (s.portSrc p) 0x1701 (pack [(p.val, 0), (k, 8),
        (laneWidth (healthyLanes (s.fld (linkReg p 0) 31 24)).length, 12), (2, 16)])) s

/-- Every flit of the replay buffer sent again (R468). -/
def State.replayAll (s : State) (p : PortIx) : State :=
  (s.count (linkCtr p 0x20) s.link.port[p].unacked.length).onPort p (fun q =>
    { q with unacked := q.unacked.map (fun f => { f with tries := f.tries + 1 }) })

/-- PORT_TRAINING_COMPLETE (R462, R464, R468): at least four lanes each way and a valid peer. A port in TRAINING
initialises its sequence numbers and credits; one in RETRAIN sends its replay buffer again. -/
def execPortTrainingComplete (p : PortIx) (t : Training) (s : State) : Res :=
  let st := s.portState p
  let rxH := healthyLanes (Nat.lor (s.fld (linkReg p 0) 31 24) (missing t.rx))
  let txH := healthyLanes (missing t.tx)
  if (st ≠ 2 ∧ st ≠ 4) ∨ rxH.length < 4 ∨ txH.length < 4 ∨ t.dev = 0xFFFF then .next s
  else
    let s := s.retireUnlocked p t.rx
    let rw := laneWidth rxH.length
    let tw := laneWidth txH.length
    let s := ((((s.setPort p 3).setFld (linkReg p 0) 63 48 t.dev.toNat).setFld (linkReg p 0) 47 42 t.port.val).setFld
      (linkReg p 0) 23 16 (missing t.tx)).setFld (linkReg p 0) 15 8 (rw * 16 + tw)
    let delay := (t.rtt.toNat * 16 - t.turn.toNat) / 2
    let s := s.setReg (linkReg p 0x10) (pack [(t.rtt.toNat, 32), (low 32 delay, 0)])
    let s := s.raise (s.portSrc p) 0x1703 (pack [(p.val, 0), (rw, 8), (tw, 12), (t.dev.toNat, 16), (t.port.val, 32)])
    let s := if 5100 < t.rtt.toNat then s.raise (s.portSrc p) 0x170A (pack [(p.val, 0), (t.rtt.toNat, 32)]) else s
    let s := if st = 2 then
        s.onPort p (fun q => { PortSt.reset with cred := creditInit, tx := q.tx, knock := q.knock })
      else
        let n := s.link.port[p].unacked.length
        (s.count (linkCtr p 0x20) n).onPort p (fun q => { q with unacked := q.unacked.map (fun f => { f with tries := 1 }) })
    .next (s.pump p)

/-- PORT_TRAINING_FAIL (R463): DOWN with event 0x1704; a retrain that fails also takes the port down with reason 2
(R468). -/
def execPortTrainingFail (p : PortIx) (why : TrainFail) (s : State) : Res :=
  let r := match why with
    | .severalPorts => 1
    | .fewLanes => 2
    | .badPeer => 3
  let ev (s : State) : State := s.raise (s.portSrc p) 0x1704 (pack [(p.val, 0), (r, 8)])
  match s.portState p with
  | 2 => .next (ev (s.setPort p 5))
  | 4 => .next ((ev s).portDown p 2)
  | _ => .next s

/-- RETRAIN_TIMEOUT (R468): a retrain not done in 200 µs puts the port DOWN with reason 2. -/
def execRetrainTimeout (p : PortIx) (s : State) : Res :=
  if s.portState p = 4 then .next (s.portDown p 2) else .next s

/-! Flits (R468 to R472). -/

/-- Parity failures charged to lanes: word i to the (i mod w)-th lane in use (R467, R472). -/
def State.chargeLanes (s : State) (p : PortIx) (bad : List (Fin 34)) : State :=
  let lanes := s.rxLanes p
  bad.foldl (fun s w =>
    match lanes[w.val % lanes.length]? with
    | none => s
    | some k =>
      let s := s.count (linkCtr p (0x80 + 0x10 * k)) 1
      if s.link.port[p].mask then s
      else s.onPort p (fun q => { q with errs := q.errs.set (Fin.ofNat 8 k) (q.errs[Fin.ofNat 8 k] + 1) })) s

/-- NAK sent once for the expected SEQ (R468). -/
def PortSt.nakOnce (q : PortSt) : PortSt := { q with naked := some q.expect }

/-- A port goes to RETRAIN, counted among its replays (R468). -/
def State.retrain (s : State) (p : PortIx) : State := (s.setPort p 4).count (linkCtr p 0x20) 1

/-- The trailer of a good flit: acknowledgement, credits, LSW, NAK (R466, R468, R470). -/
def State.takeTrailer (s : State) (p : PortIx) (f : Flit) : State :=
  let s := s.onPort p (fun q => { q with
    unacked := q.unacked.filter (fun u => decide (2 ^ 15 ≤ (f.ack - u.seq).toNat))
    cred := q.cred.set f.crVc (q.cred[f.crVc] + f.crCnt.toNat)
    mask := q.mask || f.lsw })
  if !f.nak then s
  else if s.link.port[p].unacked.any (fun u => decide (4 ≤ u.tries)) then s.retrain p
  else s.replayAll p

/-- A flit that is next in sequence (R468): its units, or its message. -/
def State.acceptFlit (s : State) (p : PortIx) (f : Flit) : State :=
  let s := s.onPort p (fun q => { q with expect := q.expect + 1, naked := none })
  match f.body with
  | .data v units =>
    (s.count (linkCtr p 0x10) 1).onPort p (fun q => { q with
      rx := q.rx.set v { q.rx[v] with
        bytes := q.rx[v].bytes ++ units
        flits := q.rx[v].flits ++ [units.length / 32] } })
  | .idle => s
  | .retire k =>
    let s := s.setFld (linkReg p 0) (16 + k.val) (16 + k.val) 1
    let w := laneWidth (healthyLanes (s.fld (linkReg p 0) 23 16)).length
    let s := (s.setFld (linkReg p 0) 11 8 w).raise (s.portSrc p) 0x1701 (pack [(p.val, 0), (1, 6), (k.val, 8), (w, 12)])
    if w = 0 then s.portDown p 0 else s
  | .ident dev port =>
    if s.fld (linkReg p 0) 63 48 = dev.toNat ∧ s.fld (linkReg p 0) 47 42 = port.val then s else s.setPort p 4

/-- FLIT_RECEIVE (R468): a bad word discards the flit and every later one until the expected SEQ; a good flit's trailer
is taken, and its content when its SEQ is the next expected. -/
def execFlitReceive (p : PortIx) (f : Flit) (bad : List (Fin 34)) (s : State) : Res :=
  if s.portState p ≠ 3 then .next s
  else if !bad.isEmpty then .next ((s.chargeLanes p bad).onPort p PortSt.nakOnce)
  else
    let s := s.takeTrailer p f
    let s := match f.body with
      | .idle => s
      | _ =>
        let q := s.link.port[p]
        if f.seq = q.expect then s.acceptFlit p f
        else if (f.seq - q.expect).toNat < 2 ^ 15 then s.onPort p PortSt.nakOnce
        else s
    .next (s.pump p)

/-- IDLE_FLIT_TIMER (R468): an idle flit carries ACK and the credits of one VC. -/
def execIdleFlitTimer (p : PortIx) (s : State) : Res :=
  if s.portState p ≠ 3 then .next s
  else
    .next (s.onPort p (fun q =>
      match q.rx.toList.zipIdx.find? (fun (r, _) => r.ret != 0) with
      | some (_, i) =>
        let v : Fin 4 := Fin.ofNat 4 i
        { q with rx := q.rx.set v { q.rx[v] with ret := q.rx[v].ret - min 1023 q.rx[v].ret } }
      | none => q))

/-- KNOCK_COMPLETE (R497): GO clears. -/
def execKnockComplete (p : PortIx) (s : State) : Res :=
  if s.link.port[p].knock then
    .next ((s.onPort p (fun q => { q with knock := false })).setFld (linkReg p 0x20) 0 0 0)
  else .next s

/-- FORWARD_STALL_WARN (R489): a forwarded segment that has waited STALL_WARN tides for credits, once. -/
def execForwardStallWarn (p : PortIx) (s : State) : Res :=
  let w := s.fld (optBase 0 + 8) 31 0
  let due (e : Nat × Nat × BitVec 64 × Bool) : Bool := w != 0 && !e.2.2.2 && decide (e.2.2.1.toNat + w ≤ s.tide.num.toNat)
  let s' := (s.link.port[p].stalled.filter due).foldl (fun s e =>
    s.raise (s.portSrc p) 0x1709 (pack [(p.val, 0), (e.1, 6), (e.2.1, 16)])) s
  .next (s'.onPort p (fun q => { q with
    stalled := q.stalled.map (fun e => (e.1, e.2.1, e.2.2.1, e.2.2.2 || due e)) }))

end Sys2Proof.Machine
end

