-- ==== Sys2Proof/Machine/Segments.lean ====
section
/-! DEFINITION. Segments as they reach a module (R479 to R491): the head of a port's stream taken by its type,
forwarded or dropped; acknowledgement and retransmission; Ethernet frames and queue pairs (R499 to R502). -/

namespace Sys2Proof.Machine

/-! Taking a segment. -/

/-- The module is in M2. -/
def State.inM2 (s : State) : Bool := s.fld 0x100000 7 4 == 2

/-- The ports kept in M2 (R556). -/
def State.keptPort (s : State) (p : PortIx) : Bool :=
  (s.reg 0x100230).getLsbD p.val || (s.reg (optBase 0 + 0x18)).getLsbD p.val ||
    ((s.reg (optBase 0 + 0x10)).getLsbD 6 && s.fld (optBase 0 + 0x10) 5 0 == p.val)

/-- The segment at the head of a port's stream, with the units it takes. -/
def State.headSeg (s : State) (p : PortIx) (v : Fin 4) : Option (Seg × Nat) := takeSegment s.link.port[p].rx[v].bytes

/-- Buffered flits after `u` more units are consumed: what is left, and the flits freed (R470). -/
def freeFlits : Nat → List Nat → List Nat × Nat
  | _, [] => ([], 0)
  | u, k :: l => if k ≤ u then let (r, n) := freeFlits (u - k) l; (r, n + 1) else ((k - u) :: l, 0)

/-- Consumes `u` units of a stream. -/
def State.consume (s : State) (p : PortIx) (v : Fin 4) (u : Nat) : State :=
  s.onPort p (fun q =>
    let r := q.rx[v]
    let (fl, n) := freeFlits u r.flits
    { q with rx := q.rx.set v ⟨r.bytes.drop (32 * u), fl, r.ret + n⟩ })

/-- Whether a header is invalid (R479, R480, R490). -/
def Seg.invalid (g : Seg) (v : Fin 4) : Bool :=
  decide (8 < g.typ) || segVc g.typ != v || decide (16 ≤ g.flags) || decide (4096 < g.len) || decide (16 ≤ g.dies) ||
    decide (16 ≤ g.hops) ||
    (if g.typ = 3 then g.etype != 0 && g.etype != 0x20 && g.etype != 0x90 else g.etype != 0) ||
    (if g.typ = 5 then decide (2 ^ 34 ≤ g.arg) else decide (6 ≤ g.typ) && g.arg != 0) ||
    -- AUX of a RED is its OP (log entry 84)
    (if g.typ = 3 then decide (2 < g.aux) else !(g.typ = 5 ∧ g.arg / 2 ^ 33 % 2 = 1) && g.aux != 0)

/-- Source die and destination die. -/
def Seg.sdie (g : Seg) : Nat := g.dies % 4
def Seg.ddie (g : Seg) : Nat := g.dies / 4 % 4

/-- Takes the head of the stream that carries segments of type `typ`: an invalid head is dropped (R490); one for
another device or of another type is left. In M1 arrivals are held (R556), but for TIME, by which the tide unit keeps
alignment there (R34; log entry 79); in M2 a kept port delivers only what goes to firmware. -/
def State.take (s : State) (p : PortIx) (typ : Nat) (f : State → Seg → Nat → State) : Res :=
  let v := segVc typ
  match s.headSeg p v with
  | none => .next s
  | some (g, u) =>
    let die := p.val / 16
    if s.fld 0x100000 7 4 = 1 ∧ typ ≠ 6 then .next s
    else if g.invalid v then .next ((s.consume p v u).dropSeg die p.val g 1)
    else if g.dstDev ≠ s.device ∨ g.typ ≠ typ then .next s
    else if s.inM2 ∧ typ ≠ 6 ∧ typ ≠ 7 then .next ((s.consume p v u).dropSeg die p.val g 6)
    else .next (f s g u)

/-- A segment of a connection (R482, R483): dropped from an unknown source, a duplicate or a gap answered, the next
expected one given to `f` with its connection entry. -/
def State.takeConn (s : State) (p : PortIx) (typ : Nat) (f : State → Nat → Nat → Seg → State) : Res :=
  s.take p typ (fun s g u =>
    let d := g.ddie
    let s := s.consume p (segVc typ) u
    match s.connOf d g.srcDev g.sdie with
    | none => s.dropSeg (p.val / 16) p.val g 4
    | some j =>
      let c := s.connAt d j
      let msn := BitVec.ofNat 32 g.msn
      if msn = c.expect then f (s.setConn d j { c with expect := c.expect + 1 }) d j g
      else s.sendAck d j (decide ((msn - c.expect).toNat < 2 ^ 31)))

/-- One more segment performed: acknowledged at every 16th (R484). -/
def State.performed (s : State) (d j : Nat) (ok : Bool) : State :=
  let c := s.connAt d j
  let s := s.setConn d j { c with ackDue := c.ackDue + 1, bad := c.bad || !ok }
  if 16 ≤ c.ackDue + 1 then s.sendAck d j false else s

/-- The end of a message: counted at its queue when every part was performed (R445). -/
def State.endMessage (s : State) (d j : Nat) (g : Seg) : State :=
  if g.flags / 2 % 2 = 0 then s
  else
    let c := s.connAt d j
    let s := if c.bad then s else s.countQueue d g.queue
    s.setConn d j { c with bad := false }

/-- Accepted payload seen by the optical tap of its engine (R524). -/
def State.optTap (s : State) (p : PortIx) (va : Nat) (bs : List Byte) : State :=
  if s.tapsOn then s.tap (p.val / 16) (17 + p.val / 8 % 2) va bs else s

/-! The segment types. -/

/-- SEG_WRITE (R443, R445, R480): payload stored; a chunk of a collective goes to the die's sluices. -/
def execSegWrite (p : PortIx) (s : State) : Res :=
  s.takeConn p 0 (fun s d j g =>
    if g.flags / 4 % 2 = 1 then
      (s.holdChunk (Fin.ofNat 4 d) (collOfSeg g)).performed d j true
    else
      let (s, ok) := s.performWrite d (p.val / 16) g.arg g.data
      ((s.optTap p g.arg g.data).performed d j ok).endMessage d j g)

/-- SEG_READ (R480): the bytes at ARG returned in READ_DATA on the connection. -/
def execSegRead (p : PortIx) (s : State) : Res :=
  s.takeConn p 1 (fun s d j g =>
    let (bs, x) := (s.recvCtx d (p.val / 16)).rd false g.arg g.len
    let (s, ok) := x.received
    let s := s.sendConn d j ⟨2, 3, bs.length, 0, 0, 0, 0, 0, 0, 0, g.msn, 0, []⟩ (.fetch g.arg g.len) none
    s.performed d j ok)

/-- SEG_READ_DATA (R480): bytes for the command that read them; with the last of its bytes the command goes on. -/
def execSegReadData (p : PortIx) (s : State) : Res :=
  s.takeConn p 2 (fun s d j g =>
    let s := s.performed d j true
    let c := s.connAt d j
    match c.reads.find? (fun r => r.msn = g.arg % 2 ^ 32) with
    | none => s
    | some r =>
      let off := g.arg / 2 ^ 32
      let i : SluIx := Fin.ofNat 32 r.owner.1
      let s := if r.owner.1 < 32 then
          s.onRun i r.owner.2 (fun q => { q with
            got := g.data.zipIdx.foldl (fun a (b, k) => assocPut (g.srcDev, g.sdie, r.va + off + k) b a) q.got })
        else s.onBrnKey (r.owner.1 - 32) r.owner.2 (fun q => { q with got := q.got ++ [(r.va + off, g.data)] })
      if g.data.length < r.len then
        s.setConn d j { c with reads := c.reads.map (fun a => if a.msn = r.msn then { a with len := a.len - g.data.length } else a) }
      else
        let s := (s.setConn d j { c with reads := c.reads.filter (fun a => a.msn ≠ r.msn) }).ownerDone r.owner false
        match (if r.owner.1 < 32 then s.runOf i r.owner.2 else none) with
        | none => s
        | some q =>
          if q.out ≠ 0 ∨ q.moved then s
          else
            match q.job, q.coll with
            | .coll cj, some z => if z.ready then s else s.collBegin i q cj
            | _, _ => s.moveRun i q)

/-- SEG_RED (R443, R480): elements added in ascending position, combined by the OP that the segment carries (log entry 84). -/
def execSegRed (p : PortIx) (s : State) : Res :=
  s.takeConn p 3 (fun s d j g =>
    let (s, ok, o) := s.performRed d (p.val / 16) g.arg g.etype (if g.aux = 1 then .min else if g.aux = 2 then .max else .sum) g.data
    let s := if o = 0 then s else s.count (sluBase (2 * d) + 0x520) o
    ((s.optTap p g.arg g.data).performed d j ok).endMessage d j g)

/-- SEG_SEND (R446, R481): ring room is reserved on FIRST; while the ring is full the segment is held, and the stream
behind it. -/
def execSegSend (p : PortIx) (s : State) : Res :=
  let via := p.val / 16
  let mine (s : State) (d : Nat) (g : Seg) : Option SendRes :=
    s.dieSlu[Fin.ofNat 4 d].res.find? (fun z => z.dev = g.srcDev ∧ z.die = g.sdie ∧ z.queue = g.queue ∧ !z.done)
  let put (s : State) (d j : Nat) (g : Seg) : State :=
    match mine s d g with
    | none =>
      let s := s.performed d j false
      if g.flags / 2 % 2 = 1 then s.setConn d j { s.connAt d j with bad := false } else s
    | some z =>
      let (s, ok) := s.sendBytes d via g.queue z.start (g.arg / 2 ^ 32) g.data
      let s := (s.optTap p (z.start + g.arg / 2 ^ 32) g.data).performed d j ok
      if g.flags / 2 % 2 = 1 then
        let c := s.connAt d j
        (s.sendDone d via g.queue z.dev z.die z.start (!c.bad)).setConn d j { c with bad := false }
      else s
  match s.headSeg p 0 with
  | some (g, _) =>
    let d := g.ddie
    if g.typ = 4 ∧ g.dstDev = s.device ∧ g.flags % 2 = 1 ∧ !g.invalid 0 ∧ s.fld 0x100000 7 4 ≠ 1 ∧ !s.inM2 then
      -- room first: a full ring holds the segment at the head of its stream
      match s.connOf d g.srcDev g.sdie with
      | none => s.takeConn p 4 put
      | some j =>
        if BitVec.ofNat 32 g.msn ≠ (s.connAt d j).expect then s.takeConn p 4 put
        else
          match s.reserve d via g.queue g.srcDev g.sdie (g.arg % 2 ^ 32) with
          | (.full, s') => .next s'
          | (_, s') => s'.takeConn p 4 put
    else s.takeConn p 4 put
  | none => .next s

/-- SEG_ACK (R484 to R486): the segments up to the MSN are done, those listed in `failed` without all their bytes
performed (R444); NAK sends the rest again; a STATUS acknowledgement ends the resending of that STATUS. -/
def execSegAck (p : PortIx) (failed : List (BitVec 32)) (s : State) : Res :=
  s.take p 5 (fun s g u =>
    let s := s.consume p 1 u
    let d := g.ddie
    if g.arg / 2 ^ 33 % 2 = 1 then
      { s with link := { s.link with
          statusOut := s.link.statusOut.filter (fun o =>
            !(o.dev == g.srcDev && o.step.toNat == g.aux && o.job % 2 ^ 32 == g.arg % 2 ^ 32)) } }
    else
      match s.connOf d g.srcDev g.sdie with
      | none => s
      | some j =>
        let s := s.acked d j (g.arg % 2 ^ 32) (failed.map BitVec.toNat)
        if g.arg / 2 ^ 32 % 2 = 1 then s.resend d j else s)

/-- SEG_CTRL (R480): delivered to firmware on the destination die. -/
def execSegCtrl (p : PortIx) (s : State) : Res :=
  s.take p 7 (fun s g u =>
    let s := s.consume p 2 u
    { s with link := { s.link with toFw := s.link.toFw ++ [(g.ddie, g.data)] } })

/-- SEGMENT_FORWARD (R487 to R490): a segment for another device goes out on its route, with one more hop, or is
dropped. -/
def execSegmentForward (p : PortIx) (v : Fin 4) (s : State) : Res :=
  match s.headSeg p v with
  | none => .next s
  | some (g, u) =>
    let die := p.val / 16
    if g.dstDev = s.device then .next s
    else
      let s := s.consume p v u
      if g.invalid v then .next (s.dropSeg die p.val g 1)
      else if 15 ≤ g.hops then .next (s.dropSeg die p.val g 2)
      else
        match s.route g.dstDev with
        | none => .next (s.dropSeg die p.val g 3)
        | some q =>
          if s.inM2 ∧ !(s.keptPort q && q.val / 8 == p.val / 8) then .next (s.dropSeg die p.val g 6)
          else
            let s := (s.sendOn q { g with hops := g.hops + 1 }).count (linkCtr q 0x40) ((u + 7) / 8)
            if s.link.port[q].tx[v].isEmpty then .next s
            else .next (s.onPort q (fun z => { z with stalled := z.stalled ++ [(v.val, g.dstDev, s.tide.num, false)] }))

/-- SEGMENT_RETX_TIMEOUT (R485). -/
def execSegmentRetxTimeout (d : DieIx) (j : Fin 2048) (s : State) : Res := .next (s.resend d.val j.val)

/-- ACK_TIMER (R484): what has been performed and not acknowledged is. -/
def execAckTimer (d : DieIx) (j : Fin 2048) (s : State) : Res :=
  if (s.connAt d.val j.val).ackDue = 0 then .next s else .next (s.sendAck d.val j.val false)

/-- A STATUS message sent (R440, R480). -/
def State.sendStatus (s : State) (o : StatusOut) : State :=
  s.sendSeg s.primary ⟨8, 3, 16, s.device, o.dev, s.primary, 0, 0, 0, 0, 0, 0,
    leBytes 8 o.step.toNat ++ leBytes 1 (b2n o.ovf + 2 * b2n o.skip) ++ leBytes 7 o.job⟩

/-- STATUS_RESEND (R486): every STATUS without its acknowledgement is sent again. -/
def execStatusResend (s : State) : Res := .next (s.link.statusOut.foldl State.sendStatus s)

/-! Ethernet (R499 to R502). -/

/-- ETH_STATUS of a port. -/
def ethReg (p : Nat) : Nat := optBase 0 + 0xC000 + 0x40 * p

def ethCtr (p off : Nat) : Nat := optBase 0 + 0xD000 + off + 0x40 * p

/-- A queue pair enters the error state (R502): its pending reads fail, event 0x170D; it stays until firmware opens it
again. -/
def State.qpError (s : State) (q : Nat) (syn : Nat) : State :=
  let z := s.qpAt q
  match z.port with
  | none => s
  | some p =>
    if z.error then s
    else
      let (mine, rest) := s.link.qpReads.partition (fun r => r.qp = q)
      let s := mine.foldl (fun (s : State) (r : QpRead) => s.ownerDone r.owner true)
        { s with link := { s.link with qpReads := rest } }
      (s.setQp q { z with error := true }).raise (s.optSrc (p / 8)) 0x170D (pack [(q, 0), (p, 8), (syn, 16)])

/-- QP_ERROR (R502). -/
def execQpError (q : Fin 256) (syndrome : BitVec 8) (s : State) : Res := .next (s.qpError q.val syndrome.toNat)

/-- ETH_LINK_UP (R499): the PCS and FEC are aligned, event 0x170C. -/
def execEthLinkUp (p : Fin 8) (s : State) : Res :=
  let port : PortIx := Fin.ofNat 64 p.val
  if s.portState port = 6 ∧ s.fld (ethReg p.val) 0 0 = 0 then
    .next ((s.setFld (ethReg p.val) 1 0 3).raise (s.portSrc port) 0x170C (pack [(p.val, 0), (1, 3)]))
  else .next s

/-- ETH_LINK_FAULT (R499): a lane fault takes the port down, event 0x170C. -/
def execEthLinkFault (p : Fin 8) (s : State) : Res :=
  let port : PortIx := Fin.ofNat 64 p.val
  if s.fld (ethReg p.val) 0 0 = 1 then
    .next ((s.setFld (ethReg p.val) 1 0 0).raise (s.portSrc port) 0x170C (pack [(p.val, 0)]))
  else .next s

/-- The open queue pair a frame of a port names. -/
def State.openQp (s : State) (p q : Nat) : Bool := (s.qpAt q).port == some p && !(s.qpAt q).error

/-- Bytes of an RDMA READ response: of the oldest read that the pair awaits. A read that has all its bytes is done. -/
def State.readBytes (s : State) (q : Nat) (data : List Byte) : State :=
  match s.link.qpReads.find? (fun r => r.qp = q) with
  | none => s
  | some r =>
    let r' := { r with got := (r.got ++ data).take r.len }
    let put (l : List QpRead) : State := { s with link := { s.link with qpReads := l } }
    if r'.got.length < r.len then put (s.link.qpReads.map (fun e => if e = r then r' else e))
    else ((put (s.link.qpReads.erase r)).onBrnKey (r.owner.1 - 32) r.owner.2 (fun i =>
      { i with got := [(0, r'.got)] })).ownerDone r.owner false

/-- ETH_FRAME_RECEIVE (R501, R502): RoCE to its queue pair, management and discovery to firmware, an incoming RDMA
request answered with a NAK and not performed, every other frame dropped and counted. -/
def execEthFrameReceive (p : Fin 8) (f : EthFrame) (s : State) : Res :=
  if s.fld (ethReg p.val) 0 0 = 0 then .next s
  else
    let s := s.count (ethCtr p.val 0) 1
    let drop := s.count (ethCtr p.val 0x20) 1
    let toFw (data : List Byte) : State := { s with link := { s.link with toFw := s.link.toFw ++ [(0, data)] } }
    match f with
    | .firmware data => .next (toFw data)
    | .rdmaReadRequest q => .next (if s.openQp p.val q.val then s else drop)
    | .rdmaWrite q => .next (if s.openQp p.val q.val then s else drop)
    | .send q data => .next (if s.openQp p.val q.val then toFw data else drop)
    | .readResponse q data => .next (if s.openQp p.val q.val then s.readBytes q.val data else drop)
    | .ack q => .next (if s.openQp p.val q.val then s else drop)
    | .nak q syn => .next (if s.openQp p.val q.val then s.qpError q.val syn.toNat else drop)
    | .cnp q =>
      if s.openQp p.val q.val then
        let z := s.qpAt q.val
        let cnp := (s.reg (ethReg p.val + 0x10)).getLsbD 0
        .next (if cnp then s.setQp q.val { z with rate := max 1 (z.rate / 2) } else s)
      else .next drop
    | .other => .next drop

end Sys2Proof.Machine
end

