-- ==== Sys2Proof/Machine/Gate.lean ====
section
/-! DEFINITION. The commit gate (R198 to R205): gate slots, SEALs, local and job status, the decision at an edge. -/

namespace Sys2Proof.Machine

/-! Slots (R198). -/

/-- Changes the slot of a step. -/
def State.onGate (s : State) (p : Nat) (step : BitVec 64) (f : GateSlot → GateSlot) : State :=
  { s with gate := { s.gate with slots := s.gate.slots.map (fun g => if g.part = p ∧ g.step = step then f g else g) } }

/-- A fresh slot, with the statuses that arrived before it. -/
def GateSlot.new (p : Nat) (step : BitVec 64) (got : List (Nat × Bool × Bool)) : GateSlot :=
  ⟨p, step, none, false, none, got, none, none, [], false⟩

/-- The slot of a step, taken when it has none: a free one, or the oldest decided one, which raises the horizon. None
while 8 slots of the partition hold undecided steps. -/
def State.takeSlot (s : State) (p : Nat) (step : BitVec 64) : Option State :=
  if (s.gateSlot p step).isSome then some s
  else
    let mine := s.gate.slots.filter (fun g => g.part = p)
    let got := (s.gate.early.filter (fun e => e.1 = p ∧ e.2.1 = step)).map (fun e => e.2.2)
    let early := s.gate.early.filter (fun e => !(e.1 = p ∧ e.2.1 = step))
    let new := GateSlot.new p step got
    if mine.length < 8 then some { s with gate := { s.gate with slots := s.gate.slots ++ [new], early := early } }
    else
      let decided := (mine.filter (fun g => g.outcome.isSome)).map (fun g => g.step.toNat)
      match decided with
      | [] => none
      | a :: l =>
        let old := l.foldl min a
        let i : Fin 4 := Fin.ofNat 4 p
        let h := max ((s.gate.horizon[i]).getD 0).toNat old
        some { s with gate := { s.gate with
          slots := s.gate.slots.map (fun g => if g.part = p ∧ g.step.toNat = old then new else g)
          early := early
          horizon := s.gate.horizon.set i (some (BitVec.ofNat 64 h)) } }

/-! Local and job status (R199, R200). -/

/-- The job status becomes final when every module of the manifest has sent its own (R200). -/
def State.jobStatus (s : State) (p : Nat) (step : BitVec 64) : State :=
  match s.gateSlot p step with
  | none => s
  | some g =>
    let others := ((s.job[Fin.ofNat 4 p].map (fun (j : JobSt) => j.devs)).getD []).filter (fun d => d ≠ s.device)
    match g.localSt, g.job with
    | some (o, k), none =>
      let from_ := others.filterMap (fun d => assoc d g.got)
      if from_.length < others.length then s
      else s.onGate p step (fun g => { g with job := some (o || from_.any (·.1), k || from_.any (·.2)) })
    | _, _ => s

/-- A pass of a step that is suspect on the module, or a held unit of it (R199, R515). -/
def State.suspectStep (s : State) (p : Nat) (step : BitVec 64) : Bool :=
  let mine (c : CoreIx) (t : BitVec 64) : Bool := t == step && s.partNum (c.val / 32) == p
  s.int.recs.toList.any (fun l => l.any (fun r => r.cmds.any (fun c => mine c.core c.step)))
    || s.pan.toList.any (fun q => q.held.any (fun r => r.cmds.any (fun c => mine c.core c.step)))
    || s.int.held.contains (p, step)

/-- Granules of a step dispatched and not complete: the clusters that run one (R199). -/
def State.granulesOf (s : State) (p : Nat) (step : BitVec 64) : Nat :=
  (s.disp.toList.zipIdx.filter (fun (d, c) =>
    s.partOfDie (c / 2) == some p && (match d.running with
      | some g => g.step == step
      | none => false))).length

/-- LOCAL_STATUS_FINAL (R199, R200): slot `i` of partition `p`, sealed, with nothing of its step in progress. -/
def execLocalStatusFinal (p : Fin 4) (i : Fin 8) (s : State) : Res :=
  match (s.gate.slots.filter (fun g => g.part = p.val))[i.val]? with
  | none => .next s
  | some g =>
    if g.sealed.isNone || g.localSt.isSome || s.granulesOf p.val g.step != 0 || s.suspectStep p.val g.step
        || s.gate.killed.contains (p.val, g.step) then .next s
    else
      let ovf := s.gate.ovf.contains (p.val, g.step)
      let s := s.onGate p.val g.step (fun g => { g with localSt := some (ovf, g.skipReq) })
      let job := (s.job[p].map (fun (j : JobSt) => (j.id.toNat % 2 ^ 56, j.devs))).getD (0, [])
      let outs : List StatusOut := (job.2.filter (fun d => d ≠ s.device)).map (fun d => ⟨p.val, g.step, job.1, d, ovf, g.skipReq⟩)
      let s : State := { s with link := { s.link with statusOut := s.link.statusOut ++ outs } }
      .next ((outs.foldl State.sendStatus s).jobStatus p.val g.step)

/-- A status of another module for a partition's step: the first one counts (R440). -/
def State.statusIn (s : State) (p : Nat) (step : BitVec 64) (dev : Nat) (o k : Bool) : State :=
  match s.gateSlot p step with
  | some g =>
    if (assoc dev g.got).isSome then s
    else (s.onGate p step (fun g => { g with got := g.got ++ [(dev, o, k)] })).jobStatus p step
  | none =>
    if s.givenUp p step ∨ s.gate.early.any (fun e => e.1 = p ∧ e.2.1 = step ∧ e.2.2.1 = dev) then s
    else { s with gate := { s.gate with early := s.gate.early ++ [(p, step, dev, o, k)] } }

/-- SEG_STATUS (R440, R486): taken by the partition whose job has the message's JOB_ID and lists the sender, and
acknowledged; one that matches no partition is ignored. -/
def execSegStatus (p : PortIx) (s : State) : Res :=
  s.take p 8 (fun s g u =>
    let s := s.consume p 3 u
    match s.connOf g.ddie g.srcDev g.sdie with
    | none => s.dropSeg (p.val / 16) p.val g 4
    | some _ =>
      let step := BitVec.ofNat 64 (recNat g.data 0 8)
      let job := recNat g.data 9 7
      let fl := recNat g.data 8 1
      let hit (q : Nat) : Bool := (s.job[Fin.ofNat 4 q]).any (fun (j : JobSt) => j.id.toNat % 2 ^ 56 == job && j.devs.contains g.srcDev)
      match (List.range 4).find? hit with
      | none => s
      | some q =>
        (s.statusIn q step g.srcDev (fl % 2 == 1) (fl / 2 % 2 == 1)).sendSeg g.ddie
          (s.plainSeg 5 g.ddie g.srcDev g.sdie (job % 2 ^ 32 + 2 ^ 33) step.toNat []))

/-! The decision (R201, R205). -/

/-- One slot decided at an edge. -/
def State.decideSlot (s : State) (g : GateSlot) : State :=
  match g.job, g.outcome with
  | some (o, k), none =>
    let skip := o || k
    let s := s.onGate g.part g.step (fun g => { g with outcome := some (!skip), waiting := [] })
    let s := if skip then
        s.raiseMod 8 0x1403 (pack [(bitsOf g.step 47 0, 16), (b2n k, 1), (b2n o, 0)]) g.part
      else s
    g.waiting.foldl (fun s c => s.finish c false) s
  | _, _ => s

/-- Action 5 of an edge: every step whose job status is final is decided. -/
def State.decideGate (s : State) : State := s.gate.slots.foldl State.decideSlot s

/-- HOLD_WARN_REACHED (R204): slot `i` of partition `p` still waits HOLD_WARN edges after its first SEAL. -/
def execHoldWarnReached (p : Fin 4) (i : Fin 8) (s : State) : Res :=
  match (s.gate.slots.filter (fun g => g.part = p.val))[i.val]? with
  | none => .next s
  | some g =>
    let w := s.fld (xtlBase 0 + 0x800) 31 0
    match g.sealed with
    | none => .next s
    | some n =>
      if w = 0 ∨ g.warned ∨ g.job.isSome ∨ s.tide.num.toNat < n.toNat + w then .next s
      else
        .next ((s.onGate p.val g.step (fun g => { g with warned := true })).raiseMod 8 0x1404
          (pack [(bitsOf g.step 47 0, 16), (p.val, 0)]) p.val)

/-! SEALs (R198, R199, R248). -/

/-- Offset of a cluster's dispatch registers. -/
def dispReg (c off : Nat) : Nat := clusterBase c + 0x110000 + off

/-- Descriptors in a cluster's ring that are not dispatched: the 32 bytes of each, in the sequencer's local memory
(R250, R251). -/
def State.ringEntries (s : State) (c : ClusterIx) : List (Nat × List Byte) :=
  let ptr := dispReg c.val 0x10
  let head := s.fld ptr 13 8
  let tail := s.fld ptr 5 0
  match s.sequencer c with
  | none => []
  | some q =>
    (List.range ((tail + 64 - head) % 64)).map (fun k =>
      let a := (s.reg (dispReg c.val 8)).toNat + 32 * ((head + k) % 64)
      (a, s.core[q].localBytes a 32))

/-- A step that some ring of the partition still holds undispatched (R248). -/
def State.stepQueued (s : State) (p : Nat) (step : BitVec 64) : Bool :=
  (List.finRange 8).any (fun c => s.partOfDie (c.val / 2) == some p &&
    (s.ringEntries c).any (fun (_, b) => recNat b 0 8 == step.toNat))

/-- Event 0x1402 (R212). -/
def bad1402 (cause core x slot : Nat) (logical : Bool) : Bad :=
  (0x1402, pack [(cause, 0), (core, 8), (x, 16), (b2n logical, 19), (slot, 24)])

/-- SEAL_DRAIN (R248, R198, R199): the SEAL at the head of the core's crystallizer buffer is accepted, refused when its
step is given up, or stays. A SEAL names no crystallizer, and event 0x1402 of its refusal carries 0 in the crystallizer field
(DESIGN CHOICE, log entry 101). -/
def execSealDrain (c : CoreIx) (s : State) : Res :=
  match s.core[c].bufXtl with
  | [] => .next s
  | cmd :: l =>
    match cmd.op with
    | .xtlSeal skip =>
      let p := s.partNum (c.val / 32)
      let step := cmd.sval
      let s' := s.onCore c (fun k => { k with bufXtl := l })
      if !s.clocked || s.stepQueued p step then .next s
      else if s.givenUp p step then .next (s'.refuseRaise (s.modSrc 8 p) cmd (bad1402 4 c.val 0 0 false))
      else
        match s'.takeSlot p step with
        | none => .next s
        | some s'' =>
          match s''.gateSlot p step with
          | none => .next s
          | some g =>
            let s3 := s''.onGate p step (fun g => { g with
              sealed := some (g.sealed.getD s.tide.num)
              skipReq := g.skipReq || (skip && g.localSt.isNone)
              waiting := if g.outcome.isSome then g.waiting else g.waiting ++ [cmd] })
            if g.outcome.isSome then .next (s3.finish cmd false) else .next s3
    | _ => .next s

end Sys2Proof.Machine
end

