-- ==== Sys2Proof/Machine/Tide.lean ====
section
/-! DEFINITION. The tide edge and what falls with it (02_tide.md, R249 to R254, R534, R549, R552, R594), and PPS. -/

namespace Sys2Proof.Machine

/-! Action 1: the tide number (R30, R31, R35, R36, R41). -/

/-- Tides in a second (R39). -/
def State.tidesPerSecond (s : State) : Nat := 1000000 / s.periodUs

/-- The least whole multiple of the tides per second that is not less than `n` (R41). -/
def State.wholeSecond (s : State) (n : Nat) : Nat := (n + s.tidesPerSecond - 1) / s.tidesPerSecond * s.tidesPerSecond

/-- Event 0x0108 of a PPS step with its phase and the advance of the number. -/
def State.ppsEvent (s : State) (phase : Int) (advance : Nat) : State :=
  s.raiseMod 0 0x108 (pack [((phase % 2 ^ 32).toNat, 0), (low 32 advance, 32)])

/-- What slewing takes from the tide that begins: at most 2 ns (R35), in 1/16 ns. -/
def slewNow (e : Int) : Int := max (-32) (min 32 e)

/-- What a step takes from the tide that begins, in 1/16 ns: a follower's phase (R36), or a PPS phase (R41). -/
def TideSt.stepCut (t : TideSt) : Int :=
  match t.step, t.ppsPhase with
  | some (phi, _, _), _ => phi
  | none, some e => 16 * e
  | none, none => 0

/-- A PPS step sets the number of the edge that would carry `n` (R41): event 0x0108, and PPS_LOCK. -/
def State.ppsNumber (s : State) (phase : Int) (n : Nat) : State :=
  let m := s.wholeSecond n
  ((({ s with tide := { s.tide with
    num := BitVec.ofNat 64 m
    ppsSet := false
    ppsAwait := none } } : State).ppsEvent phase (m - n)).setFld 0x1020 7 7 1)

/-- The edge begins a tide: its number, offset 0, and its length. A step was decided in an earlier tide: it takes its phase
from the tide that begins now, and the number adopted is that of the edge that ends this tide. -/
def State.newTide (s : State) : State :=
  let t := s.tide
  let n := t.num + 1
  let cut := slewNow t.slew
  let t := { t with
    ns := 0
    adj := -cut - t.stepCut
    slew := t.slew - cut
    step := none
    stepping := t.step.map (fun (q : Int × BitVec 64 × BitVec 32) => q.2)
    ppsPhase := none }
  match s.tide.stepping with
  | some (m, off) =>
    ({ s with tide := { t with num := m } } : State).raiseMod 0 0x104 (pack [(off.toNat, 0), (s.fld 0x1020 63 48, 48)])
  | none =>
    match t.ppsSet, t.ppsAwait with
    | true, some phase =>
      if s.fld 0x1030 0 0 = 1 then { s with tide := { t with num := n, ppsSet := false, ppsAwait := none } }
      else ({ s with tide := t } : State).ppsNumber phase n.toNat
    | _, _ => { s with tide := { t with num := n } }

/-! Action 3: RWT writes (R13), and the retention area (R170, R173). -/

/-- Ways of a cluster's slice whose fence has not taken effect. -/
def State.healthyWays (s : State) (c : Nat) : Nat := 32 - popcount 32 (s.int.ways[Fin.ofNat 8 c]).toNat

/-- The size a SIZE of RET_CTL has in effect. -/
def State.retWays (s : State) (c size : Nat) : Nat := min (min 16 size) (s.healthyWays c - 16)

/-- Unmaps the leaf entries of KIND 2 that name addresses in [a, b). -/
def State.unmapFrom (a b : Nat) : Nat → Nat → Nat → State → State
  | 0, _, _, s => s
  | fuel + 1, l, table, s =>
    (List.range (levelShift l).2).foldl (fun s i =>
      let ea := table + 8 * i
      if (s.region ea).isNone then s
      else
        let e := s.entryAt ea
        let addr := e / 256 % 2 ^ 40 * 256
        if e % 2 = 0 then s
        else if e / 2 % 2 = 1 then
          if e / 64 % 4 = 2 ∧ a ≤ addr ∧ addr < b then s.store ea (leBytes 8 0) else s
        else if fuel = 0 then s
        else State.unmapFrom a b fuel (l + 1) addr s) s

/-- A cluster's area takes a size (R173): new ways hold unspecified values; ways released are lost to it and their pages
unmapped. -/
def State.setRet (s : State) (c size : Nat) : State :=
  let off := clusterBase c + 0x80100
  let old := s.fld off 4 0
  let n := s.retWays c size
  let s := s.setFld off 4 0 n
  let base := 0x60000000000 + c * 2 ^ 27
  if old = n then s
  else if old < n then s.loseBytes (base + old * 2 ^ 22) (base + n * 2 ^ 22)
  else
    let lo := base + n * 2 ^ 22
    let hi := base + old * 2 ^ 22
    let s := s.loseBytes lo hi
    match s.partOfDie (c / 2) with
    | none => s
    | some p =>
      let b := s.reg (0x300120 + 8 * p)
      if b.getLsbD 0 then State.unmapFrom lo hi 4 0 (bitsOf b 47 16 * 65536) s else s

/-- The writable-at-a-tide bits of a register. -/
def rwtMask (off : Nat) : BitVec 64 :=
  match slotOf off with
  | some (.reg d _ _ _) => d.rwt
  | _ => 0

/-- A job's follower sets MASTER_ID and mode FOLLOW once its period has taken effect (R37). -/
def State.takeJoin (s : State) : State :=
  match s.tide.join with
  | none => s
  | some m => { (s.setFld 0x1020 63 48 m.toNat).setFld 0x1020 1 0 2 with tide := { s.tide with join := none } }

/-- RWT writes accepted in the last window take effect; then a follower joins. -/
def State.takeStaged (s : State) : State :=
  let s' := s.staged.foldl (fun (s : State) (q : Nat × BitVec 64) =>
    let m := rwtMask q.1
    let v := (s.reg q.1 &&& ~~~m) ||| (q.2 &&& m)
    if q.1 % 0x400000 = 0x80100 ∧ 0x1000000 ≤ q.1 ∧ q.1 < 0x5000000 then
      s.setRet ((q.1 - 0x1000000) / 0x1000000 * 2 + q.1 % 0x1000000 / 0x400000) (bitsOf v 4 0)
    else s.setReg q.1 v) s
  ({ s' with staged := [] } : State).takeJoin

/-! Action 6: overruns and dispatch (R42 to R44, R252). -/

/-- A granule still running at an edge. -/
def State.overrunEdge (s : State) (c : ClusterIx) (g : Granule) : State :=
  let s := s.count (0x1180 + 0x10 * c.val) 1
  let s := s.onDisp c (fun d => { d with running := some { g with overran := true }, overrun := true })
  if g.overran then s
  else
    (s.count (0x1100 + 0x10 * c.val) 1).raise (s.dispSrc c.val) 0x102 (pack [(c.val, 0), (bitsOf g.tide 47 0, 16)])

/-- Why a head descriptor is held, as event 0x1113 codes it; 0 when it is not. -/
def State.holdReason (s : State) (c : ClusterIx) (b : List Byte) : Nat :=
  let mask := recNat b 24 2
  let entry := recNat b 8 8
  let seq := s.fld (dispReg c.val 0) 35 32
  if mask = 0 then 1
  else if mask / 2 ^ seq % 2 = 1 then 2
  else if 2 ^ s.disp[c].avail ≤ mask then 3
  else if entry % 8 ≠ 0 ∨ 2 ^ 56 ≤ entry ∨ recNat b 27 1 ≠ 0 then 4
  else 0

/-- A core begins a granule. -/
def CoreSt.begin (k : CoreSt) (entry arg : BitVec 64) (logical : Nat) : CoreSt :=
  let k := { k with tok := k.tok.map (fun (t : Token) => { t with err := false }) }
  let k := (k.sput 1 arg).sput 2 (BitVec.ofNat 64 logical)
  { k with pc := entry, mode := .running, stall := none, wait := none }

/-- A granule of a step whose local status was sent (R203): event 0x140A once for the step. -/
def State.lateWork (s : State) (c : ClusterIx) (step : BitVec 64) : State :=
  let p := s.partNum (c.val / 2)
  if step = BitVec.allOnes 64 ∨ !s.stepSent p step ∨ s.gate.late.contains (p, step) then s
  else
    ({ s with gate := { s.gate with late := s.gate.late ++ [(p, step)] } } : State).raiseMod 8 0x140A
      (pack [(bitsOf step 47 0, 16), (c.val, 0)]) p

/-- The head granule starts on its cores. -/
def State.startGranule (s : State) (c : ClusterIx) (addr : Nat) (b : List Byte) : State :=
  let step := BitVec.ofNat 64 (recNat b 0 8)
  let entry := BitVec.ofNat 64 (recNat b 8 8)
  let arg := BitVec.ofNat 64 (recNat b 16 8)
  let mask := recNat b 24 2
  let who := (List.range 16).filter (fun i => mask / 2 ^ i % 2 = 1)
  let cores := who.filterMap (fun i => s.physOf c i)
  let s := who.foldl (fun s i => match s.physOf c i with
    | some k => s.onCore k (fun q => q.begin entry arg i)
    | none => s) s
  let ptr := dispReg c.val 0x10
  let s := (s.setFld ptr 13 8 ((s.fld ptr 13 8 + 1) % 64)).count (dispReg c.val 0x400) 1
  let s := s.onDisp c (fun d => { d with
    running := some ⟨addr, step, arg, entry, cores, s.tide.num, false, false⟩
    blocked := false
    heldRaised := false
    overrun := false
    bars := [] })
  s.lateWork c step

/-- The head of a ring at an edge with no granule running: it starts, or is held (R252). -/
def State.dispatchHead (s : State) (c : ClusterIx) : State :=
  match s.ringEntries c with
  | [] => s.onDisp c (fun d => { d with blocked := false, heldRaised := false })
  | (addr, b) :: _ =>
    match s.holdReason c b with
    | 0 => s.startGranule c addr b
    | r =>
      let s := s.count (dispReg c.val 0x420) 1
      let s := if s.disp[c].heldRaised then s
        else s.raise (s.dispSrc c.val) 0x1113 (pack [(r, 0), (c.val, 8), (recNat b 0 6, 16)])
      s.onDisp c (fun d => { d with blocked := true, heldRaised := true })

/-- Action 6 for one cluster. An empty ring counts at every edge, a granule running or not (R252). A granule that runs has
overrun whatever state is being entered (R44); dispatch stops outside M0 (R554, R555). -/
def State.dispatch (s : State) (c : ClusterIx) : State :=
  let s := if (s.ringEntries c).isEmpty then s.count (dispReg c.val 0x410) 1 else s
  match s.disp[c].running with
  | some g => s.overrunEdge c g
  | none => if s.fld 0x100000 7 4 = 0 then s.dispatchHead c else s

/-! The edge (R45). -/

/-- The tide unit runs: not while the module is off, in reset or tripped, nor without REFCLK (R608, R616). -/
def State.tideRuns (s : State) : Bool := s.powered || s.board.phase == .recovery

/-- An armed cap schedule's run of R553's sharing: a job beside which another partition holds one. -/
def State.noteSharing (s : State) : State :=
  let busy := (s.job.toList.filter (fun (j : Option JobSt) => j.isSome)).length
  if busy ≤ 1 then s
  else { s with job := s.job.map (fun (j : Option JobSt) => j.map (fun (q : JobSt) => { q with shared := true })) }

/-- Every core's waits are looked at again: the tide number or the clocks have changed (R286, R628). -/
def State.settleAll (s : State) : State :=
  if s.clocked then (List.finRange 128).foldl (fun s c => s.settle c) s else s

/-- The compute domains have power: not in M2, nor while the exit of M2 or M3 is under way (R554, R558). -/
def State.domainsRun (s : State) : Bool := s.powered && !s.domainsOff && s.pwr.leaving != some 3

/-- TIDE_EDGE: the actions of R45 in their order. The snapshot and the energy marks of action 2, and the cap schedule
of action 3, are steps of their own: the counters they latch are kept in `edgeCtr`, and action 4 uses a schedule that is
due. In M3 only the number counts (R34). Actions 5 to 7 need the compute domains, which are off in M2 and until the exit of
M2 or M3 ends; in M1 and while a state is entered or left they are done, but nothing is dispatched. -/
def execTideEdge (e : EdgeEnv) (s : State) : Res :=
  .next (
    if !s.tideRuns then s
    else
      let st := s.fld 0x100000 7 4
      let s := if st = 3 then s else (s.addEnergy e.meas.toNat).count 0x100510 e.wait.toNat
      let s := s.newTide
      let s := s.onPwr (fun p => { p with exitEdge := p.exitEdge || p.leaving.isSome })
      if st = 3 then s
      else
        let s := { s with
          edgeCtr := s.ctr
          board := { s.board with vin := e.vin.toNat, watts := e.meas.toNat / 1000 }
          int := { s.int with flaws := e.flaws } }
        let s := s.takeStaged
        let s := s.arbitrate e
        let s := s.noteSharing
        if s.domainsRun then
          let s := s.decideGate
          let s := (List.finRange 8).foldl (fun s c => s.dispatch c) s
          s.stackerEdge.settleAll
        else s)

/-! Steps that an edge makes due. -/

/-- SNAPSHOT_TAKEN (R49, R628): every counter's value at action 2 goes to its shadow; that of an open counter (log
entry 60) becomes known when it is read. -/
def execSnapshotTaken (s : State) : Res :=
  .next (if s.fld 0x1048 0 0 = 1 ∧ (s.reg 0x1040).toNat ≤ s.tide.num.toNat then
      (({ s with shadow := s.edgeCtr, tide := { s.tide with snapSeen := some [] } } : State).setReg 0x1010 s.tide.num).setReg 0x1048
        (setBits (setBits (s.reg 0x1048) 0 0 0) 1 1 1)
    else s)

/-- CAP_SCHEDULE_APPLY (R534). -/
def execCapScheduleApply (s : State) : Res :=
  .next (if s.capDue then (s.setFld 0x100010 8 0 (s.fld 0x100018 8 0)).setFld 0x100000 3 3 0 else s)

/-- BAL_SLACK_LATCH (R549): at an edge whose number is a multiple of 100. -/
def execBalSlackLatch (s : State) : Res :=
  .next (if s.tide.num.toNat % 100 ≠ 0 ∨ s.pwr.waitTide = s.tide.num then s
    else
      let now := mapGet zero64 s.edgeCtr 0x100510
      (s.setReg 0x100190 (pack [(low 32 (now - s.pwr.waitBase).toNat, 0), (low 32 s.tide.num.toNat, 32)])).onPwr
        (fun p => { p with waitBase := now, waitTide := s.tide.num }))

/-- A write of SNAP_REQ (R49 to R51). -/
def State.snapWrite (s : State) (t : BitVec 64) : State :=
  if t.toNat ≤ s.tide.num.toNat then (s.setFld 0x1048 2 2 1).raiseMod 0 0x106 t
  else (s.setReg 0x1040 t).setFld 0x1048 0 0 1

def execSnapReqWrite (t : BitVec 64) (s : State) : Res := .next (s.snapWrite t)

/-- METRICS_SNAPSHOT_ARM (R594): the metrics service writes SNAP_REQ. -/
def execMetricsSnapshotArm (t : BitVec 64) (s : State) : Res := .next (s.snapWrite t)

/-- A write of TIDE_PERIOD (R33): RWT, refused under JOB_LOCK. -/
def State.periodWrite (s : State) (v : BitVec 64) : State :=
  if s.fld 0x1030 0 0 = 1 then s.raiseMod 0 0x107 (pack [(bitsOf v 1 0, 0)])
  else { s with staged := assocPut 0x1000 (v &&& 3) s.staged }

def execTidePeriodWrite (v : BitVec 64) (s : State) : Res := .next (s.periodWrite v)

/-! PPS (R39 to R41, R617). -/

/-- The module disciplines its clock to PPS_IN: PPS_EN, mode MASTER or FREE, and the pin sensed (R608). R608 names the states M0 to
M3 alone: an edge while STATE reads ENTERING or EXITING is not sensed (DESIGN CHOICE, log entry 75). -/
def State.ppsOn (s : State) : Bool :=
  s.board.phase == .run && s.fld 0x1020 2 2 == 1 && s.fld 0x1020 1 0 != 2 && decide (s.fld 0x100000 7 4 ≤ 2)

/-- PPS_EDGE: an accepted edge with its phase error in ns, positive when the nearest tide edge is late. While JOB_LOCK is 1
the phase is slewed only. A PPS edge falls on a tide edge when their distance is within the 25 ns of PPS_LOCK (DEDUCED, log
entry 30). -/
def execPpsEdge (err : BitVec 32) (s : State) : Res :=
  let e := err.toInt
  let nearest := if 0 < e then s.tide.num.toNat + 1 else s.tide.num.toNat
  let whole := decide (nearest % s.tidesPerSecond = 0)
  let close := decide (-25 ≤ e ∧ e ≤ 25)
  let far := decide (e < -1000 ∨ 1000 < e)
  .next (
    if !s.ppsOn then s
    else
      let s := { s with tide := { s.tide with ppsLast := s.tide.num } }
      let slewed : State := { s with tide := { s.tide with slew := 16 * e } }
      let step : State := { s with tide := { s.tide with slew := 0, ppsPhase := some e, ppsAwait := some e, ppsSet := false } }
      let plain (s : State) : State := s.setFld 0x1020 7 7 (b2n (close && whole))
      if s.fld 0x1030 0 0 = 1 then
        plain { slewed with tide := { slewed.tide with ppsPhase := none, ppsAwait := none, ppsSet := false } }
      else
        match s.tide.ppsAwait with
        | some phase =>
          if far then step
          else if !close then slewed
          else if 0 < e then { slewed with tide := { slewed.tide with ppsSet := true } }
          else (slewed.ppsNumber phase nearest).settleAll
        | none => if s.fld 0x1020 7 7 = 0 ∧ (far || !whole) = true then step else plain slewed)

/-- PPS_ABSENT: no edge for 2 s (R40). -/
def execPpsAbsent (s : State) : Res :=
  .next (if s.ppsOn then
      (({ s with tide := { s.tide with slew := 0 } } : State).setFld 0x1020 7 7 0).raiseMod 0 0x105 s.tide.ppsLast
    else s)

/-! Warnings that a wait or stall has lasted (R247, R312). -/

/-- ISSUE_STALL_WARN: event 0x1112 once the stall has lasted STALL_WARN tides. -/
def execIssueStallWarn (c : CoreIx) (s : State) : Res :=
  .next (match s.core[c].stall with
    | none => s
    | some st =>
      let w := s.fld (dispReg (c.val / 16) 0) 31 0
      if w = 0 ∨ st.warned ∨ s.tide.num.toNat < st.since.toNat + w then s
      else
        let code := if st.token then 7 else match st.target with
          | .pan => 3
          | .slu => 4
          | .brn => 5
          | .xtl => 6
        (s.onCore c (fun k => { k with stall := some { st with warned := true } })).raise (s.coreSrc c.val) 0x1112
          (pack [(code, 0), (c.val, 8)]))

/-- Kind and detail of a wait as event 0x1240 codes them; none for TIDE.WAIT and HALT. -/
def WaitKind.code : WaitKind → Option (Nat × Nat)
  | .fenceL => some (0, 0)
  | .fenceS => some (1, 0)
  | .fenceA => some (2, 0)
  | .fenceUQ t => some (3, match t with
      | .pan => 3
      | .slu => 4
      | .brn => 5
      | .xtl => 6)
  | .fenceUT j => some (4, j.val)
  | .tokenWait j _ => some (5, j.val)
  | .bar i => some (6, i.val)
  | .tide .. => none
  | .halt => none

/-- SYNC_WAIT_WARN: event 0x1240 once the wait has lasted WAIT_WARN tides. -/
def execSyncWaitWarn (c : CoreIx) (s : State) : Res :=
  .next (match s.core[c].wait with
    | none => s
    | some w =>
      let n := s.fld (cacheBase (c.val / 16) + 8) 31 0
      match w.kind.code with
      | none => s
      | some (k, x) =>
        if n = 0 ∨ w.warned ∨ s.tide.num.toNat < w.since.toNat + n then s
        else
          (s.onCore c (fun q => { q with wait := some { w with warned := true } })).raise (s.coreSrc c.val) 0x1240
            (pack [(k, 0), (x, 4), (c.val, 8)]))

end Sys2Proof.Machine
end

