-- ==== Sys2Proof/Machine/Integrity.lean ====
section
/-! DEFINITION. The integrity unit's own steps (16_integrity.md): classification of channels, self-tests, fences and
their effect, the mode, releases of held steps, check-value and trace units. -/

namespace Sys2Proof.Machine

/-! Windows and permanent channels (R506, R472). -/

/-- WINDOW of class `k`, or of the lanes (5). -/
def State.errWindow (s : State) (k : Nat) : Nat :=
  max 1 (if k = 5 then s.fld (optBase 0 + 0x20) 63 32 else s.fld (0x210040 + 8 * k) 63 32)

/-- ERROR_WINDOW_END: at an edge whose number is a multiple of WINDOW the counts of a class, or of the receive lanes,
restart. -/
def execErrorWindowEnd (k : Fin 6) (s : State) : Res :=
  .next (if s.tide.num.toNat % s.errWindow k.val ≠ 0 ∨ s.int.winEnd[k] = s.tide.num then s
    else
      let s := { s with int := { s.int with
        chan := s.int.chan.filter (fun (c : Chan × Nat × Nat) => c.1.cls != k.val)
        winEnd := s.int.winEnd.set k s.tide.num } }
      if k.val = 5 then
        { s with link := { s.link with
            port := s.link.port.map (fun (q : PortSt) => { q with errs := Vector.replicate 8 0 }) } }
      else s)

/-- The channel as the counts name it. -/
def chanOf : ChanRef → Chan
  | .pc k p => ⟨0, k.val, p.val⟩
  | .fabric d j m => ⟨1, 4 * d.val + j.val, m.val⟩
  | .slow x ch => ⟨2, x.val, ch.val⟩
  | .way c w => ⟨3, c.val, w.val⟩
  | .core c => ⟨4, c.val, 0⟩

/-- The channel is out already. -/
def State.chanGone (s : State) : ChanRef → Bool
  | .pc k p => (s.retiredPcs k.val).getLsbD p.val
  | .fabric d j m => (s.reg (fabBase d.val + 0x20 + 8 * j.val)).getLsbD m.val
  | .slow x ch => s.fenceSet 5 x.val ch.val
  | c => s.int.permanent.contains (chanOf c)

/-- The unit that raises event 0x0304. -/
def State.chanSrc (s : State) : ChanRef → Src
  | .pc k _ => s.stackSrc k.val
  | .fabric d j _ => s.fabSrc d.val j.val
  | .slow x _ => s.xtlSrc x.val
  | .way c _ => s.sliceSrc c.val
  | .core c => s.coreSrc c.val

/-- CHANNEL_PERMANENT (R506, R517): a channel whose repeated attempts or failures of the window reached a threshold.
Classes 0 to 2 retire the channel in both modes; classes 3 and 4 charge the unit, which SERVICE fences. -/
def execChannelPermanent (c : ChanRef) (s : State) : Res :=
  let k := chanOf c
  let (reps, fails) := (assoc k s.int.chan).getD (0, 0)
  let r := s.reg (0x210040 + 8 * k.cls)
  let byFail : Bool := k.cls != 1 && decide (max 1 (bitsOf r 15 0) ≤ fails)
  .next (if s.chanGone c ∨ !(byFail || decide (max 1 (bitsOf r 31 16) ≤ reps)) then s
    else
      let s := s.raise (s.chanSrc c) 0x304 (pack [(k.cls, 0), (b2n byFail, 4), (k.unit, 8), (k.ch, 16)])
      let note (s : State) : State := { s with int := { s.int with permanent := s.int.permanent ++ [k] } }
      match c with
      | .pc k p => s.retirePc k.val p.val
      | .fabric d j m => s.fabModuleOut d.val j.val m.val
      | .slow x ch => s.fence 5 x.val ch.val 2
      | .way c w => (note s).charge 3 c.val w.val true 2
      | .core c => (note s).charge 2 c.val 0 true 2)

/-! Self-tests (R519, R520). -/

/-- A unit as events 0x0303 and 0x0305 name it. -/
def fenceName : FenceUnit → Nat × Nat × Nat
  | .engine p e => (0, p.val, e.val)
  | .pan p => (1, p.val, 0)
  | .core c => (2, c.val, 0)
  | .way c w => (3, c.val, w.val)
  | .sluice i => (4, i.val, 0)
  | .slowChan x ch => (5, x.val, ch.val)

/-- The suspect bit of a unit. -/
def State.suspectBit (s : State) (u : Nat × Nat × Nat) : Bool :=
  (s.reg ((fenceBit u.1 u.2.1 u.2.2).1 + 0x100)).getLsbD (fenceBit u.1 u.2.1 u.2.2).2

/-- The unit is where its test can run (R520). -/
def State.testable (s : State) : FenceUnit → Bool
  | .engine p _ | .pan p => s.pan[p].running.isNone && s.pan[p].ending.isEmpty
  | .core c =>
    let cl := clusterOf c
    s.core[c].mode == .halted && !(s.disp[cl].running.any (fun (g : Granule) => g.cores.contains c)) &&
      !(s.inService && s.logicalOf c == s.fld (dispReg cl.val 0) 35 32)
  | .sluice i => s.slu[i].queue.isEmpty && s.slu[i].running.isEmpty
  | .way .. | .slowChan .. => true

/-- The unit's interval has passed: every SVC_INTERVAL tides in SERVICE, every OBS_INTERVAL for a suspect unit in
OBSERVE; the scrub of a slow-tier channel is continuous. -/
def State.testDue (s : State) (u : FenceUnit) : Bool :=
  let since : Nat := match assoc (fenceName u) s.int.tests with
    | some t => s.tide.num.toNat - t.last.toNat
    | none => 2 ^ 64
  let cfg := s.reg 0x210018
  match u with
  | .slowChan .. => true
  | _ =>
    if s.inService then bitsOf cfg 63 32 != 0 && decide (bitsOf cfg 63 32 ≤ since)
    else s.suspectBit (fenceName u) && decide (max 1 (bitsOf cfg 31 16) ≤ since)

/-- Forgets the failures of units whose suspect bit is clear (R519). -/
def State.dropFailed (s : State) : State :=
  { s with int := { s.int with tests := s.int.tests.map (fun (q : (Nat × Nat × Nat) × TestRec) =>
      if s.suspectBit q.1 = true then q else (q.1, { q.2 with passes := 0, failed := false })) } }

/-- One self-test of a unit, which found a fault or none. -/
def State.selfTest (s : State) (u : FenceUnit) (fault : Bool) : State :=
  let k := fenceName u
  let old := (assoc k s.int.tests).getD ⟨0, 0, false⟩
  let s := s.count 0x210470 1
  let put (t : TestRec) (s : State) : State := { s with int := { s.int with tests := assocPut k t s.int.tests } }
  if fault then
    let s := (s.count 0x210480 1).raiseMod 2 0x305
      (pack [(k.1, 0), (b2n !s.inService, 4), (k.2.1, 8), (k.2.2, 16)])
    (put ⟨s.tide.num, 0, true⟩ s).charge k.1 k.2.1 k.2.2 true 1
  else if !s.inService && s.suspectBit k then
    let n := old.passes + 1
    if max 1 (s.fld 0x210018 7 0) ≤ n then
      let (o, b) := fenceBit k.1 k.2.1 k.2.2
      put ⟨s.tide.num, 0, false⟩ (s.setBit (o + 0x100) b false)
    else put ⟨s.tide.num, n, old.failed⟩ s
  else put ⟨s.tide.num, 0, old.failed⟩ s

/-- SELF_TEST. -/
def execSelfTest (u : FenceUnit) (fault : Bool) (s : State) : Res :=
  .next (if s.clocked && s.testable u && s.testDue u then s.selfTest u fault else s)

/-! Fences take effect (R145, R254, R521, R170, R372). -/

/-- Event 0x1308, once for a running logical die whose pan or cluster stops being usable (R372). -/
def State.noteDead (s : State) (d : Nat) : State :=
  match s.stk.lmap[Fin.ofNat 4 d] with
  | some (p, l, _) =>
    if s.eligible d then s.onStk (fun k => { k with deadRaised := setDel d k.deadRaised })
    else if s.stk.deadRaised.contains d then s
    else (s.onStk (fun k => { k with deadRaised := setAdd d k.deadRaised })).raiseMod 7 0x1308
      (pack [(p, 0), (l, 2), (d, 4)]) p
  | none => s

/-- A pan takes its fences between commands; event 0x1003 when width or available arrays change. -/
def State.panFences (s : State) (p : ClusterIx) : State :=
  let q := s.pan[p]
  let r := { q with
    fenced := BitVec.ofNat 16 (s.fld (0x210100 + 8 * (p.val / 4)) (16 * (p.val % 4) + 15) (16 * (p.val % 4)))
    whole := s.fenceSet 1 p.val 0 }
  let s := { s with pan := s.pan.set p r }
  let same := q.width == r.width && q.arrays 4 == r.arrays 4 && q.arrays 16 == r.arrays 16
  let s := if same then s else s.raise (s.panSrc p.val) 0x1003 (pack [(r.fenced.toNat, 0), (r.width, 16)])
  s.noteDead (p.val / 2)

/-- A cluster's cores take their fences at a granule boundary: the healthy cores take logical indices 0 to AVAIL − 1. -/
def State.coreFences (s : State) (c : ClusterIx) : State :=
  let bad (k : Nat) : Bool := s.fenceSet 2 (16 * c.val + k) 0
  let good := (List.range 16).filter (fun k => !bad k)
  let out := (List.range 16).filter bad
  let s := s.onDisp c (fun d => { d with lmap := good ++ out, avail := good.length })
  let s := (List.range 16).foldl (fun s k =>
    s.onCore (Fin.ofNat 128 (16 * c.val + k)) (fun q =>
      if bad k = true then { q with mode := .fenced, stall := none, wait := none }
      else if q.mode = .fenced then { q with mode := .halted } else q)) s
  s.noteDead (c.val / 2)

/-- The ways of a cluster's retention area: the SIZE lowest healthy ones (log entry 31). -/
def State.areaWays (s : State) (c : ClusterIx) : List Nat :=
  ((List.range 32).filter (fun w => !(s.int.ways[c]).getLsbD w)).take (s.fld (clusterBase c.val + 0x80100) 4 0)

/-- Contents of way number `i` of a cluster's retention area are lost. -/
def State.loseWay (s : State) (c : ClusterIx) (i : Nat) : State :=
  let lo := 0x60000000000 + c.val * 2 ^ 27 + i * 2 ^ 22
  s.loseBytes lo (lo + 2 ^ 22)

/-- A way leaves the cache, or returns to it; one of the retention area waits while JOB_LOCK is 1. -/
def State.wayFence (s : State) (c : ClusterIx) (w : Fin 32) : State :=
  let area := s.areaWays c
  let set := s.fenceSet 3 c.val w.val
  if set && (s.int.ways[c]).getLsbD w.val then s
  else if set && area.contains w.val && s.fld 0x1030 0 0 == 1 then s
  else
    let s := if set && area.contains w.val then s.loseWay c (area.idxOf w.val) else s
    let b : BitVec 32 := BitVec.ofNat 32 (2 ^ w.val)
    let m := s.int.ways[c]
    let s := { s with int := { s.int with ways := s.int.ways.set c (if set then m ||| b else m &&& ~~~b) } }
    s.setRet c.val (s.fld (clusterBase c.val + 0x80100) 4 0)

/-- INT_FENCE_WAY_c.PENDING (R521). -/
def State.wayPending (s : State) (c : ClusterIx) : Nat :=
  if s.fld 0x1030 0 0 = 1 then
    (((s.areaWays c).filter (fun w => s.fenceSet 3 c.val w)).map (fun w => 2 ^ w)).foldl (· + ·) 0
  else 0

/-- The healthy sluices of a cluster, ascending: logical index k is the k-th (R521). -/
def State.healthySlu (s : State) (c : ClusterIx) : List SluIx :=
  (((List.range 4).map (fun k => (Fin.ofNat 32 (4 * c.val + k) : SluIx))).filter (fun i => !s.slu[i].fenced))

/-- The sluice with the fewest queued commands, lowest index on ties. -/
def State.fewest (s : State) : List SluIx → Option SluIx
  | [] => none
  | i :: r =>
    match s.fewest r with
    | none => some i
    | some j => if s.slu[i].queue.length ≤ s.slu[j].queue.length then some i else some j

/-- A sluice with no command running takes its fence: its queue moves, in order, to the healthy sluice of the cluster
with the fewest queued commands, and is refused when there is none. -/
def State.sluFence (s : State) (i : SluIx) : State :=
  if !s.slu[i].running.isEmpty then s
  else
    let set := s.fenceSet 4 i.val 0
    let q := s.slu[i].queue
    let s := s.onSlu i (fun t => { t with fenced := set })
    if !set then s
    else
      let s := s.onSlu i (fun t => { t with queue := [] })
      match s.fewest (s.healthySlu (sluCluster i)) with
      | some j => s.onSlu j (fun t => { t with queue := t.queue ++ q })
      | none => q.foldl (fun s cmd =>
          s.refuseRaise (s.sluSrc i.val) cmd (bad1601 1 cmd.core.val i.val cmd.op.sluFn)) s

/-- A fence, or a cleared fence, takes effect at the unit's boundary; before it nothing changes. -/
def State.fenceEffect (s : State) : FenceUnit → State
  | .engine p _ | .pan p =>
    let busy := s.pan[p].passing || (s.pan[twinOf p].passing && s.pan[twinOf p].running.any (fun (r : PanRun) => r.twin == some p))
    if busy then s else s.panFences p
  | .core c => if (s.disp[clusterOf c].running).isSome then s else s.coreFences (clusterOf c)
  | .way c w => s.wayFence c w
  | .sluice i => s.sluFence i
  | .slowChan .. => s

/-- FENCE_TAKE_EFFECT (R521). -/
def execFenceTakeEffect (u : FenceUnit) (s : State) : Res := .next (s.fenceEffect u)

/-! Firmware's writes of fence bits and of the mode (R519, R522). -/

/-- Firmware sets a fence bit. -/
def State.fenceWrite (s : State) (u : FenceUnit) : State :=
  let k := fenceName u
  s.fence k.1 k.2.1 k.2.2 3

/-- Firmware writes 0 over a fence bit that is set: refused in SERVICE; in OBSERVE it takes effect at the unit's next
boundary, a slow-tier channel's at once. -/
def State.fenceErase (s : State) (u : FenceUnit) : State :=
  let k := fenceName u
  if !s.fenceSet k.1 k.2.1 k.2.2 then s
  else if s.inService then s.raiseMod 2 0x30B (pack [(k.1, 0), (k.2.1, 8), (k.2.2, 16)])
  else
    let (o, b) := fenceBit k.1 k.2.1 k.2.2
    let gone : List Chan := match u with
      | .way c w => [⟨3, c.val, w.val⟩]
      | .core c => [⟨4, c.val, 0⟩]
      | _ => []
    let s := s.setBit o b false
    let s := { s with int := { s.int with permanent := s.int.permanent.filter (fun c => !gone.contains c) } }
    match u with
    | .slowChan x ch => (s.setBit (xtlBase x.val + 0x18) ch.val false).reinterleave x.val
    | _ => s

def execFenceSet (u : FenceUnit) (s : State) : Res := .next (if s.powered then s.fenceWrite u else s)
def execFenceClear (u : FenceUnit) (s : State) : Res := .next (if s.powered then s.fenceErase u else s)

/-- The unit became repeatedly suspect at some charge (R517). -/
def State.wasRepeated (s : State) (u : Nat × Nat × Nat) : Bool :=
  let win := max 1 (s.fld 0x210010 63 32)
  let n := max 1 (s.fld 0x210010 7 0)
  let ts := (s.int.charges.filter (fun (q : (Nat × Nat × Nat) × BitVec 64) => q.1 = u)).map (fun q => q.2.toNat)
  ts.any (fun t => decide (n ≤ (ts.filter (fun (a : Nat) => decide (a ≤ t) && decide (t < a + win))).length))

/-- The units that R519 fences on a write of MODE = SERVICE, with the reason: a suspect unit that is repeatedly suspect,
or failed a self-test since its suspect bit was last clear. -/
def State.toFence (s : State) : List ((Nat × Nat × Nat) × Nat) :=
  let failed (u : Nat × Nat × Nat) : Bool := (assoc u s.int.tests).any (fun (t : TestRec) => t.failed)
  let us := (s.int.charges.map (·.1) ++ s.int.tests.map (·.1)).eraseDups
  us.filterMap (fun u =>
    if !s.suspectBit u then none else if s.wasRepeated u then some (u, 0) else if failed u then some (u, 1) else none)

/-- A write of INT_CTL (R519): MODE only while JOB_LOCK is 0. -/
def State.intCtlWrite (s : State) (v : BitVec 64) : State :=
  let s := (s.setFld 0x210000 4 4 (bitsOf v 4 4)).setFld 0x210000 3 3 (bitsOf v 3 3)
  if s.fld 0x1030 0 0 = 1 then s
  else
    let s := s.setFld 0x210000 0 0 (bitsOf v 0 0)
    if s.inService && (s.reg 0x210000).getLsbD 3 then
      s.toFence.foldl (fun s (q : (Nat × Nat × Nat) × Nat) => s.fence q.1.1 q.1.2.1 q.1.2.2 q.2) s
    else s

def execIntModeWrite (v : BitVec 64) (s : State) : Res := .next (if s.powered then s.intCtlWrite v else s)

/-! Held steps (R515). -/

/-- A write of a step and partition to INT_REDO_REL. -/
def State.redoRelease (s : State) (step : BitVec 48) (p : PartIx) : State :=
  let hit (h : Nat × BitVec 64) : Bool := h.1 == p.val && h.2.setWidth 48 == step
  if s.int.held.any hit then
    ({ s with int := { s.int with held := s.int.held.filter (fun h => !hit h) } } : State).raiseMod 2 0x302
      (pack [(p.val, 0), (step.toNat, 16)]) p.val
  else s

def execRedoRelease (step : BitVec 48) (p : PartIx) (s : State) : Res :=
  .next (if s.powered then s.redoRelease step p else s)

/-- What INT_HELD_p reads: the oldest held step, by step number (DEDUCED, log entry 74), and the number
of held steps. -/
def State.intHeld (s : State) (p : Nat) : BitVec 64 :=
  let steps := ((s.int.held.filter (fun (h : Nat × BitVec 64) => h.1 = p)).map (fun h => h.2.toNat)).eraseDups
  pack [(low 48 (steps.foldl min ((steps.head?).getD 0)), 16), (low 8 steps.length, 0)]

/-- Held steps over all partitions, and records in use (INT_STATUS). -/
def State.intStatus (s : State) : BitVec 64 :=
  pack ((low 8 s.int.held.eraseDups.length, 32) ::
    (List.range 4).map (fun d => (low 5 (s.int.recs[Fin.ofNat 4 d]).length, 8 * d)))

/-! Claims by hardware owners (R525, R528, R597, R598). -/

/-- Resource of a check-value unit's tap; none for a value that acts as no tap. -/
def cvTapRes (n tap : Nat) : Option Nat :=
  if n < 8 then (if tap ≤ 18 then some (0x1000 + 32 * (n / 2) + tap) else none)
  else if tap ≤ 1 then some (0x2000 + 2 * (n - 8) + tap) else none

/-- Takes resources for an owner together, or not at all. -/
def State.claimAll (s : State) (owner : Nat) (rs : List Nat) : Option State :=
  if rs.any (fun r => (assoc r s.int.claims).any (fun h => h != owner)) then none
  else some { s with int := { s.int with claims := rs.foldl (fun m r => assocPut r owner m) s.int.claims } }

/-- Releases every claim of an owner. -/
def State.releaseAll (s : State) (owner : Nat) : State :=
  { s with int := { s.int with claims := s.int.claims.filter (fun (q : Nat × Nat) => q.2 != owner) } }

/-- Brine holds the unit (R525). -/
def State.cvBrine (s : State) (n : Nat) : Bool := (assoc (0x6000 + n) s.int.claims).any (fun h => decide (1 ≤ h ∧ h ≤ 4))

/-- A write of CV_CTL (R525). -/
def State.cvCtlWrite (s : State) (n : Nat) (v : BitVec 64) : State :=
  if s.cvBrine n then s
  else
    let on := (s.reg (cvBase n)).getLsbD 0
    let s := s.setFld (cvBase n) 22 16 (bitsOf v 22 16)
    let s := s.setFld (cvBase n) 2 1 (bitsOf v 2 1)
    let s := if on then s else s.setFld (cvBase n) 15 8 (bitsOf v 15 8)
    let tap := s.fld (cvBase n) 15 8
    if !v.getLsbD 0 then (s.setFld (cvBase n) 0 0 0).releaseAll (0x10 + n)
    else if on then s
    else
      match s.claimAll (0x10 + n) ((cvTapRes n tap).toList ++ [0x6000 + n]) with
      | some s => s.setFld (cvBase n) 0 0 1
      | none => s.raise (s.cvSrc n) 0x306 (pack [(n, 0), (tap, 8)])

/-- CV_ENABLE: CV_CTL written with EN = 1. -/
def execCvEnable (n : Fin 16) (v : BitVec 64) (s : State) : Res :=
  .next (if s.powered then s.cvCtlWrite n.val (setBits v 0 0 1) else s)

/-- A write of CV_CTX_BASE_k (R526): EN = 1 restarts the context. -/
def State.cvBaseWrite (s : State) (n k : Nat) (v : BitVec 64) : State :=
  if s.cvBrine n then s
  else
    let s := s.setReg (cvCtx n k + 0x10) (v &&& 0x80FFFFFFFFFFFFFF)
    if v.getLsbD 63 then
      let init := (s.reg (cvBase n + 0x10)).toNat % 2 ^ s.cvWidth n
      let s := (s.setReg (cvCtx n k) (BitVec.ofNat 64 init)).setReg (cvCtx n k + 0x20) 0
      { s with int := { s.int with cvDead := s.int.cvDead.filter (fun q => q != (n, k)) } }
    else s

/-- CV_CONTEXT_START: CV_CTX_BASE_k written with EN = 1. -/
def execCvContextStart (n : Fin 16) (k : Fin 16) (v : BitVec 64) (s : State) : Res :=
  .next (if s.powered then s.cvBaseWrite n.val k.val (setBits v 63 63 1) else s)

/-- A write of CV_CTX_VAL_k between two lines (R527). -/
def State.cvValWrite (s : State) (n k : Nat) (v : BitVec 64) : State :=
  if s.cvBrine n then s else s.setReg (cvCtx n k) v

def execCvValWrite (n : Fin 16) (k : Fin 16) (v : BitVec 64) (s : State) : Res :=
  .next (if s.powered then s.cvValWrite n.val k.val v else s)

/-- A write of TRACE_CTL_d (R528). -/
def State.traceWrite (s : State) (d : DieIx) (v : BitVec 64) : State :=
  let b := traceBase d.val
  let on := (s.reg b).getLsbD 0
  let s := (s.setFld b 7 4 (bitsOf v 7 4)).setFld b 2 2 (bitsOf v 2 2)
  let s := if on then s else s.setFld b 15 8 (bitsOf v 15 8)
  let tap := s.fld b 15 8
  let start (s : State) : State :=
    let s := ((s.setFld b 0 0 1).setFld b 1 1 0).setFld (b + 0x18) 40 0 0
    { s with int := { s.int with traced := s.int.traced.set d 0, traceLost := s.int.traceLost.set d false } }
  if !v.getLsbD 0 then (s.setFld b 0 0 0).releaseAll (0x20 + d.val)
  else if on then start s
  else
    match s.claimAll (0x20 + d.val) ((if tap ≤ 18 then [0x1000 + 32 * d.val + tap] else []) ++ [0x3000 + d.val]) with
    | some s => start s
    | none => s.raise ⟨d.val, 2, 0xFF, s.partNum d.val⟩ 0x306 (pack [(0x10 + d.val, 0), (tap, 8)])

/-- TRACE_ENABLE: TRACE_CTL_d written with EN = 1. -/
def execTraceEnable (d : DieIx) (v : BitVec 64) (s : State) : Res :=
  .next (if s.powered then s.traceWrite d (setBits v 0 0 1) else s)

end Sys2Proof.Machine
end

