-- ==== Sys2Proof/Machine/Power.lean ====
section
/-! DEFINITION. The power registers with behaviour of their own, the settings ledger's counted writes (R572, R573), energy
marks, and the power states with their wake sources (R529 to R563). -/

namespace Sys2Proof.Machine

/-- JOB_LOCK is 1. -/
def State.locked (s : State) : Bool := s.fld 0x1030 0 0 == 1

/-! The settings ledger. -/

/-- Entries of a kind. -/
def State.ledgerCount (s : State) (k : Nat) : Nat := (s.mgmt.ledger.filter (fun (e : LedgerEnt) => e.kind == k)).length

/-- Changes what firmware keeps. -/
def State.onMgmt (s : State) (f : MgmtSt → MgmtSt) : State := { s with mgmt := f s.mgmt }

/-- One counted write appends an entry (R572). -/
def State.ledgerAdd (s : State) (kind old new : Nat) : State :=
  let a := s.reg 0x300020
  s.onMgmt (fun m => { m with ledger := m.ledger ++
    [⟨s.tide.num, (s.reg 0x300008).setWidth 32, kind, bitsOf a 1 0, BitVec.ofNat 64 (bitsOf a 63 16), BitVec.ofNat 32 old,
      BitVec.ofNat 32 new⟩] })

/-- A write that R14 refuses: event 0x0403. -/
def State.rwlRefuse (s : State) (kind v : Nat) : State := s.raiseMod 3 0x403 (pack [(kind, 0), (low 32 v, 8)])

/-- LEDGER_USED. -/
def State.ledgerUsed (s : State) : BitVec 64 :=
  pack [(s.ledgerCount 3, 16), (s.ledgerCount 5, 13), (s.ledgerCount 4, 8), (s.ledgerCount 2, 4), (s.ledgerCount 1, 0)]

/-- A write of PWR_CLASS (R532). -/
def State.classWrite (s : State) (c : Nat) : State :=
  let old := s.fld 0x100008 1 0
  if c ≤ old then s
  else if 8 ≤ s.ledgerCount 1 then s.rwlRefuse 1 c
  else (s.ledgerAdd 1 old c).setFld 0x100008 1 0 c

/-- PWR_CLASS_WRITE (R532): a raise is counted; lowering has no effect. -/
def execPwrClassWrite (c : Fin 4) (s : State) : Res := .next (if s.awake then s.classWrite c.val else s)

/-- A write of SEC_LIFECYCLE (R574): forward only; OWNED needs an owner key. -/
def State.lifecycleWrite (s : State) (st : Nat) : State :=
  let old := s.fld 0x300200 1 0
  if st ≤ old then s
  else if st = 2 ∧ s.fld 0x300208 4 0 = 0 then s
  else if 3 ≤ s.ledgerCount 5 then s.rwlRefuse 5 st
  else (s.ledgerAdd 5 old st).setFld 0x300200 1 0 st

def execSecLifecycleWrite (st : Fin 4) (s : State) : Res := .next (if s.awake then s.lifecycleWrite st.val else s)

/-- A write of SEC_OWNER_KEY (R575). -/
def State.ownerWrite (s : State) (k : Nat) : State :=
  let old := s.fld 0x300208 4 0
  if k ≤ old ∨ 16 < k then s
  else if 16 ≤ s.ledgerCount 4 then s.rwlRefuse 4 k
  else (s.ledgerAdd 4 old k).setFld 0x300208 4 0 k

def execSecOwnerKeyWrite (k : BitVec 5) (s : State) : Res := .next (if s.awake then s.ownerWrite k.toNat else s)

/-- SEC_DEBUG.UNLOCK written 1 (R573): DEBUG until cold boot. -/
def State.debugWrite (s : State) : State :=
  if s.fld 0x300210 0 0 = 1 then s
  else if 4 ≤ s.ledgerCount 2 then s.rwlRefuse 2 1
  else ((s.ledgerAdd 2 0 1).setFld 0x300210 0 0 1).setFld 0x300000 6 6 1

def execSecDebugUnlock (s : State) : Res := .next (if s.awake then s.debugWrite else s)

/-- A write of PAN_FUSE_PROG (R143): a spare programmed already is refused. A write of the value that the register holds,
0 at reset too, has no effect and is not counted, as R14 says of every RWL field (the model's choice beside R143, log entry
77). A write that names no physical row or column is not counted. -/
def State.fuseWrite (s : State) (p : ClusterIx) (v : BitVec 16) : State :=
  let w := v.setWidth 64
  let same (q : Nat × BitVec 64) : Bool := q.1 == p.val && bitsOf q.2 15 9 == bitsOf w 15 9
  let big := if v.getLsbD 11 then 261 < bitsOf w 8 0 else 259 < bitsOf w 8 0
  if big || bitsOf (s.reg (panBase p.val + 0x38)) 15 0 == v.toNat then s
  else if s.mgmt.fuses.any same then s.rwlRefuse 3 v.toNat
  else
    let old := s.reg (panBase p.val + 0x38)
    ((s.ledgerAdd 3 (bitsOf old 15 0) v.toNat).setReg (panBase p.val + 0x38) w).onMgmt
      (fun m => { m with fuses := m.fuses ++ [(p.val, w)] })

def execPanFuseProgWrite (p : ClusterIx) (v : BitVec 16) (s : State) : Res :=
  .next (if s.clocked then s.fuseWrite p v else s)

/-! Cap schedule, order and floors (R534, R537). -/

/-- A write of PWR_CAP_SCHED: the target is the first tide number after the write whose low 48 bits equal TARGET. -/
def State.capSchedWrite (s : State) (v : BitVec 64) : State :=
  let now := s.tide.num.toNat
  let ahead := (bitsOf v 63 16 + 2 ^ 48 - (now + 1) % 2 ^ 48) % 2 ^ 48 + 1
  if 2 ^ 20 < ahead then s.raiseMod 1 0x20A (v &&& 0xFFFFFFFFFFFF01FF)
  else
    ((s.setReg 0x100018 (v &&& 0xFFFFFFFFFFFF01FF)).setFld 0x100000 3 3 1).onPwr
      (fun p => { p with capTarget := BitVec.ofNat 64 (now + ahead) })

def execPwrCapSchedWrite (v : BitVec 64) (s : State) : Res := .next (if s.awake then s.capSchedWrite v else s)

/-- Keeps a write for action 3 of the next edge (R13). -/
def State.stage (s : State) (off : Nat) (v : BitVec 64) : State := { s with staged := assocPut off v s.staged }

/-- A write of PWR_ORDER that names each domain once. -/
def State.orderWrite (s : State) (v : BitVec 64) : State :=
  let l := [bitsOf v 5 4, bitsOf v 3 2, bitsOf v 1 0]
  if [0, 1, 2].all (fun d => l.contains d) then s.stage 0x100020 (v &&& 0x3F) else s

def execPwrOrderWrite (v : BitVec 64) (s : State) : Res := .next (if s.awake then s.orderWrite v else s)

/-- A write of PWR_FLOOR within its limits. -/
def State.floorWrite (s : State) (v : BitVec 64) : State :=
  let a := bitsOf v 7 0
  let b := bitsOf v 15 8
  let c := bitsOf v 23 16
  if a ≤ 40 ∧ b ≤ 40 ∧ c ≤ 40 ∧ a + b + c ≤ 68 then s.stage 0x100028 (v &&& 0xFFFFFF) else s

def execPwrFloorWrite (v : BitVec 64) (s : State) : Res := .next (if s.awake then s.floorWrite v else s)

/-! Energy marks (R552). -/

/-- PWR_ENERGY_MARK_p; PWR_ENERGY_VAL_p is 8 above. -/
def markReg (p : Nat) : Nat := 0x100240 + 0x10 * p

/-- A firmware write of a mark. -/
def State.markWrite (s : State) (p : Nat) (t : BitVec 64) : State :=
  if t.toNat ≤ s.tide.num.toNat then s.setFld 0x100000 (16 + p) (16 + p) 1
  else (s.setReg (markReg p) t).setFld 0x100000 (8 + p) (8 + p) 1

def execEnergyMarkWrite (p : PartIx) (t : BitVec 64) (s : State) : Res :=
  .next (if s.awake then s.markWrite p.val t else s)

/-- The report of a job whose end mark has latched (R553). A job whose start was never marked reports nothing used, and
late. -/
def State.energyReport (s : State) (w : EnergyWait) (v : BitVec 64) : EnergyRep where
  id := w.id
  fromEdge := (w.start.map (·.1)).getD s.tide.num
  toEdge := s.tide.num
  mJ := v - (w.start.map (·.2)).getD v
  late := w.late || w.start.isNone || decide (s.tide.num ≠ w.want)
  shared := w.shared

/-- What a latched mark tells firmware (R553): the end of a job, whose report follows, and the start of one that holds the
partition and has started. -/
def State.markSeen (s : State) (p : PartIx) (v : BitVec 64) : State :=
  let s := match s.mgmt.energyWait[p] with
    | some w =>
      let r := s.energyReport w v
      s.onMgmt (fun m => { m with reports := m.reports ++ [r], energyWait := m.energyWait.set p none })
    | none => s
  match s.job[p] with
  | some j =>
    if j.start.isSome ∨ j.phase = .starting then s
    else { s with job := s.job.set p (some { j with start := some (s.tide.num, v) }) }
  | none => s

/-- ENERGY_MARK_LATCH: at the edge that reaches the target the mark takes the energy as it stood at action 2. -/
def execEnergyMarkLatch (p : PartIx) (s : State) : Res :=
  .next (if s.fld 0x100000 (8 + p.val) (8 + p.val) = 1 ∧ (s.reg (markReg p.val)).toNat ≤ s.tide.num.toNat then
      let v := mapGet zero64 s.edgeCtr 0x100400
      (((s.setReg (markReg p.val + 8) v).setFld 0x100000 (8 + p.val) (8 + p.val) 0).setFld 0x100000 (12 + p.val)
        (12 + p.val) 1).markSeen p v
    else s)

/-! Exits and their causes (R558, R559). -/

/-- STATE of PWR_STATUS. -/
def State.pstate (s : State) : Nat := s.fld 0x100000 7 4

/-- An exit begins: its source and port recorded. -/
def State.beginExit (s : State) (src port : Nat) : State :=
  let st := s.pstate
  let s := s.setFld 0x100210 11 8 src
  let s := if src = 1 ∨ src = 2 then s.setFld 0x100210 23 16 port else s
  (s.setFld 0x100000 7 4 5).onPwr (fun p => { p with leaving := some st, exitEdge := false })

/-- M0 is reached (R559): counted, event 0x0209. -/
def State.woken (s : State) (st : Nat) : State :=
  let w := s.reg 0x100210
  let src := bitsOf w 11 8
  let port := if src = 1 ∨ src = 2 then bitsOf w 23 16 else 0
  (((s.setFld 0x100000 7 4 0).count 0x100520 1).onPwr (fun p => { p with leaving := none })).raiseMod 1 0x209
    (pack [(src, 0), (st, 4), (port, 8)])

/-- A wake source of the states `sts`: in one of them exit begins; an edge source is latched while one of them is being
entered (R561). -/
def State.wake (s : State) (src port : Nat) (sts : List Nat) (edge : Bool) : State :=
  if !s.powered then s
  else if sts.contains s.pstate then s.beginExit src port
  else
    match s.pwr.entering with
    | some t => if edge && sts.contains t then s.setFld 0x100210 src src 1 else s
    | none => s

/-- Bit of PWR_WAKE_CFG. -/
def State.wakeEn (s : State) (b : Nat) : Bool := s.fld 0x100208 b b == 1

/-- ALARM_WAKE: the tide number has reached PWR_ALARM. -/
def execAlarmWake (s : State) : Res :=
  .next (if s.wakeEn 4 ∧ (s.reg 0x100228).toNat ≤ s.tide.num.toNat then s.wake 5 0 [1, 2, 3] true else s)

/-- WAKE_L_LOW: a level source of every state. -/
def execWakeLLow (s : State) : Res := .next (if s.wakeEn 0 then s.wake 4 0 [1, 2, 3] false else s)

/-- LIGHT_WAKE: light of at least 5 µs on lane 0 of a port with a watch receiver. -/
def execLightWake (p : PortIx) (s : State) : Res :=
  .next (if s.wakeEn 1 && (s.reg 0x100218).getLsbD p.val && s.pwr.watch.getLsbD p.val then
      s.wake 1 p.val [2, 3] false
    else s)

/-- The port will keep a watch receiver in the state being entered: enabled, and in M2 not kept. -/
def State.willWatch (s : State) (p : PortIx) : Bool :=
  (s.reg (linkReg p 8)).getLsbD 0 &&
    (match s.pwr.entering with
      | some 2 => !s.keptPort p
      | some _ => true
      | none => false)

/-- KNOCK_MATCH (R560): the last 64 bits equal PWR_KNOCK_PAT. -/
def execKnockMatch (p : PortIx) (bits : BitVec 64) (s : State) : Res :=
  .next (if s.wakeEn 2 && bits == s.reg 0x100220 && (s.pwr.watch.getLsbD p.val || s.willWatch p) then
      (if (s.pwr.entering).isSome then s.setFld 0x100210 23 16 p.val else s).wake 2 p.val [2, 3] true
    else s)

/-- MGMT_ENERGY_WAKE: energy on MGMT0 or MGMT1. -/
def execMgmtEnergyWake (s : State) : Res := .next (if s.wakeEn 3 then s.wake 3 0 [3] true else s)

/-- SEGMENT_WAKE: the first segment addressed to the module in M1 (R556). -/
def execSegmentWake (s : State) : Res := .next (s.wake 7 0 [1] false)

/-! Requests (R555). -/

/-- A GO that has no effect, or whose request is cancelled or reached, reads 0. -/
def State.goDone (s : State) : State := s.setFld 0x100200 8 8 0

/-- A write of PWR_STATE_REQ with GO. -/
def State.pwrReq (s : State) (t : Nat) : State :=
  let s := (s.setFld 0x100200 1 0 t).setFld 0x100200 8 8 1
  let st := s.pstate
  if t = 0 then
    if st = 1 ∨ st = 2 then s.beginExit 6 0
    else if st = 4 then
      (match s.pwr.entering with
        | some 3 => s.goDone
        | some _ => s.setFld 0x100210 6 6 1
        | none => s.goDone)
    else if st = 0 then (s.onPwr (fun p => { p with m1Wait := false })).goDone
    else s.goDone
  else if st ≠ 0 ∨ (1 < t ∧ s.locked) then
    if (s.pwr.entering).isSome || s.pwr.m1Wait then s else s.goDone
  else if t = 1 then s.onPwr (fun p => { p with m1Wait := true })
  else (s.setFld 0x100000 7 4 4).onPwr (fun p => { p with m1Wait := false, entering := some t })

/-- A write of PWR_STATE_REQ: TARGET alone, or a request. -/
def State.pwrReqWrite (s : State) (v : BitVec 64) : State :=
  if v.getLsbD 8 then s.pwrReq (bitsOf v 1 0) else s.setFld 0x100200 1 0 (bitsOf v 1 0)

def execPwrReqM0 (s : State) : Res := .next (if s.awake then s.pwrReq 0 else s)
def execPwrReqM1 (s : State) : Res := .next (if s.awake then s.pwrReq 1 else s)
def execPwrReqM2 (s : State) : Res := .next (if s.awake then s.pwrReq 2 else s)
def execPwrReqM3 (s : State) : Res := .next (if s.awake then s.pwrReq 3 else s)

/-! Entries (R555, R556). -/

/-- A state is entered: event 0x0208; a source latched during entry begins exit at once (R561). -/
def State.entered (s : State) (st : Nat) : State :=
  let s := (((s.setFld 0x100000 7 4 st).onPwr (fun p => { p with entering := none, m1Wait := false })).goDone).raiseMod 1
    0x208 (BitVec.ofNat 64 st)
  let pend := s.fld 0x100210 7 0
  match (List.range 8).find? (fun i => pend / 2 ^ i % 2 = 1) with
  | some i => s.beginExit i (s.fld 0x100210 23 16)
  | none => s

/-- No granule runs and every pan, sluice, Brine and crystallizer queue is empty (R555). -/
def State.drained (s : State) : Bool :=
  s.disp.all (fun (d : DispSt) => d.running.isNone) && s.pan.all (fun (p : PanSt) => p.queue.isEmpty) &&
    s.slu.all (fun (u : SluSt) => u.queue.isEmpty) && s.brn.all (fun (b : BrnSt) => b.queue.isEmpty) &&
    s.xtl.all (fun (x : XtlSt) => x.queue.isEmpty)

/-- M1_ENTRY: at an edge at which the module is drained. -/
def execM1Entry (s : State) : Res :=
  .next (if s.powered && s.pwr.m1Wait && s.pstate == 0 && s.tide.ns == 0 && s.drained then s.entered 1 else s)

/-- Registers that lose power in M2: those of the clusters, the Brine units, the fabric and the crystallizers, and of the
check-value and trace units. The pans' spare maps, FAB_RETIRED and XTL_CHAN_MAP are put back by hardware and firmware at
exit and stand. -/
def m2Loses (off : Nat) : Bool :=
  if 0x200000 ≤ off ∧ off < 0x210000 then true
  else if 0x220000 ≤ off ∧ off < 0x220400 then true
  else if 0x1000000 ≤ off ∧ off < 0x5000000 then
    let r := off % 0x1000000
    if r < 0x800000 then
      let q := r % 0x400000
      !(decide (q = 0x30) || decide (0x100 ≤ q ∧ q < 0x200))
    else if r < 0x900000 then false
    else if r < 0xA00000 then true
    else if r < 0xB00000 then !decide (0x20 ≤ r % 0x100000 ∧ r % 0x100000 < 0x38)
    else false
  else if 0x8000000 ≤ off ∧ off < 0x8800000 then decide (off % 0x100000 ≠ 0x18)
  else false

/-- The bytes of the retention areas become unspecified values (R173). -/
def State.loseRetention (s : State) : State := s.loseBytes 0x60000000000 0x60040000000

/-- What the compute domains hold is lost (R173, R179, R259, R364, R420, R516): fences in effect and the cores' mapping
stay as the fence maps have them. Claims of the dies' units are released (R598). -/
def State.computeOff (s : State) : State :=
  { s.loseRetention with
    regs := mapDrop m2Loses s.regs
    staged := s.staged.filter (fun (q : Nat × BitVec 64) => !m2Loses q.1)
    core := s.core.map (fun (k : CoreSt) => { CoreSt.reset with mode := if k.mode = .fenced then .fenced else .halted })
    disp := s.disp.map (fun (d : DispSt) => { DispSt.reset with lmap := d.lmap, avail := d.avail })
    pan := s.pan.map (fun (p : PanSt) => { PanSt.reset with fenced := p.fenced, whole := p.whole })
    slu := s.slu.map (fun (u : SluSt) => { SluSt.reset with fenced := u.fenced })
    dieSlu := Vector.replicate 4 DieSlu.reset
    collRem := Vector.replicate 8 0
    xtl := Vector.replicate 8 XtlSt.reset
    gate := GateSt.reset
    brn := Vector.replicate 4 BrnSt.reset
    stk := { s.stk with heat := Vector.replicate 4 [], sample := Vector.replicate 8 0 }
    int := { s.int with
      recs := Vector.replicate 4 []
      held := []
      cvDead := []
      traced := Vector.replicate 4 0
      traceLost := Vector.replicate 4 false
      claims := s.int.claims.filter (fun (q : Nat × Nat) => decide (0xC0 ≤ q.2)) } }

/-- Ports that are enabled, as a mask. -/
def State.enabledPorts (s : State) : BitVec 64 :=
  pack ((List.range 64).map (fun p => (b2n ((s.reg (linkReg (Fin.ofNat 64 p) 8)).getLsbD 0), p)))

/-- Ports go DISABLED but for the kept ones, and the enabled ones among them keep a watch receiver (R556). -/
def State.shutPorts (s : State) (keep : PortIx → Bool) : State :=
  let en := s.enabledPorts
  let s := (List.finRange 64).foldl (fun s p => if keep p then s
    else
      let s := ((s.setFld (linkReg p 0) 3 0 0).setFld (linkReg p 0) 15 8 0).onPort p (fun _ => PortSt.reset)
      if p.val < 8 then s.setFld (optBase 0 + 0xC000 + 0x40 * p.val) 1 0 0 else s) s
  s.onPwr (fun q => { q with
    watch := pack ((List.finRange 64).map (fun p => (b2n (en.getLsbD p.val && !keep p), p.val))) })

/-- M2_ENTRY_COMPLETE. -/
def execM2EntryComplete (s : State) : Res :=
  .next (if s.powered ∧ s.pwr.entering = some 2 then
      let keep (p : PortIx) : Bool := s.keptPort p
      (s.computeOff.shutPorts keep).entered 2
    else s)

/-- M3_ENTRY_COMPLETE: as M2, and memory, management and every port lose power; a watch set on every enabled port. -/
def execM3EntryComplete (s : State) : Res :=
  .next (if s.powered ∧ s.pwr.entering = some 3 then
      let s := s.computeOff.shutPorts (fun _ => false)
      ({ s.loseBytes 0 (2 ^ 48) with poison := [] } : State).entered 3
    else s)

/-! Exits (R558). -/

/-- M1_EXIT: M0 from the first edge after the cause. In that edge's own cycle the clusters dispatch, as action 6 of the edge
would have (R558), and what the cores wait for is looked at again (R286). -/
def execM1Exit (s : State) : Res :=
  .next (if s.pwr.leaving = some 1 ∧ s.pwr.exitEdge then
      let s := s.woken 1
      let s := if s.tide.ns = 0 then (List.finRange 8).foldl (fun s c => s.dispatchHead c) s else s
      s.settleAll
    else s)

/-- The fabric trained anew: LIVE and STATE of every port from the modules in service (R449 to R452). -/
def State.trainFabric (s : State) : State :=
  let s := { s with link := { s.link with unreachable := [], fab := [] } }
  let s := diePairs.foldl (fun s (q : Nat × Nat) =>
    let live := 20 - popcount 20 (s.fld (fabBase q.1 + 0x20 + 8 * fabPort q.1 q.2) 19 0)
    let st := if live = 20 then 1 else if s.minMod q.1 ≤ live then 2 else 3
    (s.setBoth q.1 q.2 12 8 live).setBoth q.1 q.2 2 0 st) s
  diePairs.foldl (fun s (q : Nat × Nat) =>
    if s.fld (fabReg q.1 (fabPort q.1 q.2)) 2 0 = 3 then s.reroute q.1 q.2 true else s) s

/-- M2_EXIT: power returns to the compute domains; cores hold unspecified registers (R259), crystallizers are ready and
empty (R179), and ports that were watched train again. -/
def execM2Exit (s : State) : Res :=
  .next (if s.pwr.leaving = some 2 then
      let w := s.pwr.watch
      let s := { s.freshCores with
        xtl := s.xtl.map (fun (x : XtlSt) => { x with ready := true }) }
      let s := (List.finRange 64).foldl (fun s p => if w.getLsbD p.val then
          s.setFld (linkReg p 0) 3 0 (if s.fld (linkReg p 8) 1 1 = 1 then 6 else 1) else s) s
      (s.trainFabric.onPwr (fun q => { q with watch := 0 })).woken 2
    else s)

end Sys2Proof.Machine
end

