-- ==== Sys2Proof/Machine/Board.lean ====
section
/-! DEFINITION. Input, power-on and reset, the reference clock, trips, boot, and the watchdog of the primary
(17_power.md R529 to R531, 18_management.md R564 to R571, 19_module.md R608 to R616). -/

namespace Sys2Proof.Machine

/-- Changes the board's state. -/
def State.onBoard (s : State) (f : BoardSt → BoardSt) : State := { s with board := f s.board }

/-- The always-on island is powered: PWR_EN asserted and VIN within limits (R608). -/
def State.islandOn (s : State) : Bool := !(s.board.phase == .off || s.board.phase == .waitVin)

/-- FAULT_L is driven low (R612). -/
def State.faultL (s : State) : Bool :=
  s.board.phase == .tripped || s.board.d1Failed || s.board.phase == .recovery || s.board.phase == .waitRef

/-- A case of R612 is recorded with the tide number, and sets alert bit 3. -/
def State.faultLog (s : State) (cause die : Nat) : State :=
  (s.onBoard (fun b => { b with log := b.log ++ [⟨cause, die, s.tide.num⟩] })).alert 3

/-! What keeps its contents without power (R572, R574, R575, R571, R610, R611). -/

/-- The settings that firmware keeps to restore at boot: fence maps, retirements, MGMT_BOOT. -/
def settingRegs : List (Nat × BitVec 64) :=
  ([0x210100, 0x210108, 0x210110, 0x210118, 0x210120, 0x210128, 0x210180, 0x210188].map (fun o => (o, BitVec.allOnes 64))) ++
    ((List.range 8).map (fun c => (0x210140 + 8 * c, (0xFFFFFFFF : BitVec 64)))) ++
    ((List.range 16).map (fun k => (memBase (k / 4) + 0x2008 + 0x100 * (k % 4), BitVec.allOnes 64))) ++
    ((List.range 12).map (fun k => (fabBase (k / 3) + 0x20 + 8 * (k % 3), BitVec.allOnes 64))) ++
    ((List.range 64).map (fun p => (linkReg (Fin.ofNat 64 p) 0, (0xFF000000 : BitVec 64))))

/-- The settings store: once a boot has restored it, it follows the registers. -/
def State.savedStore (s : State) : List (Nat × BitVec 64) :=
  if s.board.phase = .run then
    (settingRegs.map (fun (q : Nat × BitVec 64) => (q.1, s.reg q.1 &&& q.2))).filter (fun (q : Nat × BitVec 64) => q.2 != 0)
  else s.mgmt.store

/-- Registers that stand through every reset: PWR_CLASS, SEC_LIFECYCLE, SEC_OWNER_KEY and MGMT_BOOT. -/
def partRegs (off : Nat) : Bool := off == 0x100008 || off == 0x300200 || off == 0x300208 || off == 0x300008

/-- What firmware still has of its own after a reset. -/
def State.keptMgmt (s : State) : MgmtSt :=
  { MgmtSt.reset with
    ledger := s.mgmt.ledger
    ownerKeys := s.mgmt.ownerKeys
    fuses := s.mgmt.fuses
    slots := s.mgmt.slots
    svnFloor := s.mgmt.svnFloor
    store := s.savedStore }

/-- A device reset: every unit as after reset but for the queue of commands, what keeps its contents without power, the
sensors and pins, and, under RESET_L, memory (R611). PWR_CAP takes the class value. -/
def State.coldReset (s : State) (keepMem : Bool) (ph : BoardPhase) : State :=
  let b := s.board
  let c := classSteps (s.fld 0x100008 1 0)
  let t : State := { State.reset with
    pending := s.pending
    free := s.free + 1
    regs := mapDrop (fun o => !partRegs o) s.regs
    mem := if keepMem then s.mem else s.mem.lose 0 (2 ^ 48) s.free
    poison := if keepMem then s.poison else []
    mgmt := s.keptMgmt
    pwr := { PwrSt.reset with capNow := 25000 * c }
    board := { BoardSt.reset with
      phase := ph
      log := b.log
      reported := b.reported
      refclk := b.refclk
      slotId := b.slotId
      vin := b.vin
      watts := b.watts } }
  t.setReg 0x100010 (BitVec.ofNat 64 c)

/-- Step 1 of the boot (R571): it waits while REFCLK is not locked (R616). -/
def State.startBoot (s : State) : State :=
  if s.board.refclk then s.onBoard (fun b => { b with phase := .boot })
  else (s.onBoard (fun b => { b with phase := .waitRef })).faultLog 3 0

/-! The input (R529 to R531). -/

/-- A trip: everything outside the always-on island is lost, FAULT_L is low and the cause recorded (R531). -/
def State.trip (s : State) (cause die : Nat) : State :=
  let s := s.faultLog cause die
  let b := s.board
  (s.coldReset false .tripped).onBoard (fun n => { n with
    alert := b.alert
    ibi := b.ibi
    ibiEn := b.ibiEn
    i3cIx := b.i3cIx
    dynAddr := b.dynAddr
    i3cOut := b.i3cOut
    ir := b.ir
    bscan := b.bscan
    capture := b.capture
    dr := b.dr })

/-- Power-on with VIN at 60 V or more: inrush, converters, island; SLOT_ID is sampled (R530, R610, R615). -/
def State.powerOn (s : State) (slot : BitVec 6) : State :=
  ((s.coldReset false .boot).onBoard (fun b => { b with slotId := slot })).startBoot

/-- The firmware events of an input excursion need a powered module outside M3. -/
def State.vinEvent (s : State) (vin : Nat) : State :=
  if s.awake then s.raiseMod 1 0x201 (pack [(vin, 0), (b2n (decide (8000 < vin)), 16)]) else s

/-- VIN_EXCURSION: VIN (10 mV) in 57 V up to 60 V, or above 80 V up to 84 V; the event once per excursion. -/
def execVinExcursion (vin : BitVec 16) (s : State) : Res :=
  let v := vin.toNat
  .next (
    let s := s.onBoard (fun b => { b with vin := v })
    if !s.islandOn ∨ s.board.phase = .tripped ∨ s.board.phase = .reset then s
    else if (5700 ≤ v ∧ v < 6000) ∨ (8000 < v ∧ v ≤ 8400) then
      let s := s.setFld 0x100000 1 1 (b2n (decide (v < 6000)))
      let s := s.alert 0
      if s.pwr.vinOut then s else (s.onPwr (fun p => { p with vinOut := true })).vinEvent v
    else s)

/-- VIN_RETURN: VIN within 60–80 V ends an excursion; a PWR_EN that waits for it powers the module on (R610). -/
def execVinReturn (vin : BitVec 16) (slot : BitVec 6) (s : State) : Res :=
  let v := vin.toNat
  .next (
    let s := s.onBoard (fun b => { b with vin := v })
    if v < 6000 ∨ 8000 < v then s
    else
      let s := (s.setFld 0x100000 1 1 0).onPwr (fun p => { p with vinOut := false })
      if s.board.phase = .waitVin then s.powerOn slot else s)

/-- INPUT_TRIP: the level has held for the table's time; a module without power does not trip. -/
def execInputTrip (k : VinTrip) (s : State) : Res :=
  .next (if !s.islandOn ∨ s.board.phase = .tripped then s
    else s.trip (match k with
      | .low => 0
      | .high => 1) 0)

/-- THERMAL_TRIP: TJ at 105 °C or more for 100 µs (R548). -/
def execThermalTrip (d : DieIx) (tj : BitVec 8) (s : State) : Res :=
  .next (if tj.toNat < 105 ∨ !s.awake then s else s.trip 2 d.val)

/-! PWR_EN and RESET_L (R610, R611). -/

/-- PWR_EN_ASSERT: with VIN at 60 V or more the module powers on; below, it waits. -/
def execPwrEnAssert (vin : BitVec 16) (slot : BitVec 6) (s : State) : Res :=
  .next (if s.board.phase ≠ .off then s
    else
      let s := s.onBoard (fun b => { b with vin := vin.toNat })
      if 6000 ≤ vin.toNat then s.powerOn slot else s.onBoard (fun b => { b with phase := .waitVin }))

/-- PWR_EN_DEASSERT: every domain loses power. -/
def execPwrEnDeassert (s : State) : Res := .next (s.coldReset false .off)

/-- RESET_L_ASSERT: every unit is reset, the island included; memory is not cleared. Ignored while off (R608). -/
def execResetLAssert (s : State) : Res := .next (if s.islandOn then s.coldReset true .reset else s)

/-- RESET_L_RELEASE: SLOT_ID is sampled and the boot starts. -/
def execResetLRelease (slot : BitVec 6) (s : State) : Res :=
  .next (if s.board.phase = .reset then (s.onBoard (fun b => { b with slotId := slot })).startBoot else s)

/-! The reference clock (R616). -/

/-- REFCLK_LOSS: absent while the management domain is powered, it resets the module, which waits for it. -/
def execRefclkLoss (s : State) : Res :=
  .next (
    let need := s.awake || s.board.phase == .recovery
    let s := s.onBoard (fun b => { b with refclk := false })
    if need then (s.faultLog 3 0).coldReset true .waitRef |>.alert 3 else s)

/-- REFCLK_LOCK: a boot that waits goes on. -/
def execRefclkLock (s : State) : Res :=
  .next (
    let s := s.onBoard (fun b => { b with refclk := true })
    if s.board.phase = .waitRef then s.onBoard (fun b => { b with phase := .boot }) else s)

/-! Boot (R568 to R571). -/

/-- The hash of the active owner key; none when SLOT is 0 or its slot is not written. -/
def State.ownerKey (s : State) : Option (List Byte) :=
  match s.fld 0x300208 4 0 with
  | 0 => none
  | k + 1 => s.mgmt.ownerKeys[k]?

/-- Why stage 0 refuses an image (the reasons of event 0x0408); none when R569's checks of the image pass. -/
def State.imageBad (s : State) (i : SlotImage) : Option Nat :=
  let life := s.fld 0x300200 1 0
  if !i.headOk ∨ (life = 3 ∧ i.owner) then some 1
  else if !Config.verifies Config.vendorKey i.head i.vsig then some 2
  else if life = 2 ∧ !((s.ownerKey).any (fun k => i.owner && Config.verifies k i.head i.osig)) then some 3
  else if sha384 i.body ≠ i.hash then some 4
  else if i.svn.toNat < s.mgmt.svnFloor then some 5
  else none

/-- As `imageBad`, for a flash slot, with its marks in the settings store. -/
def State.slotBad (s : State) (f : Option FlashSlot) : Option Nat :=
  match f with
  | none => some 1
  | some q =>
    match s.imageBad q.image with
    | some r => some r
    | none => if !q.good ∧ 3 ≤ q.attempts then some 6 else none

/-- VERSION of a slot's image. -/
def slotVersion : Option FlashSlot → Nat
  | some f => f.image.version.toNat
  | none => 0

/-- The slot stage 0 boots: the candidate with the higher VERSION, A when equal. -/
def State.bootSlot (s : State) : Option (Fin 2) :=
  let a := s.slotBad s.mgmt.slots[0]
  let b := s.slotBad s.mgmt.slots[1]
  match a, b with
  | none, none => some (if slotVersion s.mgmt.slots[0] < slotVersion s.mgmt.slots[1] then 1 else 0)
  | none, some _ => some 0
  | some _, none => some 1
  | some _, some _ => none

/-- RECOVERY (R570): FAULT_L low. The map of R620 gives this entry of the fault log no cause: a free value. -/
def State.recover (s : State) : State :=
  let (c, s) := s.fresh
  ((s.setFld 0x300000 15 12 5).onBoard (fun b => { b with phase := .recovery })).faultLog (c.toNat % 256) 0

/-- The pans' spare maps as the fuses have them (R141). -/
def State.loadSpares (s : State) : State :=
  s.mgmt.fuses.foldl (fun s (q : Nat × BitVec 64) =>
    let e := bitsOf q.2 15 12
    let k := bitsOf q.2 10 9
    let off := panBase q.1 + 0x100 + 0x10 * e + (if q.2.getLsbD 11 then 8 else 0)
    (s.setFld off (36 + k) (36 + k) 1).setFld off (9 * k + 8) (9 * k) (bitsOf q.2 8 0)) s

/-- The spare map replaces a physical row or column of an engine. -/
def State.replaced (s : State) (off x : Nat) : Bool :=
  (List.range 4).any (fun k => s.fld off (36 + k) (36 + k) == 1 && s.fld off (9 * k + 8) (9 * k) == x)

/-- Spare row or column number `k` of an engine stands behind its 256 data rows or columns (R94) and is in use, without being
replaced itself. -/
def State.spareUsed (s : State) (off x : Nat) : Bool :=
  decide (256 ≤ x ∧ x < 260) && s.fld off (36 + (x - 256)) (36 + (x - 256)) == 1 && !s.replaced off x

/-- Engines with a faulty cell in no replaced row or column, or in a spare that is in use, are unrepairable: fenced, with event
0x1004 (R142). -/
def State.unrepairable (s : State) (cells : List (ClusterIx × Fin 16 × BitVec 9 × BitVec 9)) : State :=
  (List.finRange 8).foldl (fun s p =>
    let bad (e : Fin 16) : Bool := cells.any (fun (c : ClusterIx × Fin 16 × BitVec 9 × BitVec 9) =>
      let off := panBase p.val + 0x100 + 0x10 * e.val
      let row := c.2.2.1.toNat
      let col := c.2.2.2.toNat
      c.1 == p && c.2.1 == e && ((!s.replaced off row && !s.replaced (off + 8) col) || s.spareUsed off row ||
        s.spareUsed (off + 8) col))
    let es := (List.finRange 16).filter bad
    if es.isEmpty then s
    else
      let m := (es.map (fun e => 2 ^ e.val)).foldl (· + ·) 0
      let s := es.foldl (fun s e => s.fence 0 p.val e.val 3) s
      (s.setFld (panBase p.val + 0x30) 47 32 m).raise (s.panSrc p.val) 0x1004 (BitVec.ofNat 64 m)) s

/-- Every fence takes effect while the units are idle (R521). -/
def State.allFences (s : State) : State :=
  let s := (List.finRange 8).foldl (fun s p => (s.panFences p).coreFences p) s
  let s := (List.finRange 8).foldl (fun s c => (List.finRange 32).foldl (fun s w => s.wayFence c w) s) s
  let s := (List.finRange 32).foldl (fun s i => s.sluFence i) s
  (List.range 128).foldl (fun s k =>
    if s.fenceSet 5 (k / 16) (k % 16) then s.setBit (xtlBase (k / 16) + 0x18) (k % 16) true else s) s

/-- Units that boot self-test covers once: 128 engines, 128 cores, 256 ways, 32 sluices, 128 slow-tier channels. -/
def bootUnits : Nat := 672

/-- Every stack is initialised and trained: MEM_STACK_s.TRAINED (R381). -/
def State.stacksTrained (s : State) : State :=
  (List.range 16).foldl (fun s k => s.setFld (memBase (k / 4) + 0x2000 + 0x100 * (k % 4)) 0 0 1) s

/-- Steps 3 to 5 of R571: spares and settings restored, memory, slow tier and fabric trained, self-tests. -/
def State.bootUnitsUp (s : State) (e : BootEnv) : State :=
  let s := s.loadSpares
  let s := s.mgmt.store.foldl (fun s (q : Nat × BitVec 64) => s.setReg q.1 (s.reg q.1 ||| q.2)) s
  let s := { (s.loseBytes 0 (2 ^ 42)).loseRetention with
    poison := []
    xtl := s.xtl.map (fun (x : XtlSt) => { x with ready := true }) }
  let s := s.stacksTrained.allFences.trainFabric
  let s := s.unrepairable e.cells
  let s := s.count 0x210470 (bootUnits - (e.tests.map (fun (q : FenceUnit × Bool) => fenceName q.1)).eraseDups.length)
  (e.tests.foldl (fun s (q : FenceUnit × Bool) => s.selfTest q.1 q.2) s).allFences

/-- The trips of the fault log that firmware has not reported (R531). -/
def State.reportTrips (s : State) : State :=
  let new := s.board.log.drop s.board.reported
  let s := new.foldl (fun s (r : FaultRec) =>
    if r.cause ≤ 2 then s.raiseMod 1 0x207 (pack [(r.cause, 0), (r.die, 2), (low 60 r.tide.toNat, 4)]) else s) s
  s.onBoard (fun b => { b with reported := b.log.length })

/-- Step 6 of R571: MODE = SERVICE, the Stacker enabled, MGMT_BOOT, the events of service, and the status feature's claims
(R614). -/
def State.service (s : State) (e : BootEnv) (k : Fin 2) (rej : List (Nat × Nat)) : State :=
  let s := s.intCtlWrite (setBits (s.reg 0x210000) 0 0 1)
  let s := s.allFences
  let s := (s.setFld (stkReg 0) 0 0 1).setReg 0x300008 (s.reg 0x300008 + 1)
  let s := (s.setFld 0x300000 15 12 4).setFld 0x300000 5 5 k.val
  let s := s.onMgmt (fun m => match m.slots[k] with
    | some f => { m with
        slots := m.slots.set k (some { f with good := true, attempts := 0 })
        svnFloor := f.image.svn.toNat
        version := f.image.version }
    | none => m)
  let s := s.onBoard (fun b => { b with phase := .run })
  let s := { s with int := { s.int with
    claims := [0x5000, 0x5001, 0x5002].foldl (fun m r => assocPut r 0xC4 m) s.int.claims } }
  let s := s.raiseMod 3 0x401 (pack [(e.ms.toNat, 0), (k.val, 16), (s.fld 0x300000 7 7, 17)])
  let s := rej.foldl (fun s (q : Nat × Nat) => s.raiseMod 3 0x408 (pack [(q.1, 0), (q.2, 1)])) s
  let s := s.reportTrips
  let s := if s.board.tookInBoot then
      (s.onBoard (fun b => { b with tookInBoot := false })).raiseMod 3 0x404 (pack [(1, 0), (1, 2)])
    else s
  match s.pwr.leaving with
  | some st => s.woken st
  | none => s

/-- BOOT: stage 0 picks a slot, or enters RECOVERY; stage 1 brings the units up to service. A boot that does not reach
service leaves its attempt counted and the module in boot. -/
def execBoot (e : BootEnv) (s : State) : Res :=
  .next (if s.board.phase ≠ .boot ∨ s.board.d1Failed then s
    else
      let bad (k : Fin 2) : List (Nat × Nat) := match s.slotBad s.mgmt.slots[k] with
        | some r => [(k.val, r)]
        | none => []
      match s.bootSlot with
      | none => s.recover
      | some k =>
        let s1 := s.onMgmt (fun m => match m.slots[k] with
          | some f => { m with slots := m.slots.set k (some { f with attempts := f.attempts + 1 }) }
          | none => m)
        if e.reaches then (s1.bootUnitsUp e).service e k (bad 0 ++ bad 1)
        else (s1.setFld 0x300000 15 12 1).setFld 0x300000 5 5 k.val)

/-! The watchdog (R566, R567). -/

/-- A write of MGMT_HEARTBEAT. -/
def execHeartbeatWrite (v : BitVec 64) (s : State) : Res := .next (if s.awake then s.setReg 0x300010 v else s)

/-- A sequenced command retires (R581): its status, RETIRED_SEQ and event 0x0402. -/
def State.retireCmd (s : State) (seq : BitVec 64) (status : Nat) : State :=
  let s := s.onMgmt (fun m => { m with
    retired := m.retired ++ [(seq, status)]
    current := match m.current with
      | some c => if c.seq = seq then none else some c
      | none => none })
  let next (n : BitVec 64) : BitVec 64 := if (assoc (n + 1) s.mgmt.retired).isSome then n + 1 else n
  let r := s.mgmt.retired.foldl (fun n _ => next n) (s.reg 0x300038)
  (s.setReg 0x300038 r).raiseMod 3 0x402 (pack [(low 48 seq.toNat, 16), (status, 0)])

/-! Exit from M3 (R557, R558). -/

/-- Registers of the always-on island (R557), and SEC_DEBUG, open until cold boot (R573). -/
def islandRegs (off : Nat) : Bool :=
  partRegs off || off == 0x100010 || decide (0x100200 ≤ off ∧ off < 0x100280) || off == 0x300210

/-- M3_EXIT: the boot sequence from stage 0. The island's registers, the tide number, the energy count, the alert register
and who is primary stand. -/
def execM3Exit (s : State) : Res :=
  .next (if s.pwr.leaving = some 3 then
      let t := s.coldReset false .boot
      let st := s.reg 0x300000
      let t : State := { t with
        regs := mapDrop (fun o => !islandRegs o) s.regs
        ctr := mapPut zero64 0x100400 (s.ctrAt 0x100400) []
        tide := { TideSt.reset with num := s.tide.num }
        pwr := { t.pwr with
          energyRem := s.pwr.energyRem
          vinOut := s.pwr.vinOut
          leaving := some 3
          exitEdge := s.pwr.exitEdge }
        board := { s.board with phase := .boot } }
      ((t.freshCores.setReg 0x300000 (st &&& 0x3C0)).setFld 0x100000 7 4 5).startBoot
    else s)

end Sys2Proof.Machine
end

