-- ==== Sys2Proof/Machine/Branch.lean ====
section
/-! DEFINITION. Branches, jumps and the trap return (R267 to R269, R257). -/

namespace Sys2Proof.Machine

/-- The core goes to `f`'s address; the instruction counts as issued. -/
def State.jump (s : State) (c : CoreIx) (f : CoreSt → CoreSt) (dst : CoreSt → BitVec 64) : State :=
  (s.onCore c (fun k => { f k with pc := dst k })).count (coreCtr c 0x400) 1

/-- A BR-form branch: to `PC + 8·OFF` when the condition holds, else to the next word (R267). -/
def branch (c : CoreIx) (ra rb : RegIx) (off : BitVec 32) (p : BitVec 64 → BitVec 64 → Bool) (s : State) : Res :=
  issueWhen c [ra, rb] [] (fun s =>
    s.jump c id (fun k => if p (k.sget ra) (k.sget rb) then k.target off else k.pc + 8)) s

def execBeq (c : CoreIx) (ra rb : RegIx) (off : BitVec 32) (s : State) : Res :=
  branch c ra rb off (fun a b => decide (a = b)) s
def execBne (c : CoreIx) (ra rb : RegIx) (off : BitVec 32) (s : State) : Res :=
  branch c ra rb off (fun a b => decide (a ≠ b)) s
def execBlt (c : CoreIx) (ra rb : RegIx) (off : BitVec 32) (s : State) : Res :=
  branch c ra rb off (fun a b => a.slt b) s
def execBge (c : CoreIx) (ra rb : RegIx) (off : BitVec 32) (s : State) : Res :=
  branch c ra rb off (fun a b => !a.slt b) s
def execBltu (c : CoreIx) (ra rb : RegIx) (off : BitVec 32) (s : State) : Res :=
  branch c ra rb off (fun a b => a.ult b) s
def execBgeu (c : CoreIx) (ra rb : RegIx) (off : BitVec 32) (s : State) : Res :=
  branch c ra rb off (fun a b => !a.ult b) s

/-- JAL (R267): the link register takes PC + 8. -/
def execJal (c : CoreIx) (rd : RegIx) (off : BitVec 32) (s : State) : Res :=
  issueWhen c [rd] [] (fun s => s.jump c (fun k => k.sput rd (k.pc + 8)) (fun k => k.target off)) s

/-- JALR (R267, R268): the target is s[RA] + IMM as it stood before the link register is written; a misaligned
target is reached, and its fetch takes cause 0x02 (TRAP_ENTRY). -/
def execJalr (c : CoreIx) (rd ra : RegIx) (imm : BitVec 32) (s : State) : Res :=
  issueWhen c [rd, ra] [] (fun s => s.jump c (fun k => k.sput rd (k.pc + 8)) (fun k => k.addr ra imm)) s

/-- The word of TRET. -/
def tretWord : BitVec 64 := pack [(0x0A, 57), (1, 41)]

/-- TRET (R257, R269): clears TRAP_ACTIVE and resumes at TRAP_EPC; cause 0x01 outside a handler. -/
def execTret (c : CoreIx) (s : State) : Res :=
  issueWhen c [] [] (fun s =>
    if s.core[c].trapActive then s.jump c (fun k => { k with trapActive := false }) (fun k => k.trapEpc)
    else s.precise c 1 tretWord) s

end Sys2Proof.Machine
end

