-- ==== Sys2Proof/Machine/BitRead.lean ====
section
/-! DEFINITION. Reading coded streams (R393): bits of either order, canonical prefix codes, the CRCs of the containers, and
Deflate with its zlib wrapper (RFC 1950, RFC 1951). Log entry 9. -/

namespace Sys2Proof.Machine

/-- The bytes of a stream as numbers. -/
def byteNats (l : List Byte) : Array Nat := (l.map (·.toNat)).toArray

/-- Bit `p` of a stream, least significant bit of a byte first. -/
def bitLsb (a : Array Nat) (p : Nat) : Option Nat := (a[p / 8]?).map (fun b => b / 2 ^ (p % 8) % 2)

/-- Bit `p` of a stream, most significant bit of a byte first. -/
def bitMsb (a : Array Nat) (p : Nat) : Option Nat := (a[p / 8]?).map (fun b => b / 2 ^ (7 - p % 8) % 2)

/-- `n` bits from `p`, the first the least significant; none past the end. -/
def readLsb (a : Array Nat) (p : Nat) : Nat → Option Nat
  | 0 => some 0
  | n + 1 =>
    match bitLsb a (p + n), readLsb a p n with
    | some b, some v => some (b * 2 ^ n + v)
    | _, _ => none

/-- `n` bits from `p`, the first the most significant; none past the end. -/
def readMsb (a : Array Nat) (p : Nat) : Nat → Option Nat
  | 0 => some 0
  | n + 1 =>
    match readMsb a p n, bitMsb a (p + n) with
    | some v, some b => some (2 * v + b)
    | _, _ => none

/-- `n` bits as a two's complement number. -/
def readSigned (a : Array Nat) (p n : Nat) : Option Int := (readMsb a p n).map (fun v => if n = 0 then 0 else codeInt n v)

/-- Big-endian bytes. -/
def beNat (l : List Byte) : Nat := l.foldl (fun v b => 256 * v + b.toNat) 0

/-- A canonical prefix code: the number of codes of each length from 1 on, and the symbols in code order. -/
structure Huff where
  counts : List Nat
  syms : Array Nat
  deriving DecidableEq, Repr, Inhabited

/-- Reads one symbol: at each length, the code read so far, the first code of the length, and its place among the symbols. -/
def huffWalk (bit : Nat → Option Nat) (syms : Array Nat) : List Nat → Nat → Nat → Nat → Nat → Option (Nat × Nat)
  | [], _, _, _, _ => none
  | c :: l, code, first, ix, p =>
    match bit p with
    | none => none
    | some b =>
      let code := code + b
      if code < first + c then (syms[ix + (code - first)]?).map (fun s => (s, p + 1))
      else huffWalk bit syms l (2 * code) (2 * (first + c)) (ix + c) (p + 1)

/-- A symbol of a code, and the position after it. -/
def Huff.read (h : Huff) (bit : Nat → Option Nat) (p : Nat) : Option (Nat × Nat) := huffWalk bit h.syms h.counts 0 0 0 p

/-- Whether the lengths fit a prefix code. -/
def kraftOk (counts : List Nat) : Bool :=
  decide ((counts.zipIdx.map (fun (c, k) => c * 2 ^ (15 - k))).foldl (· + ·) 0 ≤ 2 ^ 16)

/-- The code of a list of code lengths, 0 for a symbol without a code (RFC 1951 3.2.2). -/
def huffOf (lens : List Nat) : Option Huff :=
  let ks := (List.range 15).map (· + 1)
  let counts := ks.map (fun k => lens.count k)
  if kraftOk counts then
    some ⟨counts, (ks.flatMap (fun k => (lens.zipIdx.filter (fun q => q.1 = k)).map (·.2))).toArray⟩
  else none

/-! Deflate. -/

/-- Copies `n` bytes from `d` back. -/
def copyBack (d : Nat) : Nat → Array Nat → Array Nat
  | 0, out => out
  | n + 1, out => copyBack d n (out.push ((out[out.size - d]?).getD 0))

/-- Base and extra bits of a length symbol less 257. -/
def lenCode (i : Nat) : Nat × Nat :=
  if i < 8 then (3 + i, 0) else if i = 28 then (258, 0) else (2 ^ (i / 4 - 1) * (4 + i % 4) + 3, i / 4 - 1)

/-- Base and extra bits of a distance symbol. -/
def distCode (i : Nat) : Nat × Nat :=
  if i < 4 then (1 + i, 0) else (2 ^ (i / 2 - 1) * (2 + i % 2) + 1, i / 2 - 1)

/-- Where decompression stands: the next bit, the output, and whether all went well. -/
structure Inflated where
  pos : Nat
  out : Array Nat
  ok : Bool
  deriving DecidableEq, Repr

/-- The symbols of one compressed block. -/
def inflateCodes (a : Array Nat) (lit dist : Huff) : Nat → Nat → Array Nat → Inflated
  | 0, p, out => ⟨p, out, false⟩
  | n + 1, p, out =>
    match lit.read (bitLsb a) p with
    | none => ⟨p, out, false⟩
    | some (s, p) =>
      if s < 256 then inflateCodes a lit dist n p (out.push s)
      else if s = 256 then ⟨p, out, true⟩
      else if 285 < s then ⟨p, out, false⟩
      else
        let (lb, le) := lenCode (s - 257)
        match readLsb a p le, dist.read (bitLsb a) (p + le) with
        | some x, some (t, p) =>
          if 29 < t then ⟨p, out, false⟩
          else
            let (db, de) := distCode t
            (match readLsb a p de with
              | none => ⟨p, out, false⟩
              | some y =>
                if out.size < db + y then ⟨p, out, false⟩
                else inflateCodes a lit dist n (p + de) (copyBack (db + y) (lb + x) out))
        | _, _ => ⟨p, out, false⟩

/-- The code lengths of a dynamic block: `n` of them, repeats expanded. -/
def inflateLens (a : Array Nat) (h : Huff) (n : Nat) : Nat → Nat → List Nat → Option (List Nat × Nat)
  | 0, _, _ => none
  | k + 1, p, ls =>
    if n ≤ ls.length then if ls.length = n then some (ls, p) else none
    else
      match h.read (bitLsb a) p with
      | none => none
      | some (s, p) =>
        if s < 16 then inflateLens a h n k p (ls ++ [s])
        else
          let (v, base, ex) : Option Nat × Nat × Nat :=
            if s = 16 then (ls.getLast?, 3, 2) else if s = 17 then (some 0, 3, 3) else (some 0, 11, 7)
          match v, readLsb a p ex with
          | some v, some x => inflateLens a h n k (p + ex) (ls ++ List.replicate (base + x) v)
          | _, _ => none

/-- The codes of a dynamic block, and the position after them. -/
def inflateTables (a : Array Nat) (p : Nat) : Option (Huff × Huff × Nat) :=
  match readLsb a p 5, readLsb a (p + 5) 5, readLsb a (p + 10) 4 with
  | some hl, some hd, some hc =>
    let order := [16, 17, 18, 0, 8, 7, 9, 6, 10, 5, 11, 4, 12, 3, 13, 2, 14, 1, 15]
    let cl := (List.range (hc + 4)).map (fun i => (readLsb a (p + 14 + 3 * i) 3).getD 0)
    let lens := (List.range 19).map (fun s => ((order.zip cl).find? (fun q => q.1 = s)).elim 0 (·.2))
    if 8 * a.size < p + 14 + 3 * (hc + 4) ∨ 29 < hl ∨ 29 < hd then none
    else
      (match huffOf lens with
        | none => none
        | some h =>
          let n := hl + 257 + hd + 1
          match inflateLens a h n (n + 1) (p + 14 + 3 * (hc + 4)) [] with
          | none => none
          | some (ls, p) =>
            match huffOf (ls.take (hl + 257)), huffOf (ls.drop (hl + 257)) with
            | some l, some d => some (l, d, p)
            | _, _ => none)
  | _, _, _ => none

/-- The fixed codes (RFC 1951 3.2.6). -/
def fixedLit : List Nat := List.replicate 144 8 ++ List.replicate 112 9 ++ List.replicate 24 7 ++ List.replicate 8 8
def fixedDist : List Nat := List.replicate 30 5

/-- The blocks of a Deflate stream. -/
def inflateBlocks (a : Array Nat) : Nat → Nat → Array Nat → Inflated
  | 0, p, out => ⟨p, out, false⟩
  | n + 1, p, out =>
    match readLsb a p 1, readLsb a (p + 1) 2 with
    | some last, some typ =>
      let r : Inflated :=
        match typ with
        | 0 =>
          let b := (p + 3 + 7) / 8
          (match readLsb a (8 * b) 16, readLsb a (8 * b + 16) 16 with
            | some len, some nlen =>
              let take := min len (a.size - (b + 4))
              if len + nlen ≠ 65535 then ⟨p, out, false⟩
              else ⟨8 * (b + 4 + take), out ++ a.extract (b + 4) (b + 4 + take), take = len⟩
            | _, _ => ⟨p, out, false⟩)
        | 1 =>
          (match huffOf fixedLit, huffOf fixedDist with
            | some l, some d => inflateCodes a l d (8 * a.size + 1) (p + 3) out
            | _, _ => ⟨p, out, false⟩)
        | 2 =>
          (match inflateTables a (p + 3) with
            | some (l, d, p) => inflateCodes a l d (8 * a.size + 1) p out
            | none => ⟨p, out, false⟩)
        | _ => ⟨p, out, false⟩
      if !r.ok ∨ last = 1 then r else inflateBlocks a n r.pos r.out
    | _, _ => ⟨p, out, false⟩

/-- The bytes of a zlib stream as far as they can be had (RFC 1950); its check value is not examined. -/
def zlibInflate (l : List Byte) : Array Nat :=
  let a := byteNats l
  let cmf := (a[0]?).getD 0
  let flg := (a[1]?).getD 0
  if cmf % 16 ≠ 8 ∨ 7 < cmf / 16 ∨ (256 * cmf + flg) % 31 ≠ 0 ∨ flg / 32 % 2 = 1 then #[]
  else (inflateBlocks a (8 * a.size + 1) 16 #[]).out

/-! CRCs. -/

/-- CRC-32 of PNG chunks: reflected polynomial 0xEDB88320, initial and final value all ones. -/
def crc32 (l : List Byte) : Nat :=
  Nat.xor (l.foldl (fun r b => crcReflByte 0xEDB88320 r b.toNat) 0xFFFFFFFF) 0xFFFFFFFF

/-- A bit-by-bit CRC of width `w`, most significant bit first, from 0. -/
def crcMsbStep (w poly : Nat) : Nat → Nat → Nat
  | 0, r => r
  | n + 1, r => crcMsbStep w poly n (if r / 2 ^ (w - 1) % 2 = 1 then Nat.xor (2 * r % 2 ^ w) poly else 2 * r)

def crcMsb (w poly : Nat) (l : List Nat) : Nat :=
  l.foldl (fun r b => crcMsbStep w poly 8 (Nat.xor r (b * 2 ^ (w - 8)))) 0

end Sys2Proof.Machine
end

