-- ==== Sys2Proof/Machine/Flac.lean ====
section
/-! DEFINITION. FLAC (R393, RFC 9639) and the Ogg container of Opus (RFC 3533, RFC 7845), with the damage of R403. What the
Opus reference decoder makes of a packet is `Config.opusDecode`. Log entry 9. -/

namespace Sys2Proof.Machine

/-- What an Ogg Opus or FLAC payload holds: channels, rate, bits and samples
interleaved, damage concealed as R403 says, with the first damaged packet or frame and their count. -/
inductive Clip where
  | badHeader
  | software
  | audio (chans rate bits : Nat) (samples : List Int) (first count : Nat)
  deriving DecidableEq, Repr, Inhabited

/-! FLAC. -/

/-- STREAMINFO: sample rate, channels, bits per sample, samples in all (0 when unknown). -/
structure FlacInfo where
  rate : Nat
  chans : Nat
  bits : Nat
  total : Nat
  maxBlock : Nat
  deriving DecidableEq, Repr

/-- The metadata blocks from byte `p`: STREAMINFO first; the byte after the last block. -/
def flacMeta (a : Array Nat) : Nat → Nat → Option FlacInfo → Option (FlacInfo × Nat)
  | 0, _, _ => none
  | n + 1, p, q =>
    match readMsb a (8 * p) 1, readMsb a (8 * p + 1) 7, readMsb a (8 * p + 8) 24 with
    | some last, some typ, some len =>
      let b := 8 * (p + 4)
      let q' : Option FlacInfo :=
        match q with
        | some i => some i
        | none =>
          if typ = 0 ∧ len = 34 then
            (match readMsb a (b + 16) 16, readMsb a (b + 80) 20, readMsb a (b + 100) 3, readMsb a (b + 103) 5, readMsb a (b + 108) 36 with
              | some m, some r, some c, some s, some t => if m < 16 ∨ s < 3 then none else some ⟨r, c + 1, s + 1, t, m⟩
              | _, _, _, _, _ => none)
          else none
      if a.size < p + 4 + len ∨ typ = 127 then none
      else
        match q' with
        | none => none
        | some i => if last = 1 then some (i, p + 4 + len) else flacMeta a n (p + 4 + len) (some i)
    | _, _, _ => none

/-- A frame header: its first sample's number, samples in the block, channel assignment, bits per sample, and its length in
bytes. -/
structure FlacHead where
  first : Nat
  block : Nat
  assign : Nat
  bits : Nat
  len : Nat
  deriving DecidableEq, Repr

/-- The coded number from byte `p`: its value and its bytes. -/
def flacNumber (a : Array Nat) (p : Nat) : Option (Nat × Nat) :=
  match a[p]? with
  | none => none
  | some b =>
    let n := ((List.range 7).find? (fun k => b / 2 ^ (7 - k) % 2 = 0)).getD 7
    if n = 0 then some (b, 1)
    else if n = 1 then none
    else
      let l := (List.range (n - 1)).map (fun k => (a[p + 1 + k]?).getD 0)
      if l.all (fun c => c / 64 == 2) then some (l.foldl (fun v c => 64 * v + c % 64) (b % 2 ^ (7 - n)), n) else none

/-- A frame header at byte `p`, whole and with a matching CRC-8. -/
def flacHead (a : Array Nat) (i : FlacInfo) (p : Nat) : Option FlacHead :=
  match readMsb a (8 * p) 15, a[p + 1]?, a[p + 2]?, a[p + 3]?, flacNumber a (p + 4) with
  | some sync, some b1, some b2, some b3, some (num, nl) =>
    let bs := b2 / 16
    let sr := b2 % 16
    let ss := b3 / 2 % 8
    let q := p + 4 + nl
    let bl := if bs = 6 then 1 else if bs = 7 then 2 else 0
    let rl := if sr = 12 then 1 else if sr = 13 ∨ sr = 14 then 2 else 0
    let block := match bs with
      | 0 => 0
      | 1 => 192
      | 6 => (a[q]?).getD 0 + 1
      | 7 => 256 * (a[q]?).getD 0 + (a[q + 1]?).getD 0 + 1
      | _ => if bs < 6 then 144 * 2 ^ bs else 2 ^ bs
    let bits := match ss with
      | 0 => i.bits
      | 1 => 8
      | 2 => 12
      | 4 => 16
      | 5 => 20
      | 6 => 24
      | 7 => 32
      | _ => 0
    let e := q + bl + rl
    let assign := b3 / 16
    let chans := if assign < 8 then assign + 1 else 2
    if sync ≠ 0x7FFC ∨ block = 0 ∨ sr = 15 ∨ 10 < assign ∨ bits ≠ i.bits ∨ chans ≠ i.chans ∨ b3 % 2 = 1 then none
    else if some (crcMsb 8 0x07 (a.extract p e).toList) ≠ a[e]? then none
    else some ⟨if b1 % 2 = 1 then num else num * i.maxBlock, block, assign, bits, e + 1 - p⟩
  | _, _, _, _, _ => none

/-- Zeros before the next one bit, and the position after it. -/
def unary (a : Array Nat) : Nat → Nat → Nat → Option (Nat × Nat)
  | 0, _, _ => none
  | n + 1, p, z =>
    match bitMsb a p with
    | none => none
    | some b => if b = 1 then some (z, p + 1) else unary a n (p + 1) (z + 1)

/-- A zigzag-coded residual. -/
def unfold2 (v : Nat) : Int := if v % 2 = 0 then (v / 2 : Nat) else -(((v + 1) / 2 : Nat) : Int)

/-- `n` residuals of one partition. -/
def riceCodes (a : Array Nat) (k : Nat) : Nat → Nat → Array Int → Option (Array Int × Nat)
  | 0, p, out => some (out, p)
  | n + 1, p, out =>
    match unary a (8 * a.size) p 0 with
    | none => none
    | some (q, p) =>
      match readMsb a p k with
      | none => none
      | some x => riceCodes a k n (p + k) (out.push (unfold2 (q * 2 ^ k + x)))

/-- `n` residuals written without a code, of `w` bits. -/
def rawCodes (a : Array Nat) (w : Nat) : Nat → Nat → Array Int → Option (Array Int × Nat)
  | 0, p, out => some (out, p)
  | n + 1, p, out =>
    match readSigned a p w with
    | none => none
    | some v => rawCodes a w n (p + w) (out.push v)

/-- The partitions of a residual in turn. -/
def ricePartitions (a : Array Nat) (par : Nat) : List Nat → Nat → Array Int → Option (Array Int × Nat)
  | [], p, out => some (out, p)
  | n :: l, p, out =>
    match readMsb a p par with
    | none => none
    | some k =>
      if k = 2 ^ par - 1 then
        (match readMsb a (p + par) 5 with
          | none => none
          | some w => (rawCodes a w n (p + par + 5) out).bind (fun (out, p) => ricePartitions a par l p out))
      else (riceCodes a k n (p + par) out).bind (fun (out, p) => ricePartitions a par l p out)

/-- The residual of a subframe of `block` samples after `order` warm-up samples. -/
def flacResidual (a : Array Nat) (p block order : Nat) : Option (Array Int × Nat) :=
  match readMsb a p 2, readMsb a (p + 2) 4 with
  | some m, some po =>
    let per := block / 2 ^ po
    if 1 < m ∨ block % 2 ^ po ≠ 0 ∨ per < order then none
    else ricePartitions a (4 + m) ((List.range (2 ^ po)).map (fun k => if k = 0 then per - order else per)) (p + 6) #[]
  | _, _ => none

/-- Samples predicted from those before: `cs` weighs the latest first. -/
def predict (cs : List Int) (shift : Nat) (warm : Array Int) (res : Array Int) : Array Int :=
  res.foldl (fun (out : Array Int) r =>
    let s := cs.zipIdx.foldl (fun (s : Int) (c, k) => s + c * (out[out.size - 1 - k]?).getD 0) 0
    out.push (s / 2 ^ shift + r)) warm

/-- The fixed predictors. -/
def fixedCoefs : Nat → List Int
  | 0 => []
  | 1 => [1]
  | 2 => [2, -1]
  | 3 => [3, -3, 1]
  | _ => [4, -6, 4, -1]

/-- A subframe at bit `p` of `block` samples of `bits` bits, and the position after it. -/
def flacSub (a : Array Nat) (p block bits : Nat) : Option (Array Int × Nat) :=
  match readMsb a p 1, readMsb a (p + 1) 6, readMsb a (p + 7) 1 with
  | some 0, some typ, some wf =>
    (if wf = 0 then some (0, p + 8) else (unary a (8 * a.size) (p + 8) 0).map (fun (z, p) => (z + 1, p))).bind
      fun (waste, p) =>
        if bits ≤ waste then none
        else
          let w := bits - waste
          let up (r : Option (Array Int × Nat)) : Option (Array Int × Nat) :=
            r.map (fun (l, p) => (l.map (fun v => v * 2 ^ waste), p))
          if typ = 0 then up ((readSigned a p w).map (fun v => (Array.replicate block v, p + w)))
          else if typ = 1 then up (rawCodes a w block p #[])
          else if 8 ≤ typ ∧ typ ≤ 12 then
            let o := typ - 8
            if block < o then none
            else up ((rawCodes a w o p #[]).bind (fun (warm, p) =>
              (flacResidual a p block o).map (fun (res, p) => (predict (fixedCoefs o) 0 warm res, p))))
          else if 32 ≤ typ then
            let o := typ - 31
            if block < o then none
            else up ((rawCodes a w o p #[]).bind (fun (warm, p) =>
              match readMsb a p 4, readSigned a (p + 4) 5 with
              | some pr, some sh =>
                if pr = 15 ∨ sh < 0 then none
                else (rawCodes a (pr + 1) o (p + 9) #[]).bind (fun (cs, p) =>
                  (flacResidual a p block o).map (fun (res, p) => (predict cs.toList sh.toNat warm res, p)))
              | _, _ => none))
          else none
  | _, _, _ => none

/-- The subframes of a frame in turn: bits per sample of each. -/
def flacSubs (a : Array Nat) (block : Nat) : List Nat → Nat → List (Array Int) → Option (List (Array Int) × Nat)
  | [], p, acc => some (acc, p)
  | w :: l, p, acc => (flacSub a p block w).bind (fun (x, p) => flacSubs a block l p (acc ++ [x]))

/-- The samples of a frame with header `h` at byte `p`, interleaved, and the byte after it; none for a decode error or a CRC-16
that does not match. -/
def flacFrame (a : Array Nat) (h : FlacHead) (p : Nat) : Option (List Int × Nat) :=
  let ws := match h.assign with
    | 8 => [h.bits, h.bits + 1]
    | 9 => [h.bits + 1, h.bits]
    | 10 => [h.bits, h.bits + 1]
    | n => List.replicate (n + 1) h.bits
  match flacSubs a h.block ws (8 * (p + h.len)) [] with
  | none => none
  | some (xs, q) =>
    let e := (q + 7) / 8
    let g (k t : Nat) : Int := ((xs[k]?).bind (fun x => x[t]?)).getD 0
    let at_ (t : Nat) : List Int :=
      match h.assign with
      | 8 => [g 0 t, g 0 t - g 1 t]
      | 9 => [g 0 t + g 1 t, g 1 t]
      | 10 =>
        let m := 2 * g 0 t + g 1 t % 2
        [(m + g 1 t) / 2, (m - g 1 t) / 2]
      | n => (List.range (n + 1)).map (fun k => g k t)
    if readMsb a (8 * e) 16 = some (crcMsb 16 0x8005 (a.extract p e).toList) then
      some ((List.range h.block).flatMap at_, e + 2)
    else none

/-- The next header from byte `p` on whose frame begins at sample `n` or later. -/
def flacNext (a : Array Nat) (i : FlacInfo) (n : Nat) : Nat → Nat → Option (Nat × FlacHead)
  | 0, _ => none
  | k + 1, p =>
    if a.size ≤ p then none
    else
      match flacHead a i p with
      | some h => if n ≤ h.first then some (p, h) else flacNext a i n k (p + 1)
      | none => flacNext a i n k (p + 1)

/-- What has come of the frames: samples interleaved, samples per channel, the first damaged frame, how many are, and how many
frames there were. -/
structure FlacOut where
  out : Array Int
  done : Nat
  first : Option Nat
  count : Nat
  ix : Nat

/-- One frame's place filled with samples, or with silence for a damaged one. -/
def FlacOut.put (o : FlacOut) (chans : Nat) (l : Option (List Int)) (n : Nat) : FlacOut :=
  match l with
  | some l => { o with out := o.out ++ l.toArray, done := o.done + n, ix := o.ix + 1 }
  | none =>
    { out := o.out ++ Array.replicate (chans * n) 0
      done := o.done + n
      first := o.first.or (some o.ix)
      count := o.count + 1
      ix := o.ix + 1 }

/-- The frames from byte `p` on. A damaged frame is silent for its samples, and the stream goes on at the next header of a
later sample; without a header it is silent up to that header's sample, or to the end. -/
def flacFrames (a : Array Nat) (i : FlacInfo) : Nat → Nat → FlacOut → FlacOut
  | 0, _, o => o
  | n + 1, p, o =>
    if a.size ≤ p ∨ (i.total ≠ 0 ∧ i.total ≤ o.done) then o
    else
      match flacHead a i p with
      | some h =>
        (match flacFrame a h p with
          | some (l, e) => flacFrames a i n e (o.put i.chans (some l) h.block)
          | none =>
            let o := o.put i.chans none h.block
            match flacNext a i o.done (a.size + 1) (p + 1) with
            | some (q, _) => flacFrames a i n q o
            | none => o)
      | none =>
        match flacNext a i o.done (a.size + 1) (p + 1) with
        | some (q, h) => flacFrames a i n q (o.put i.chans none (h.first - o.done))
        | none => if i.total = 0 then o else o.put i.chans none (i.total - o.done)

/-- Decodes a FLAC payload. More than two channels go to software before any frame is decoded. -/
def parseFlac (l : List Byte) : Clip :=
  let a := byteNats l
  if readMsb a 0 32 ≠ some 0x664C6143 then .badHeader
  else
    match flacMeta a (a.size + 1) 4 none with
    | none => .badHeader
    | some (i, p) =>
      if 2 < i.chans then .software
      else
        let o := flacFrames a i (a.size + 1) p ⟨#[], 0, none, 0, 0⟩
        .audio i.chans i.rate i.bits (if i.total = 0 then o.out else o.out.extract 0 (i.chans * i.total)).toList (o.first.getD 0) o.count

/-! Ogg Opus. -/

/-- Little-endian bytes. -/
def oggNat (l : List Byte) : Nat := beNat l.reverse

/-- A page: its granule position, serial number, whether it continues a packet, segment sizes, and data. -/
structure OggPage where
  granule : Nat
  serial : Nat
  cont : Bool
  segs : List Nat
  data : List Byte
  deriving DecidableEq, Repr

/-- The pages with a matching CRC; bytes that begin none are passed over. -/
def oggPages : Nat → List Byte → List OggPage
  | 0, _ => []
  | n + 1, l =>
    if l.length < 27 then []
    else
      let ns := beNat ((l.drop 26).take 1)
      let segs := ((l.drop 27).take ns).map (·.toNat)
      let size := 27 + ns + segs.foldl (· + ·) 0
      let page := l.take size
      let crc := crcMsb 32 0x04C11DB7 ((page.take 22 ++ List.replicate 4 (0 : Byte) ++ page.drop 26).map (fun b => b.toNat))
      if beNat (l.take 5) = 0x4F67675300 ∧ size ≤ l.length ∧ crc = oggNat ((l.drop 22).take 4) then
        ⟨oggNat ((l.drop 6).take 8), oggNat ((l.drop 14).take 4), ((l.drop 5).take 1).any (fun b => b.getLsbD 0), segs, page.drop (27 + ns)⟩
          :: oggPages n (l.drop size)
      else oggPages n (l.drop 1)

/-- The packets of a page's segments: those that end in it, the bytes of one that does not. -/
def oggSegs : List Nat → List Byte → List Byte → List (List Byte) → List (List Byte) × List Byte
  | [], _, cur, acc => (acc, cur)
  | n :: l, d, cur, acc =>
    let cur := cur ++ d.take n
    if n < 255 then oggSegs l (d.drop n) [] (acc ++ [cur]) else oggSegs l (d.drop n) cur acc

/-- The packets of a logical stream. -/
def oggPackets (ps : List OggPage) : List (List Byte) :=
  (ps.foldl (fun (q : List (List Byte) × List Byte) p =>
    let (l, cur) := oggSegs p.segs p.data (if p.cont then q.2 else []) []
    (q.1 ++ l, cur)) (([] : List (List Byte)), ([] : List Byte))).1

/-- Decodes an Ogg Opus payload: the identification and comment headers, then the packets through the reference decoder, the
pre-skip and what lies past the last page's granule position dropped (RFC 7845). -/
def parseOpus (l : List Byte) : Clip :=
  let pages := oggPages l.length l
  let mine : List OggPage := match pages with
    | [] => []
    | p :: _ => pages.filter (fun q => q.serial = p.serial)
  match oggPackets mine with
  | head :: tags :: rest =>
    let b (i : Nat) : Nat := oggNat ((head.drop i).take 1)
    let chans := b 9
    let skip := oggNat ((head.drop 10).take 2)
    if beNat (head.take 8) ≠ 0x4F70757348656164 ∨ head.length < 19 ∨ 15 < b 8 ∨ beNat (tags.take 8) ≠ 0x4F70757354616773 ∨ chans = 0 then
      .badHeader
    else if b 18 ≠ 0 then .software
    else if 2 < chans then .badHeader
    else
      let r := Config.opusDecode chans (oggNat ((head.drop 16).take 2)) rest
      let all := r.flatMap (·.1)
      let last := (mine.map (·.granule)).foldl (fun m g => if g < 2 ^ 63 then max m g else m) 0
      let bad := (r.zipIdx.filter (fun q => q.1.2)).map (·.2)
      .audio chans 48000 16 ((all.take (chans * last)).drop (chans * skip)) (bad.headD 0) bad.length
  | _ => .badHeader

end Sys2Proof.Machine
end

