-- ==== Sys2Proof/Machine/Jpeg.lean ====
section
/-! DEFINITION. JPEG (R393, ITU-T T.81): markers, tables, baseline and progressive Huffman scans with restart intervals, and
the damage of R403. Log entry 9. -/

namespace Sys2Proof.Machine

/-- One component of a JPEG: sampling factors, blocks in a row of blocks, and dequantized coefficients, 64 to a block in
raster order. -/
structure JpegComp where
  hs : Nat
  vs : Nat
  perRow : Nat
  blocks : List (List Int)
  deriving DecidableEq, Repr, Inhabited

/-- What a JPEG payload holds: a damaged stream header; a coding that the table of R393 sends to
software; or an image with the MCUs that R403 makes grey, the width of a row of MCUs, and an MCU's size. -/
inductive Jpeg where
  | badHeader
  | software
  | image (w h mcuRow mcuW mcuH : Nat) (comps : List JpegComp) (grey : List Nat)
  deriving DecidableEq, Repr, Inhabited

/-- Raster place of each coefficient in zigzag order. -/
def zigzag : List Nat :=
  [0, 1, 8, 16, 9, 2, 3, 10, 17, 24, 32, 25, 18, 11, 4, 5, 12, 19, 26, 33, 40, 48, 41, 34, 27, 20, 13, 6, 7, 14, 21, 28]
  ++ [35, 42, 49, 56, 57, 50, 43, 36, 29, 22, 15, 23, 30, 37, 44, 51, 58, 59, 52, 45, 38, 31, 39, 46, 53, 60, 61, 54, 47, 55, 62, 63]

/-- A component of the frame: its id, sampling factors, quantization table selector, the table in force at its first scan,
and whether its DC coefficients have been scanned. -/
structure JComp where
  id : Nat
  hs : Nat
  vs : Nat
  tq : Nat
  quant : Option (Array Nat)
  seen : Bool
  deriving DecidableEq, Repr, Inhabited

/-- The frame header. -/
structure JFrame where
  w : Nat
  h : Nat
  prog : Bool
  comps : List JComp
  deriving DecidableEq, Repr

def JFrame.hmax (f : JFrame) : Nat := (f.comps.map (·.hs)).foldl max 1
def JFrame.vmax (f : JFrame) : Nat := (f.comps.map (·.vs)).foldl max 1
/-- MCUs in a row, and rows of MCUs. -/
def JFrame.mcusX (f : JFrame) : Nat := (f.w + 8 * f.hmax - 1) / (8 * f.hmax)
def JFrame.mcusY (f : JFrame) : Nat := (f.h + 8 * f.vmax - 1) / (8 * f.vmax)
def JFrame.comp (f : JFrame) (i : Nat) : JComp := (f.comps[i]?).getD default

/-- A scan header: component index, DC and AC table of each component; spectral selection and successive approximation. -/
structure JScan where
  comps : List (Nat × Nat × Nat)
  ss : Nat
  se : Nat
  ah : Nat
  al : Nat
  deriving DecidableEq, Repr

/-- Tables and image as decoding goes on: quantization tables, DC and AC codes by destination, restart interval, the frame,
coefficients by component and block in zigzag order, the MCUs damaged, and the scans done. -/
structure JpegSt where
  qt : List (Nat × Array Nat)
  dc : List (Nat × Huff)
  ac : List (Nat × Huff)
  ri : Nat
  frame : Option JFrame
  coef : Array (Array (Array Int))
  bad : Array Bool
  scans : Nat

/-! Coefficients (T.81 F.2 and G.2). -/

/-- Coefficient `k`. -/
def coefAt (b : Array Int) (k : Nat) : Int := (b[k]?).getD 0

/-- RECEIVE and EXTEND. -/
def readExtend (a : Array Nat) (p s : Nat) : Option (Int × Nat) :=
  (readMsb a p s).map (fun v =>
    (if s = 0 then 0 else if v < 2 ^ (s - 1) then (v : Int) - 2 ^ s + 1 else v, p + s))

/-- AC coefficients of a block from `k` to `se`: the block, the end-of-band run left, the position. A run of more than one
block is of progressive scans alone. -/
def acFirst (a : Array Nat) (h : Huff) (prog : Bool) (se al : Nat) : Nat → Nat → Nat → Array Int → Option (Array Int × Nat × Nat)
  | 0, _, _, _ => none
  | n + 1, k, p, b =>
    if se < k then some (b, 0, p)
    else
      match h.read (bitMsb a) p with
      | none => none
      | some (rs, p) =>
        let r := rs / 16
        let s := rs % 16
        if s = 0 then
          if r = 15 then acFirst a h prog se al n (k + 16) p b
          else if r = 0 then some (b, 0, p)
          else if prog then (readMsb a p r).map (fun x => (b, 2 ^ r + x - 1, p + r))
          else none
        else
          match readExtend a p s with
          | none => none
          | some (v, p) => if se < k + r then none else acFirst a h prog se al n (k + r + 1) p (b.setIfInBounds (k + r) (v * 2 ^ al))

/-- Correction bits of nonzero coefficients from `k` on, past `r` zero coefficients; to `se` without `r`. -/
def acCorrect (a : Array Nat) (se al : Nat) (r : Option Nat) : Nat → Nat → Nat → Nat → Array Int → Option (Nat × Nat × Array Int)
  | 0, _, _, _, _ => none
  | n + 1, z, k, p, b =>
    if se < k then some (k, p, b)
    else
      let c := coefAt b k
      if c = 0 then
        if r = some z then some (k, p, b) else acCorrect a se al r n (z + 1) (k + 1) p b
      else
        match bitMsb a p with
        | none => none
        | some bit =>
          let one : Int := if c < 0 then -(2 ^ al) else 2 ^ al
          let b := if bit = 1 ∧ c.natAbs / 2 ^ al % 2 = 0 then b.setIfInBounds k (c + one) else b
          acCorrect a se al r n z (k + 1) (p + 1) b

/-- A refinement of AC coefficients from `k` to `se`: the block, the end-of-band run with this block in it, the position. -/
def acRefine (a : Array Nat) (h : Huff) (se al : Nat) : Nat → Nat → Nat → Array Int → Option (Array Int × Nat × Nat)
  | 0, _, _, _ => none
  | n + 1, k, p, b =>
    if se < k then some (b, 0, p)
    else
      match h.read (bitMsb a) p with
      | none => none
      | some (rs, p) =>
        let r := rs / 16
        let s := rs % 16
        if s = 0 ∧ r < 15 then
          (match readMsb a p r with
            | none => none
            | some x => (acCorrect a se al none 65 0 k (p + r) b).map (fun (_, p, b) => (b, 2 ^ r + x - 1, p)))
        else if 1 < s then none
        else
          let (v, q) : Option Int × Nat :=
            if s = 0 then (some 0, p)
            else ((bitMsb a p).map (fun bit => if bit = 1 then (2 ^ al : Int) else -(2 ^ al)), p + 1)
          match v with
          | none => none
          | some v =>
            match acCorrect a se al (some r) 65 0 k q b with
            | none => none
            | some (k, p, b) =>
              if v ≠ 0 ∧ se < k then none
              else acRefine a h se al n (k + 1) p (if v = 0 then b else b.setIfInBounds k v)

/-- What an interval carries from block to block: the DC predictions by component, the end-of-band run, the position. -/
structure JRun where
  preds : List (Nat × Int)
  eob : Nat
  pos : Nat

/-- One block of a scan. -/
def JpegSt.block (j : JpegSt) (prog : Bool) (sc : JScan) (a : Array Nat) (c dt at_ : Nat) (u : JRun) (b : Array Int) :
    Option (Array Int × JRun) :=
  let dcFirst (k : Int → Int → Array Int → Nat → Option (Array Int × JRun)) : Option (Array Int × JRun) :=
    match assoc dt j.dc with
    | none => none
    | some h =>
      match h.read (bitMsb a) u.pos with
      | none => none
      | some (t, p) =>
        if 11 < t then none
        else
          match readExtend a p t with
          | none => none
          | some (d, p) =>
            let v := (assoc c u.preds).getD 0 + d
            k v d b p
  if !prog then
    dcFirst (fun v _ b p =>
      match assoc at_ j.ac with
      | none => none
      | some h => (acFirst a h false 63 0 65 1 p (b.setIfInBounds 0 v)).map (fun (b, _, p) =>
          (b, { u with preds := assocPut c v u.preds, pos := p })))
  else if sc.ss = 0 then
    if sc.ah = 0 then
      dcFirst (fun v _ b p => some (b.setIfInBounds 0 (v * 2 ^ sc.al), { u with preds := assocPut c v u.preds, pos := p }))
    else
      (bitMsb a u.pos).map (fun bit =>
        (if bit = 1 then b.setIfInBounds 0 (coefAt b 0 + 2 ^ sc.al) else b, { u with pos := u.pos + 1 }))
  else if u.eob ≠ 0 then
    if sc.ah = 0 then some (b, { u with eob := u.eob - 1 })
    else (acCorrect a sc.se sc.al none 65 0 sc.ss u.pos b).map (fun (_, p, b) => (b, { u with eob := u.eob - 1, pos := p }))
  else
    match assoc at_ j.ac with
    | none => none
    | some h =>
      (if sc.ah = 0 then acFirst a h true sc.se sc.al 65 sc.ss u.pos b
        else acRefine a h sc.se sc.al 65 sc.ss u.pos b).map (fun (b, e, p) => (b, { u with eob := e, pos := p }))

/-! Scans. -/

/-- MCUs of a scan: of one component, its blocks that the image covers. -/
def JFrame.scanSize (f : JFrame) (sc : JScan) : Nat × Nat :=
  match sc.comps with
  | [(c, _, _)] =>
    let q := f.comp c
    (((f.w * q.hs + f.hmax - 1) / f.hmax + 7) / 8, ((f.h * q.vs + f.vmax - 1) / f.vmax + 7) / 8)
  | _ => (f.mcusX, f.mcusY)

/-- Blocks of an MCU of a scan: component, its tables, the block. -/
def JFrame.scanBlocks (f : JFrame) (sc : JScan) (k : Nat) : List (Nat × Nat × Nat × Nat) :=
  let n := (f.scanSize sc).1
  match sc.comps with
  | [(c, d, a)] => [(c, d, a, k / n * (f.mcusX * (f.comp c).hs) + k % n)]
  | l => l.flatMap (fun (c, d, a) =>
      let q := f.comp c
      (List.range q.vs).flatMap (fun v => (List.range q.hs).map (fun h =>
        (c, d, a, (k / n * q.vs + v) * (f.mcusX * q.hs) + (k % n * q.hs + h)))))

/-- The MCU of the frame that an MCU of a scan lies in. -/
def JFrame.mcuOf (f : JFrame) (sc : JScan) (k : Nat) : Nat :=
  let n := (f.scanSize sc).1
  match sc.comps with
  | [(c, _, _)] => k / n / (f.comp c).vs * f.mcusX + k % n / (f.comp c).hs
  | _ => k

/-- The entropy-coded segments of a scan from `p`: the restart marker before each, its bytes; and the position of the marker
that ends the scan. -/
def jSegments (a : Array Nat) : Nat → Nat → Option Nat → Array Nat → List (Option Nat × Array Nat) →
    List (Option Nat × Array Nat) × Nat
  | 0, p, m, cur, acc => (acc ++ [(m, cur)], p)
  | n + 1, p, m, cur, acc =>
    match a[p]? with
    | none => (acc ++ [(m, cur)], p)
    | some b =>
      if b ≠ 255 then jSegments a n (p + 1) m (cur.push b) acc
      else
        match a[p + 1]? with
        | none => (acc ++ [(m, cur)], p + 1)
        | some x =>
          if x = 0 then jSegments a n (p + 2) m (cur.push 255) acc
          else if x = 255 then jSegments a n (p + 1) m cur acc
          else if 0xD0 ≤ x ∧ x ≤ 0xD7 then jSegments a n (p + 2) (some (x - 0xD0)) #[] (acc ++ [(m, cur)])
          else (acc ++ [(m, cur)], p)

/-- MCUs of a restart interval in turn, as far as they decode; each is noted in `done`. -/
def JpegSt.interval (f : JFrame) (sc : JScan) (a : Array Nat) : List Nat → JRun → JpegSt → Array Bool → JpegSt × Array Bool
  | [], _, j, done => (j, done)
  | k :: l, u, j, done =>
    let r := (f.scanBlocks sc k).foldl (fun (q : Option (JpegSt × JRun)) (c, d, t, n) =>
      q.bind (fun (j, u) =>
        (j.block f.prog sc a c d t u (((j.coef[c]?).bind (fun bs => bs[n]?)).getD #[])).map (fun (b, u) =>
          ({ j with coef := j.coef.modify c (fun bs => bs.setIfInBounds n b) }, u)))) (some (j, u))
    match r with
    | none => (j, done)
    | some (j, u) => JpegSt.interval f sc a l u j (done.setIfInBounds k true)

/-- The intervals of a scan: `i` is the number of the next one. A restart marker that is not the next in turn passes over the
intervals between; one that would pass the end is no valid marker. -/
def JpegSt.intervals (f : JFrame) (sc : JScan) (total n : Nat) : List (Option Nat × Array Nat) → Nat → JpegSt → Array Bool →
    JpegSt × Array Bool
  | [], _, j, done => (j, done)
  | (m, a) :: l, i, j, done =>
    let at_ := match m with
      | none => i
      | some m => i + (m + 8 - (i + 7) % 8) % 8
    if total ≤ at_ * n then JpegSt.intervals f sc total n l i j done
    else
      let (j, done) := j.interval f sc a ((List.range (min n (total - at_ * n))).map (· + at_ * n)) ⟨[], 0, 0⟩ done
      JpegSt.intervals f sc total n l (at_ + 1) j done

/-- One scan: what does not decode is damaged. -/
def JpegSt.scan (j : JpegSt) (f : JFrame) (sc : JScan) (segs : List (Option Nat × Array Nat)) : JpegSt :=
  let (x, y) := f.scanSize sc
  let total := x * y
  let n := if j.ri = 0 then total else j.ri
  let (j, done) := JpegSt.intervals f sc total n (if j.ri = 0 then segs.take 1 else segs) 0 j (Array.replicate total false)
  let comps := f.comps.zipIdx.map (fun (c, i) =>
    if sc.comps.any (fun q => q.1 = i) then
      { c with seen := c.seen || sc.ss == 0, quant := c.quant.or (assoc c.tq j.qt) }
    else c)
  { j with
    frame := some { f with comps := comps }
    bad := (List.range total).foldl (fun (b : Array Bool) k =>
      if (done[k]?).getD false then b else b.setIfInBounds (f.mcuOf sc k) true) j.bad
    scans := j.scans + 1 }

/-! Markers. -/

/-- Tables of a DHT segment. -/
def jTables (a : Array Nat) : Nat → Nat → Nat → JpegSt → Option JpegSt
  | 0, _, _, _ => none
  | n + 1, p, e, j =>
    if p = e then some j
    else
      let b (i : Nat) : Nat := (a[p + i]?).getD 0
      let counts := (List.range 16).map (fun i => b (1 + i))
      let m := counts.foldl (· + ·) 0
      if e < p + 17 + m ∨ 1 < b 0 / 16 ∨ 3 < b 0 % 16 ∨ !kraftOk counts then none
      else
        let h : Huff := ⟨counts, a.extract (p + 17) (p + 17 + m)⟩
        jTables a n (p + 17 + m) e (if b 0 / 16 = 0 then { j with dc := assocPut (b 0 % 16) h j.dc }
          else { j with ac := assocPut (b 0 % 16) h j.ac })

/-- Tables of a DQT segment. -/
def jQuant (a : Array Nat) : Nat → Nat → Nat → JpegSt → Option JpegSt
  | 0, _, _, _ => none
  | n + 1, p, e, j =>
    if p = e then some j
    else
      let b (i : Nat) : Nat := (a[p + i]?).getD 0
      let w := b 0 / 16 + 1
      if 2 < w ∨ 3 < b 0 % 16 ∨ e < p + 1 + 64 * w then none
      else
        let q := ((List.range 64).map (fun k => if w = 1 then b (1 + k) else 256 * b (1 + 2 * k) + b (2 + 2 * k))).toArray
        jQuant a n (p + 1 + 64 * w) e { j with qt := assocPut (b 0 % 16) q j.qt }

/-- How a frame header is taken: damaged, for software, or a frame. -/
inductive JHead where
  | bad
  | soft
  | ok (f : JFrame)

/-- A frame header from `p`, `len` bytes of it (R393). -/
def jFrame (a : Array Nat) (p len : Nat) (prog : Bool) : JHead :=
  let b (i : Nat) : Nat := (a[p + i]?).getD 0
  let n := b 5
  let cs : List JComp := (List.range n).map (fun i => ⟨b (6 + 3 * i), b (7 + 3 * i) / 16, b (7 + 3 * i) % 16, b (8 + 3 * i), none, false⟩)
  let w := 256 * b 3 + b 4
  let h := 256 * b 1 + b 2
  if len ≠ 6 + 3 * n ∨ w = 0 ∨ h = 0 ∨ cs.any (fun c => c.hs = 0 ∨ c.vs = 0 ∨ 4 < c.hs ∨ 4 < c.vs ∨ 3 < c.tq) then .bad
  else if b 0 ≠ 8 then .soft
  else
    match cs with
    | [c] => .ok ⟨w, h, prog, [{ c with hs := 1, vs := 1 }]⟩
    | [y, u, v] =>
      let is (m k : Nat) : Bool := y.hs == m * u.hs && y.vs == k * u.vs
      if u.hs = v.hs ∧ u.vs = v.vs ∧ (is 1 1 ∨ is 2 1 ∨ is 2 2) then .ok ⟨w, h, prog, cs⟩ else .soft
    | _ => .soft

/-- A scan header from `p`, `len` bytes of it; none where it is damaged. -/
def JpegSt.scanHead (j : JpegSt) (f : JFrame) (a : Array Nat) (p len : Nat) : Option JScan :=
  let b (i : Nat) : Nat := (a[p + i]?).getD 0
  let n := b 0
  let cs := (List.range n).map (fun i =>
    (f.comps.findIdx? (fun c => c.id = b (1 + 2 * i)), b (2 + 2 * i) / 16, b (2 + 2 * i) % 16))
  let sc : JScan := ⟨cs.filterMap (fun (c, d, t) => c.map (fun c => (c, d, t))), b (1 + 2 * n), b (2 + 2 * n), b (3 + 2 * n) / 16, b (3 + 2 * n) % 16⟩
  let range : Bool :=
    if !f.prog then sc.ss == 0 && sc.se == 63 && sc.ah == 0 && sc.al == 0
    else (if sc.ss = 0 then sc.se == 0 else decide (sc.ss ≤ sc.se ∧ sc.se ≤ 63 ∧ n = 1)) && (sc.ah == 0 || sc.ah == sc.al + 1)
      && decide (sc.al ≤ 13)
  let tables : Bool := sc.comps.all (fun (c, d, t) =>
    ((f.comp c).quant.isSome || (assoc (f.comp c).tq j.qt).isSome)
      && (decide (0 < sc.ss) || decide (0 < sc.ah) || (assoc d j.dc).isSome)
      && ((f.prog && sc.ss == 0) || (assoc t j.ac).isSome))
  if len = 4 + 2 * n ∧ 1 ≤ n ∧ sc.comps.length = n ∧ (sc.comps.map (·.1)).eraseDups.length = n ∧ range ∧ tables then some sc
  else none

/-- How the markers of a stream end: damage before the first scan, a coding for software, or what has been decoded. -/
inductive JEnd where
  | bad
  | soft
  | done (j : JpegSt)

/-- What an error makes of the stream. -/
def JpegSt.stop (j : JpegSt) : JEnd := if j.scans = 0 then .bad else .done j

/-- The markers from `p` on. -/
def jMarkers (a : Array Nat) : Nat → Nat → JpegSt → JEnd
  | 0, _, j => j.stop
  | n + 1, p, j =>
    match a[p]?, a[p + 1]? with
    | some 255, some m =>
      if m = 255 then jMarkers a n (p + 1) j
      else if m = 1 then jMarkers a n (p + 2) j
      else if m = 0xD9 ∨ m = 0 ∨ (0xD0 ≤ m ∧ m ≤ 0xD8) then j.stop
      else
        let len := 256 * (a[p + 2]?).getD 0 + (a[p + 3]?).getD 0
        let e := p + 2 + len
        if len < 2 ∨ a.size < e then j.stop
        else if m = 0xC0 ∨ m = 0xC2 then
          if j.frame.isSome then j.stop
          else
            match jFrame a (p + 4) (len - 2) (m == 0xC2) with
            | .bad => .bad
            | .soft => .soft
            | .ok f =>
              let z : Array Int := (List.replicate 64 (0 : Int)).toArray
              jMarkers a n e { j with
                frame := some f
                coef := (f.comps.map (fun c => Array.replicate (f.mcusX * c.hs * (f.mcusY * c.vs)) z)).toArray
                bad := Array.replicate (f.mcusX * f.mcusY) false }
        else if m = 0xC4 then
          match jTables a (a.size + 1) (p + 4) e j with
          | some j => jMarkers a n e j
          | none => j.stop
        else if m = 0xDB then
          match jQuant a (a.size + 1) (p + 4) e j with
          | some j => jMarkers a n e j
          | none => j.stop
        else if m = 0xDD then
          if len = 4 then jMarkers a n e { j with ri := 256 * (a[p + 4]?).getD 0 + (a[p + 5]?).getD 0 } else j.stop
        else if m = 0xDA then
          match j.frame with
          | none => j.stop
          | some f =>
            match j.scanHead f a (p + 4) (len - 2) with
            | none => j.stop
            | some sc =>
              let (segs, q) := jSegments a (a.size + 1) e none #[] []
              jMarkers a n q (j.scan f sc segs)
        else if (0xC1 ≤ m ∧ m ≤ 0xCF ∧ m ≠ 0xC8 ∧ m ≠ 0xCC) ∨ m = 0xDE ∨ m = 0xDF then .soft
        else jMarkers a n e j
    | _, _ => j.stop

/-- The dequantized coefficients of a block in raster order. -/
def dequant (q : Array Nat) (b : Array Int) : List Int :=
  (((List.range 64).zip zigzag).foldl (fun (out : Array Int) (k, r) =>
    out.setIfInBounds r (coefAt b k * ((q[k]?).getD 0 : Nat))) (Array.replicate 64 (0 : Int))).toList

/-- Decodes a JPEG payload. A component that no scan has given makes every MCU grey. -/
def parseJpeg (l : List Byte) : Jpeg :=
  let a := byteNats l
  if a[0]? ≠ some 255 ∨ a[1]? ≠ some 0xD8 then .badHeader
  else
    match jMarkers a (a.size + 1) 2 ⟨[], [], [], 0, none, #[], #[], 0⟩ with
    | .bad => .badHeader
    | .soft => .software
    | .done j =>
      match j.frame with
      | none => .badHeader
      | some f =>
        let comps := f.comps.zipIdx.map (fun (c, i) =>
          (⟨c.hs, c.vs, f.mcusX * c.hs, (((j.coef[i]?).getD #[]).map (dequant (c.quant.getD #[]))).toList⟩ : JpegComp))
        let none_ := f.comps.any (fun c => !c.seen)
        .image f.w f.h f.mcusX (8 * f.hmax) (8 * f.vmax) comps
          ((List.range (f.mcusX * f.mcusY)).filter (fun k => none_ || (j.bad[k]?).getD false))

end Sys2Proof.Machine
end

