-- ==== Sys2Proof/Machine/Png.lean ====
section
/-! DEFINITION. PNG (R393, ISO/IEC 15948): chunks, filters, Adam7 and palettes, with the damage of R403. Log entry 9. -/

namespace Sys2Proof.Machine

/-- What a PNG payload holds: channels 1 or 3 with palettes expanded and alpha discarded, samples
of 8 or (`deep`) 16 bits, and the first damaged row. -/
inductive Png where
  | badHeader
  | image (w h chans : Nat) (deep : Bool) (samples : Array Nat) (bad : Option Nat)
  deriving DecidableEq, Repr, Inhabited

/-- A chunk: its type, its data, and whether it is whole with a matching CRC. -/
structure PngChunk where
  typ : Nat
  data : List Byte
  good : Bool
  deriving DecidableEq, Repr

/-- The chunks of a stream; a broken one ends them. -/
def pngChunks : Nat → List Byte → List PngChunk
  | 0, _ => []
  | n + 1, l =>
    if l.isEmpty then []
    else
      let len := beNat (l.take 4)
      let body := (l.drop 8).take len
      let good : Bool := decide (12 + len ≤ l.length) && crc32 ((l.drop 4).take (4 + len)) == beNat ((l.drop (8 + len)).take 4)
      let c : PngChunk := ⟨beNat ((l.drop 4).take 4), body, good⟩
      if good then c :: pngChunks n (l.drop (12 + len)) else [c]

def pngIHDR : Nat := 0x49484452
def pngPLTE : Nat := 0x504C5445
def pngIDAT : Nat := 0x49444154

/-- IHDR: width, height, bit depth, colour type, interlace. -/
structure PngHead where
  w : Nat
  h : Nat
  depth : Nat
  colour : Nat
  lace : Bool
  deriving DecidableEq, Repr

/-- Samples of a pixel as it is stored. -/
def PngHead.stored (q : PngHead) : Nat :=
  match q.colour with
  | 2 => 3
  | 4 => 2
  | 6 => 4
  | _ => 1

/-- IHDR read and checked. -/
def pngHead (l : List Byte) : Option PngHead :=
  let b (i : Nat) : Nat := beNat ((l.drop i).take 1)
  let q : PngHead := ⟨beNat (l.take 4), beNat ((l.drop 4).take 4), b 8, b 9, b 12 == 1⟩
  let depths := match q.colour with
    | 0 => [1, 2, 4, 8, 16]
    | 3 => [1, 2, 4, 8]
    | 2 => [8, 16]
    | 4 => [8, 16]
    | 6 => [8, 16]
    | _ => []
  if l.length = 13 ∧ depths.contains q.depth ∧ b 10 = 0 ∧ b 11 = 0 ∧ b 12 ≤ 1 ∧ q.w ≠ 0 ∧ q.h ≠ 0 then some q else none

/-- The passes: first column and row, steps (Adam7). -/
def PngHead.passes (q : PngHead) : List (Nat × Nat × Nat × Nat) :=
  if q.lace then
    [(0, 0, 8, 8), (4, 0, 8, 8), (0, 4, 4, 8), (2, 0, 4, 4), (0, 2, 2, 4), (1, 0, 2, 2), (0, 1, 1, 2)]
  else [(0, 0, 1, 1)]

/-- The Paeth predictor. -/
def paeth (a b c : Nat) : Nat :=
  let p : Int := (a : Int) + b - c
  let pa := (p - a).natAbs
  let pb := (p - b).natAbs
  let pc := (p - c).natAbs
  if pa ≤ pb ∧ pa ≤ pc then a else if pb ≤ pc then b else c

/-- One row with its filter taken off; `bpp` bytes to the left is the byte of the same place in the pixel before. -/
def unfilter (typ bpp : Nat) (prev : Array Nat) : List Nat → Array Nat → Array Nat
  | [], out => out
  | x :: l, out =>
    let i := out.size
    let a := if i < bpp then 0 else (out[i - bpp]?).getD 0
    let b := (prev[i]?).getD 0
    let c := if i < bpp then 0 else (prev[i - bpp]?).getD 0
    let y := match typ with
      | 1 => x + a
      | 2 => x + b
      | 3 => x + (a + b) / 2
      | 4 => x + paeth a b c
      | _ => x
    unfilter typ bpp prev l (out.push (y % 256))

/-- The rows of one pass, and the bytes after it; the count of rows read is short where the data end or a filter is bad. -/
def pngRows (raw : Array Nat) (len bpp : Nat) : Nat → Nat → Array Nat → List (Array Nat) → List (Array Nat) × Nat
  | 0, p, _, acc => (acc, p)
  | n + 1, p, prev, acc =>
    let typ := (raw[p]?).getD 5
    if raw.size < p + 1 + len ∨ 4 < typ then (acc, p)
    else
      let row := unfilter typ bpp prev (raw.extract (p + 1) (p + 1 + len)).toList #[]
      pngRows raw len bpp n (p + 1 + len) row (acc ++ [row])

/-- Sample `k` of a row. -/
def PngHead.sample (q : PngHead) (row : Array Nat) (k : Nat) : Nat :=
  if q.depth = 16 then 256 * (row[2 * k]?).getD 0 + (row[2 * k + 1]?).getD 0
  else
    let bit := k * q.depth
    (row[bit / 8]?).getD 0 / 2 ^ (8 - q.depth - bit % 8) % 2 ^ q.depth

/-- The colour samples of pixel `x` of a row: gray of less than 8 bits scaled to 8, palette entries expanded. -/
def PngHead.pixel (q : PngHead) (pal : Array Nat) (row : Array Nat) (x : Nat) : List Nat :=
  let v := q.sample row (q.stored * x)
  match q.colour with
  | 3 => (List.range 3).map (fun c => (pal[3 * v + c]?).getD ((Config.noPaletteEntry v c).toNat))
  | 2 => (List.range 3).map (fun c => q.sample row (3 * x + c))
  | 6 => (List.range 3).map (fun c => q.sample row (4 * x + c))
  | _ => if q.depth < 8 then [v * 255 / (2 ^ q.depth - 1)] else [v]

/-- The passes decoded in turn: the samples of the image, and the first row of it with a pixel not decoded. -/
def PngHead.image (q : PngHead) (raw : Array Nat) (pal : Array Nat) : Array Nat × Option Nat :=
  let chans := if q.colour = 0 ∨ q.colour = 4 then 1 else 3
  let bits := q.stored * q.depth
  let r := q.passes.foldl (fun (acc : Array Nat × Option Nat × Nat) (x0, y0, dx, dy) =>
    let pw := (q.w + dx - 1 - x0) / dx
    let ph := (q.h + dy - 1 - y0) / dy
    if pw = 0 ∨ ph = 0 then acc
    else
      let (out, bad, p) := acc
      let (rows, p) := if bad.isSome then ([], p) else pngRows raw ((pw * bits + 7) / 8) ((bits + 7) / 8) ph p #[] []
      let out := rows.zipIdx.foldl (fun (out : Array Nat) (row, r) =>
        (List.range pw).foldl (fun (out : Array Nat) x =>
          let at_ := ((y0 + dy * r) * q.w + x0 + dx * x) * chans
          (q.pixel pal row x).zipIdx.foldl (fun (out : Array Nat) (v, c) => out.setIfInBounds (at_ + c) v) out) out) out
      let here := if rows.length < ph then some (y0 + dy * rows.length) else none
      let bad := match bad, here with
        | some a, some b => some (min a b)
        | some a, none => some a
        | none, b => b
      (out, bad, p)) (Array.replicate (q.w * q.h * chans) 0, none, 0)
  (r.1, r.2.1)

/-- Decodes a PNG payload. Anything wrong before the first image data is damage of the stream header; image data end at the
first chunk that is no IDAT or is broken. -/
def parsePng (l : List Byte) : Png :=
  let sig := beNat (l.take 8)
  let cs := pngChunks l.length (l.drop 8)
  let early := cs.takeWhile (fun c => c.typ ≠ pngIDAT)
  let idat := (cs.drop early.length).takeWhile (fun c => c.typ = pngIDAT)
  match early with
  | [] => .badHeader
  | c :: rest =>
    match pngHead c.data with
    | none => .badHeader
    | some q =>
      let plte := (rest.find? (fun c => c.typ = pngPLTE)).map (·.data)
      let unknown (c : PngChunk) : Bool := c.typ / 2 ^ 29 % 2 == 0 && c.typ != pngPLTE
      let palBad : Bool := match plte with
        | some d => d.length % 3 != 0 || d.isEmpty || decide (768 < d.length)
        | none => q.colour == 3
      if sig ≠ 0x89504E470D0A1A0A ∨ c.typ ≠ pngIHDR ∨ early.any (fun c => !c.good) ∨ idat.isEmpty ∨ rest.any unknown ∨ palBad then
        .badHeader
      else
        let raw := zlibInflate ((idat.filter (·.good)).flatMap (·.data))
        let (px, bad) := q.image raw (byteNats (plte.getD []))
        .image q.w q.h (if q.colour = 0 ∨ q.colour = 4 then 1 else 3) (q.depth == 16) px bad

end Sys2Proof.Machine
end

