-- ==== Sys2Proof/Machine/BrnMath.lean ====
section
/-! DEFINITION. What Brine computes from one record (13_brine.md): header checks, the tokenizer, decoded pixels and
samples, augmentation. -/

namespace Sys2Proof.Machine

/-! Records (R382, R387). -/

/-- Whether MODALITY and CODING are assigned (R382). -/
def codingValid (m c : Nat) : Bool :=
  match m with
  | 0 => decide (c ≤ 1) || decide (0x80 ≤ c)
  | 1 => decide (c ≤ 1) || decide (0x80 ≤ c)
  | 2 => decide (c ≤ 4) || decide (0x80 ≤ c)
  | 3 => (match fmtOf (BitVec.ofNat 8 c) with
    | some f => !f.scaled
    | none => false)
  | _ => false

/-- Check 0x02 on the bytes fetched; `len` is the entry's LEN. -/
def recordShape (r : List Byte) (len : Nat) : Bool :=
  recNat r 0 4 == 0x4E495242 && recNat r 4 1 == 1 && codingValid (recNat r 5 1) (recNat r 6 1)
    && decide (recNat r 7 1 ≤ 64) && recNat r 7 1 % 4 == 0
    && decide (1 ≤ recNat r 8 4) && decide (recNat r 8 4 ≤ 16777216) && recZero r 28 32
    && len == 64 + recNat r 7 1 + recNat r 8 4

/-- The payload of a record. -/
def recordPayload (r : List Byte) : List Byte := (r.drop (64 + recNat r 7 1)).take (recNat r 8 4)

/-- HDR_CRC covers bytes 0–59 and the augmentation block. -/
def headerCrc (r : List Byte) : Nat := crc32c (r.take 60 ++ (r.drop 64).take (recNat r 7 1))

/-! UTF-8 (R397). -/

/-- The ranges of the bytes that follow a lead byte (RFC 3629); none where it leads nothing. -/
def utf8Tail (b : Nat) : Option (List (Nat × Nat)) :=
  let c : Nat × Nat := (0x80, 0xBF)
  if b < 0x80 then some []
  else if b < 0xC2 then none
  else if b < 0xE0 then some [c]
  else if b = 0xE0 then some [(0xA0, 0xBF), c]
  else if b = 0xED then some [(0x80, 0x9F), c]
  else if b < 0xF0 then some [c, c]
  else if b = 0xF0 then some [(0x90, 0xBF), c, c]
  else if b < 0xF4 then some [c, c, c]
  else if b = 0xF4 then some [(0x80, 0x8F), c, c]
  else none

/-- Whether bytes match the ranges: the count matched, and whether the bytes ended first. -/
def utf8Match : List (Nat × Nat) → List Byte → Option Bool
  | [], _ => some true
  | _ :: _, [] => some false
  | (lo, hi) :: l, b :: r => if lo ≤ b.toNat ∧ b.toNat ≤ hi then utf8Match l r else none

/-- What the bytes begin with: a character (true) or an invalid subsequence, with its length. -/
def utf8Head (bs : List Byte) : Bool × Nat :=
  match bs with
  | [] => (true, 0)
  | b :: r =>
    match utf8Tail b.toNat with
    | none => (false, 1)
    | some t =>
      match utf8Match t r with
      | some true => (true, 1 + t.length)
      | some false => (false, bs.length)
      | none => (false, 1)

/-- Maximal valid sequences (true) and invalid subsequences, with their offsets. -/
def utf8Runs : Nat → Nat → List Byte → List (Bool × Nat × List Byte)
  | 0, _, _ => []
  | n + 1, off, bs =>
    if bs.isEmpty then []
    else
      let (ok, k) := utf8Head bs
      let rest := utf8Runs n (off + k) (bs.drop k)
      match ok, rest with
      | true, (true, _, l) :: t => (true, off, bs.take k ++ l) :: t
      | _, _ => (ok, off, bs.take k) :: rest

/-- The longest entry that the bytes begin with. -/
def longestEntry (d : Dict) (bs : List Byte) : Option (List Byte × Nat) :=
  d.foldl (fun (best : Option (List Byte × Nat)) e =>
    if e.1.isPrefixOf bs then
      (match best with
        | some b => if b.1.length < e.1.length then some e else best
        | none => some e)
    else best) none

/-- Bytes to the next character. -/
def charStep (bs : List Byte) : Nat :=
  match utf8Head bs with
  | (true, k) => max 1 k
  | (false, _) => max 1 (bs.takeWhile (fun b => 0x80 ≤ b.toNat && b.toNat < 0xC0)).length

/-- Tokens of a valid sequence (R397). -/
def tokenWalk (d : Dict) (unk : Nat) : Nat → List Byte → List Nat
  | 0, _ => []
  | n + 1, bs =>
    if bs.isEmpty then []
    else
      match longestEntry d bs with
      | some e => e.2 :: tokenWalk d unk n (bs.drop (max 1 e.1.length))
      | none => unk :: tokenWalk d unk n (bs.drop (charStep bs))

/-- Tokens of a UTF-8 payload, and the offsets of its invalid subsequences. -/
def tokenize (d : Dict) (unk repl : Nat) (bs : List Byte) : List Nat × List Nat :=
  let runs := utf8Runs bs.length 0 bs
  (runs.flatMap (fun (ok, _, l) => if ok then tokenWalk d unk l.length l else [repl]),
   (runs.filter (fun (ok, _, _) => !ok)).map (fun (_, o, _) => o))

/-! Pixels (R394). -/

/-- FP64 values nearest cos(kπ/16)/2, k = 1–7. -/
def idctMag : List Nat :=
  [0x3FDF6297CFF75CB0, 0x3FDD906BCF328D46, 0x3FDA9B66290EA1A3, 0x3FD6A09E667F3BCD, 0x3FD1C73B39AE68C8,
   0x3FC87DE2A6AEA963, 0x3FB8F8B83C69A60B]

/-- The constant C(u)·cos((2x+1)uπ/16)/2 as an FP64 value. -/
def idctConst (u x : Nat) : Val :=
  if u = 0 then fFP64.decode ((idctMag[3]?).getD 0)
  else
    let k := (2 * x + 1) * u % 32
    let j := if 16 < k then 32 - k else k
    let (neg, i) := if 8 < j then (true, 16 - j) else (false, j)
    let v := if i = 8 then vZero false else fFP64.decode ((idctMag[i - 1]?).getD 0)
    if neg then v.neg else v

/-- An FP64 operation rounded once. -/
def r64 (v : Val) : Val := fFP64.decode (fFP64.ieee v).1

/-- One-dimensional transform of eight values at place `x`. -/
def idctAt (l : List Val) (x : Nat) : Val :=
  l.zipIdx.foldl (fun a (v, u) =>
    let p := r64 ((idctConst u x).mul v)
    if u = 0 then p else r64 (a.add p)) (vZero false)

/-- Samples 0–255 of a block of 64 coefficients in raster order, rows first (T.81 A.3.3 in FP64). -/
def idctBlock (f : List Int) : List Nat :=
  let rows := (List.range 8).map (fun v => (List.range 8).map (fun u => vInt ((f[8 * v + u]?).getD 0)))
  let t := rows.map (fun r => (List.range 8).map (idctAt r))
  (List.range 8).flatMap (fun y => (List.range 8).map (fun x =>
    let col := t.map (fun r => (r[x]?).getD (vZero false))
    let v := r64 ((idctAt col y).add (vNat 128))
    (clampInt 0 255 v.roundInt).toNat))

/-- A ratio. -/
def vRatio (n d : Nat) : Val := .fin false n d 0

/-- One colour channel: FP32, rounded once, clamped. -/
def colour (v : Val) : Nat := (clampInt 0 255 (d32 (r32 v)).roundInt).toNat

/-- RGB of Y, Cb, Cr (ITU-T T.871). -/
def rgbOf (y cb cr : Nat) : List Nat :=
  let b := vInt ((cb : Int) - 128)
  let r := vInt ((cr : Int) - 128)
  let g := ((vRatio 202008 1000000).mul b).add ((vRatio 419198 1000000).mul r)
  [colour ((vNat y).add ((vRatio 1402 1000).mul r)),
   colour ((vNat y).sub (g.div (vRatio 587 1000))),
   colour ((vNat y).add ((vRatio 1772 1000).mul b))]

/-- Converts a pixel of 1 or 3 channels to `ch` channels. -/
def channels (ch : Nat) (p : List Nat) : List Nat :=
  match p with
  | [r, g, b] => if ch = 1 then [(77 * r + 150 * g + 29 * b + 128) / 256] else [r, g, b]
  | v :: _ => if ch = 3 then [v, v, v] else [v]
  | [] => List.replicate ch 0

/-- The pixels of a JPEG, row-major with channels interleaved. -/
def jpegPixels (w h ch mcuRow mcuW mcuH : Nat) (comps : List JpegComp) (grey : List Nat) : List Nat :=
  let hm := (comps.map (·.hs)).foldl max 1
  let vm := (comps.map (·.vs)).foldl max 1
  let planes := comps.map (fun c => (c, (c.blocks.map (fun b => (idctBlock b).toArray)).toArray))
  let at_ (q : JpegComp × Array (Array Nat)) (x y : Nat) : Nat :=
    let px := x * q.1.hs / hm
    let py := y * q.1.vs / vm
    ((q.2[py / 8 * q.1.perRow + px / 8]?).bind (fun b => b[py % 8 * 8 + px % 8]?)).getD 0
  (List.range h).flatMap (fun y => (List.range w).flatMap (fun x =>
    if grey.contains (y / mcuH * mcuRow + x / mcuW) then List.replicate ch 128
    else
      match planes with
      | [a, b, c] => channels ch (rgbOf (at_ a x y) (at_ b x y) (at_ c x y))
      | a :: _ => channels ch [at_ a x y]
      | [] => List.replicate ch 0))

/-- The pixels of a PNG: 16-bit samples scaled, rows from `bad` neutral grey. -/
def pngPixels (w h ch chans : Nat) (deep : Bool) (samples : Array Nat) (bad : Option Nat) : List Nat :=
  let a := samples.map (fun v => if deep then (v * 255 + 32767) / 65535 else v)
  (List.range h).flatMap (fun y => (List.range w).flatMap (fun x =>
    if bad.any (fun b => decide (b ≤ y)) then List.replicate ch 128
    else channels ch ((List.range chans).map (fun c => (a[(y * w + x) * chans + c]?).getD 0))))

/-! Audio (R394). -/

/-- Frames of `chans` samples converted to `ch` channels of FP32 codes; a sample is an exact value. -/
def audioFrames (ch chans : Nat) (vs : List Val) : List (List Nat) :=
  (chunks chans vs.length vs).map (fun f =>
    match f with
    | [l, r] => if ch = 1 then [r32 ((l.add r).mul (vPow2 (-1)))] else [r32 l, r32 r]
    | v :: _ => List.replicate ch (r32 v)
    | [] => List.replicate ch 0)

/-- Samples of a stream of `bits`-bit integers. -/
def intSamples (bits : Nat) (l : List Int) : List Val :=
  l.map (fun v => d32 (r32 ((vInt v).mul (vPow2 (1 - (bits : Int))))))

/-- Samples of a PCM payload in whole frames, and whether a partial frame trails (R403). -/
def pcmSamples (coding chans : Nat) (bs : List Byte) : List Val × Bool :=
  let k := if coding = 2 then 2 else if coding = 3 then 3 else 4
  let n := bs.length / (k * chans)
  let l := chunks k bs.length (bs.take (n * k * chans))
  (l.map (fun b =>
    if coding = 4 then d32 (leNat b)
    else d32 (r32 ((vInt (codeInt (8 * k) (leNat b))).mul (vPow2 (1 - (8 * k : Int)))))),
   bs.length % (k * chans) != 0)

/-! Augmentation (R404 to R406). -/

/-- FP32 one and one half. -/
def one32 : Nat := 0x3F800000
def half32 : Nat := 0x3F000000

/-- Parameter k of a record (R404), u·(hi − lo) rounded once; `ranges` is the range table, empty for none. -/
def augParam (seed : Nat) (audio : Bool) (ranges r : List Byte) (k : Nat) : Nat :=
  if 4 * k + 4 ≤ recNat r 7 1 then recNat r (64 + 4 * k) 4
  else
    let fixed := if (if audio then k == 1 else k == 2 || k == 3 || k == 6) then one32 else 0
    let off := 8 * k + (if audio then 128 else 0)
    let lo := if ranges.isEmpty then fixed else recNat ranges off 4
    let hi := if ranges.isEmpty then fixed else recNat ranges (off + 4) 4
    let u := r32 ((vNat (genWord seed 1 (recNat r 16 8) k / 256)).mul (vPow2 (-24)))
    add32 lo (r32 ((d32 u).mul ((d32 hi).sub (d32 lo))))

/-- FP32 minimum and maximum. -/
def min32 (a b : Nat) : Nat := fFP32.minMax false a b
def max32 (a b : Nat) : Nat := fFP32.minMax true a b

/-- FP32 of a number. -/
def n32 (n : Nat) : Nat := r32 (vNat n)

/-- Clamped crop size. -/
def cropSize (v : Nat) : Nat := min32 (max32 v (r32 (vPow2 (-16)))) one32

/-- The crop of a decoded image: x0, y0, cw, ch (R405). -/
def cropOf (p : Nat → Nat) (w h : Nat) : Nat × Nat × Nat × Nat :=
  let cw := cropSize (p 2)
  let chh := cropSize (p 3)
  (mul32 (min32 (max32 (p 0) 0) (sub32 one32 cw)) (n32 w), mul32 (min32 (max32 (p 1) 0) (sub32 one32 chh)) (n32 h),
   mul32 cw (n32 w), mul32 chh (n32 h))

/-- The bucket with the least ratio, lowest on ties (R405); buckets are (BH, BW). -/
def bucketOf (cw ch : Nat) (bkts : List (Nat × Nat)) : Nat :=
  let r := div32 cw ch
  let cost (b : Nat × Nat) : Nat :=
    let q := div32 (n32 b.2) (n32 b.1)
    max32 (div32 r q) (div32 q r)
  match bkts.zipIdx with
  | [] => 0
  | (b, _) :: l =>
    (l.foldl (fun (best : Nat × Nat) (b, i) => if (d32 (cost b)).lt (d32 best.2) then (i, cost b) else best) (0, cost b)).1

/-- Bilinear value of a channel at (sx, sy), source indices clamped. -/
def bilinear (px : Nat → Nat → Nat) (w h sx sy : Nat) : Nat :=
  let fx := (d32 sx).floorInt
  let fy := (d32 sy).floorInt
  let a := sub32 sx (r32 (vInt fx))
  let b := sub32 sy (r32 (vInt fy))
  let at_ (dx dy : Int) : Nat :=
    n32 (px (clampInt 0 ((w : Int) - 1) (fx + dx)).toNat (clampInt 0 ((h : Int) - 1) (fy + dy)).toNat)
  let row (dy : Int) : Nat := add32 (mul32 (sub32 one32 a) (at_ 0 dy)) (mul32 a (at_ 1 dy))
  add32 (mul32 (sub32 one32 b) (row 0)) (mul32 b (row 1))

/-- Output value (x, y, c) of a bucket BH × BW (R405). -/
def augPixel (p : Nat → Nat) (px : Nat → Nat → Nat) (w h bh bw : Nat) (mean inv x y : Nat) : Nat :=
  let (x0, y0, cw, ch) := cropOf p w h
  let fx := mul32 (add32 (n32 x) half32) (div32 cw (n32 bw))
  let sx := if (d32 half32).le (d32 (p 4)) then sub32 (sub32 (add32 x0 cw) fx) half32 else sub32 (add32 x0 fx) half32
  let sy := sub32 (add32 y0 (mul32 (add32 (n32 y) half32) (div32 ch (n32 bh)))) half32
  let v := bilinear px w h sx sy
  let q := add32 (add32 (mul32 (sub32 (div32 v (n32 255)) half32) (p 6)) half32) (p 5)
  mul32 (sub32 q mean) inv

/-- First sample and count of the kept clip (R406). A START that is not a number keeps the clip from a sample on that the
spec leaves open: a function of START and the clip's length, since equal batches hold equal bits (R418, log entry 104). -/
def clipOf (start n maxSmp : Nat) : Nat × Nat :=
  let f := (d32 (mul32 (min32 (max32 start 0) one32) (n32 n))).floorInt
  let s0 := if (d32 start).isNan then Config.nanStart start n % n else (clampInt 0 ((n : Int) - 1) f).toNat
  (s0, min (n - s0) maxSmp)

end Sys2Proof.Machine
end

