-- ==== Sys2Proof/Machine/BrnJobs.lean ====
section
/-! DEFINITION. A Brine batch's specification, its checks, staging, fetches and the software ring (R385 to R411). -/

namespace Sys2Proof.Machine

/-! The unit. -/

def brnReg (d : DieIx) (off : Nat) : Nat := brnBase d.val + off

/-- Changes the batch of an id. -/
def State.onBatch (s : State) (d : DieIx) (id : Nat) (f : BrnBatch → BrnBatch) : State :=
  s.onBrn d (fun u => { u with batches := u.batches.map (fun b => if b.id = id then f b else b) })

def State.batchOf (s : State) (d : DieIx) (id : Nat) : Option BrnBatch := s.brn[d].batches.find? (fun b => b.id = id)

/-- Whether the unit holds its claims (R384, R525). -/
def State.brnClaimed (s : State) (d : DieIx) : Bool :=
  assoc (0x1000 + 32 * d.val) s.int.claims == some (d.val + 1) && assoc (0x6000 + 2 * d.val) s.int.claims == some (d.val + 1)

/-- A context of a Brine unit. -/
def State.brnCtx (s : State) (d : DieIx) (core : Nat) : XCtx := XCtx.start s 3 (s.brnSrc d.val) none core

/-- Reads a record of the command in pieces (R352). -/
def XCtx.rdRecordLong (x : XCtx) (va n : Nat) : List Byte × XCtx :=
  let before := x.poison
  let (b, x) := x.rdLong va n
  (b, if before.isNone ∧ x.poison.isSome then { x with badRecord := true } else x)

/-- Payload of events 0x1503 to 0x1508. -/
def brnPayload (d : DieIx) (c : UnitCmd) (n : Nat) : BitVec 64 :=
  pack [(low 16 n, 0), (d.val, 16), (bitsOf (c.word 2) 31 0, 32)]

/-- Event 0x1501 (R392). -/
def bad1501 (d : DieIx) (c : UnitCmd) (cause : Nat) : Bad := (0x1501, pack [(cause, 0), (c.core.val, 8), (d.val, 16)])

/-! Fields of a specification (R389 to R391). -/

def specN (b : List Byte) : Nat := recNat b 0 4
def specRsv (b : List Byte) : Nat := recNat b 4 2
def specReplay (b : List Byte) : Bool := recNat b 7 1 % 2 == 1

/-- A field of a branch block. -/
def brField (b : List Byte) (br off n : Nat) : Nat := recNat b (128 + 128 * br + off) n

/-- Whether a branch is configured. -/
def brOn (b : List Byte) (br : Nat) : Bool :=
  match br with
  | 0 => brField b 0 32 8 != 0
  | 1 => brField b 1 64 8 != 0
  | 2 => brField b 2 24 8 != 0
  | _ => brField b 3 16 8 != 0

/-- Offset of a slot or reserve entry. -/
def entryOff (b : List Byte) (res : Bool) (i : Nat) : Nat := 640 + 32 * (if res then specN b + i else i)

def entField (b : List Byte) (res : Bool) (i off n : Nat) : Nat := recNat b (entryOff b res i + off) n

/-- Bytes a specification takes. -/
def specLen (head : List Byte) : Nat := 640 + 32 * (specN head + specRsv head)

/-- A branch's bound, rounded up to 64 bytes; 0 where it is not configured (R407). -/
def branchBound (b : List Byte) (br : Nat) : Nat :=
  let n := match br with
    | 0 => 4 * brField b 0 28 4
    | 1 => brField b 1 4 2 * brField b 1 6 2 * brField b 1 1 1
    | 2 => 4 * brField b 2 1 1 * (brField b 2 16 4 + 65536)
    | _ => (match fmtOf (BitVec.ofNat 8 (brField b 3 0 1)) with
      | some f => (brField b 3 4 4 * f.elem.bits + 7) / 8
      | none => 0)
  if brOn b br then (n + 63) / 64 * 64 else 0

/-- The largest bound of the configured branches (R407). -/
def stageBound (b : List Byte) : Nat := (List.range 4).foldl (fun m br => max m (branchBound b br)) 0

/-- A field in a range. -/
def inRange (lo hi x : Nat) : Bool := decide (lo ≤ x) && decide (x ≤ hi)

/-- The header obeys R389. -/
def headerOk (b : List Byte) (va : Nat) : Bool :=
  va % 64 == 0 && inRange 1 16384 (specN b) && decide (specRsv b ≤ 1024)
    && (if specRsv b = 0 then recNat b 6 1 == 0 else inRange 1 64 (recNat b 6 1))
    && decide (recNat b 7 1 ≤ 1) && (specReplay b || recNat b 8 8 == 0)
    && recNat b 16 8 % 65536 == 0 && recNat b 24 8 % 65536 == 0 && recNat b 32 8 % 65536 == 0 && recNat b 40 8 % 65536 == 0
    && recZero b 56 72

/-- Whether all bytes of a branch block outside `fields` (offset, size) are zero. -/
def brReserved (b : List Byte) (br : Nat) (fields : List (Nat × Nat)) : Bool :=
  (List.range 128).all (fun o =>
    fields.any (fun (f, n) => decide (f ≤ o) && decide (o < f + n)) || brField b br o 1 == 0)

/-- The branch blocks obey R390. -/
def branchesOk (b : List Byte) : Bool :=
  brReserved b 0 [(0, 40)] && brReserved b 1 [(0, 3), (4, 4), (8, 24), (32, 64)] && brReserved b 2 [(0, 2), (4, 16), (24, 8)]
    && brReserved b 3 [(0, 1), (4, 8), (16, 8)]
    && (!brOn b 0 || (brField b 0 32 8 == 1 && inRange 1 65536 (brField b 0 8 4) && decide (1 ≤ brField b 0 24 4)
        && inRange 1 (2 ^ 24) (brField b 0 28 4)))
    && (!brOn b 1 || ([0, 0x20, 0x30].contains (brField b 1 0 1) && [1, 3].contains (brField b 1 1 1)
        && inRange 1 4 (brField b 1 2 1) && inRange 1 16384 (brField b 1 4 2) && inRange 1 16384 (brField b 1 6 2)
        && (List.range (brField b 1 2 1)).all (fun k =>
            inRange 1 4096 (brField b 1 (32 + 8 * k) 2) && inRange 1 4096 (brField b 1 (34 + 8 * k) 2))))
    && (!brOn b 2 || ([0, 0x20].contains (brField b 2 0 1) && [1, 2].contains (brField b 2 1 1)
        && inRange 8000 192000 (brField b 2 4 4) && inRange 1 1048576 (brField b 2 8 4)
        && inRange 1 (2 ^ 28) (brField b 2 16 4)))
    && (!brOn b 3 || (match fmtOf (BitVec.ofNat 8 (brField b 3 0 1)) with
        | some f => !f.scaled
        | none => false))

/-- Every entry obeys R391. -/
def entriesOk (b : List Byte) : Bool :=
  let one (res : Bool) (i : Nat) : Bool :=
    let f := entField b res i
    decide (f 8 1 ≤ 2) && (f 8 1 == 2 || f 24 4 == 0) && decide (f 28 1 < 4) && f 29 3 == 0
  (List.range (specN b)).all (one false) && (List.range (specRsv b)).all (one true)

/-- STAGE_LEN and RSV_STAGE_LEN reach their bounds (R407). -/
def stageOk (b : List Byte) : Bool :=
  decide (stageBound b ≤ recNat b 24 8) && decide (recNat b 6 1 * stageBound b ≤ recNat b 40 8)

/-- Reads an output descriptor of a format and extents; the last extent is at least its entry when `least`. -/
def XCtx.brnDesc (x : XCtx) (on : Bool) (va field : Nat) (ext : List Nat) (least : Bool) : Read (Option Desc) × XCtx :=
  if !on then (.ok none, x)
  else
    thenRead (x.readDesc va ⟨true, false⟩) fun (d : Desc) x =>
      let same : Bool := d.ext.length == ext.length &&
        (if least then d.ext.dropLast == ext.dropLast && decide (ext.getLastD 0 ≤ d.ext.getLastD 0) else d.ext == ext)
      if d.field.toNat = field ∧ same then (.ok (some d), x) else (.bad (0, 0), x)

/-- INT32's format field (R52). -/
def int32Field : Nat := 0x90

/-- The output descriptors (R390). -/
def XCtx.brnOuts (x : XCtx) (c : UnitCmd) (b : List Byte) : Read BrnOuts × XCtx :=
  let img (k : Nat) (x : XCtx) : Read (Option Desc) × XCtx :=
    x.brnDesc (brOn b 1 && decide (k < brField b 1 2 1)) (brField b 1 (64 + 8 * k) 8) (brField b 1 0 1)
      [brField b 1 1 1, brField b 1 (34 + 8 * k) 2, brField b 1 (32 + 8 * k) 2, brField b 1 (36 + 8 * k) 4] false
  thenRead (x.brnDesc (brOn b 0) (c.va 3) int32Field [brField b 0 8 4, brField b 0 24 4] true) fun rows x =>
  thenRead (x.brnDesc true (c.va 4) int32Field [4, 1] true) fun seg x =>
  thenRead (img 0 x) fun i0 x =>
  thenRead (img 1 x) fun i1 x =>
  thenRead (img 2 x) fun i2 x =>
  thenRead (img 3 x) fun i3 x =>
  thenRead (x.brnDesc (brOn b 2) (brField b 2 24 8) (brField b 2 0 1)
    [brField b 2 1 1, brField b 2 8 4, brField b 2 12 4] false) fun aud x =>
  thenRead (x.brnDesc (brOn b 3) (brField b 3 16 8) (brField b 3 0 1) [brField b 3 4 4, brField b 3 8 4] false) fun ten x =>
    match seg with
    | some sg => (.ok ⟨rows, sg, [i0, i1, i2, i3].filterMap id, aud, ten⟩, x)
    | none => (.bad (0, 0), x)

/-- Draw order of the reserves (R409). -/
def drawOrder (seed : Nat) (c : UnitCmd) (n : Nat) : List Nat :=
  let key (j : Nat) : Nat := genWord seed 2 (c.va 1) ((c.va 2 * 2 ^ 20 + j) % 2 ^ 64)
  let ins (a : List (Nat × Nat)) (q : Nat × Nat) : List (Nat × Nat) :=
    a.takeWhile (fun p => decide (p.1 ≤ q.1)) ++ q :: a.dropWhile (fun p => decide (p.1 ≤ q.1))
  ((List.range n).foldl (fun a j => ins a (key j, j)) []).map (·.2)

/-! The dictionary (R396). -/

/-- Byte strings in ascending lexicographic order, a proper prefix first. -/
def byteLt : List Byte → List Byte → Bool
  | _, [] => false
  | [], _ :: _ => true
  | a :: l, b :: r => if a.toNat = b.toNat then byteLt l r else decide (a.toNat < b.toNat)

/-- Strictly ascending. -/
def dictAscending : Dict → Bool
  | [] => true
  | [_] => true
  | a :: b :: l => byteLt a.1 b.1 && dictAscending (b :: l)

/-- Reads a dictionary; none where it breaks R396. -/
def XCtx.readDict (x : XCtx) (va : Nat) : Option Dict × XCtx :=
  if va % 64 ≠ 0 then (none, x)
  else
    let (h, x) := x.rdRecord va 64
    let n := recNat h 0 4
    let maxLen := recNat h 4 2
    if !inRange 1 1048576 n || !inRange 1 256 maxLen || !recZero h 6 58 then (none, x)
    else
      let (es, x) := x.rdRecordLong (va + 64) (16 * n)
      let pool := va + 64 + 16 * n
      let raw := (List.range n).map (fun i => (es.drop (16 * i)).take 16)
      if raw.any (fun e => !inRange 1 maxLen (recNat e 4 2) || !recZero e 6 2 || !recZero e 12 4) then (none, x)
      else
        let (d, x) := raw.foldl (fun (acc : Dict × XCtx) e =>
          let (bs, x) := acc.2.rdRecord (pool + recNat e 0 4) (recNat e 4 2)
          (acc.1 ++ [(bs, recNat e 8 4)], x)) ([], x)
        if dictAscending d then (some d, x) else (none, x)

/-! Staging (R407). -/

/-- Whether two ranges (address, length) meet. -/
def rangesMeet (a b : Nat × Nat) : Bool := decide (a.1 < b.1 + b.2) && decide (b.1 < a.1 + a.2)

/-- Staging held by the unit: of the batches' items and of cancelled software entries. -/
def BrnSt.staging (u : BrnSt) : List (Nat × Nat) :=
  u.batches.flatMap (fun b => (b.items ++ b.rsvs).filterMap (·.stage)) ++ (u.ring.filter (·.cancelled)).map (·.stage)

/-- The next staging of a batch's slots or reserves when it fits. An entry does not tell its record's branch, so that staging
for the largest bound is allocated before the fetch; `BrnItem.shrinkStage` keeps the branch's bound of it once the record is
accepted (log entry 103). -/
def BrnSt.allocStage (u : BrnSt) (b : BrnBatch) (res : Bool) : Option (Nat × Nat) :=
  let n := stageBound b.spec
  let (base, len, next) := if res then (recNat b.spec 32 8, recNat b.spec 40 8, b.rsvNext)
    else (recNat b.spec 16 8, recNat b.spec 24 8, b.stageNext)
  if n = 0 then some (base, 0)
  else
    let r := (base + n * (next % (len / n)), n)
    if u.staging.any (rangesMeet r) then none else some r

/-- Items of all batches. -/
def BrnSt.allItems (u : BrnSt) : List BrnItem := u.batches.flatMap (fun b => b.items ++ b.rsvs)

/-- Bytes of the record buffer in use: fetches in flight and records held (R386). -/
def BrnSt.buffered (u : BrnSt) : Nat :=
  (u.batches.flatMap (fun b => (b.items ++ b.rsvs).map (fun i =>
    match i.phase with
    | .fetching => entField b.spec i.res i.ix 12 4
    | .hw _ => i.data.length
    | .softWait => i.data.length
    | _ => 0))).foldl (· + ·) 0

/-- A fetch leaves: TUIMAL as READs of at most 4096 bytes on the endpoint's connection, which fails when there is none
or it is broken (R385, R482); ROCE as one RDMA READ of LEN bytes at ADDR with KEY on queue pair CONN, which fails when that is
not open (R385, R502). -/
def State.issueFetch (s : State) (d : DieIx) (b : BrnBatch) (i : BrnItem) : State :=
  let f := entField b.spec i.res i.ix
  let i := { i with phase := .fetching, fetches := i.fetches + 1, got := [], out := 0, failed := false }
  let put (i : BrnItem) (s : State) : State := s.onBatch d b.id (fun b => b.onItem i.res i.ix (fun _ => i))
  if f 8 1 = 0 then put i s
  else if f 8 1 = 2 then
    let z := s.qpAt (f 9 1)
    if z.port.isNone ∨ z.error then put { i with failed := true } s
    else
      let r : QpRead := ⟨f 9 1, f 24 4, f 16 8, f 12 4, (32 + d.val, brnKey b.id i), []⟩
      put { i with out := 1 } { s with link := { s.link with qpReads := s.link.qpReads ++ [r] } }
  else
    match s.connOf d.val (f 10 2) (f 28 1) with
    | none => put { i with failed := true } s
    | some j =>
      if s.connBroken d.val j then put { i with failed := true } s
      else
        let ps := (List.range ((f 12 4 + 4095) / 4096)).map (fun k => (4096 * k, min 4096 (f 12 4 - 4096 * k)))
        ps.foldl (fun s (o, n) => s.sendRead d.val j (f 16 8 + o) n (32 + d.val, brnKey b.id i) (f 9 1))
          (put { i with out := ps.length } s)

/-- Reserves that may be fetched, in order: those a replayed manifest names, then the draw order as far as it is
wanted (R409 to R411). -/
def BrnBatch.fetchable (b : BrnBatch) : List Nat :=
  b.replay.filterMap (fun e => if recNat e 8 2 / 2 % 2 = 1 then some (recNat e 12 2) else none) ++ b.order.take b.want

/-- The next main slot to fetch: in ascending order. -/
def BrnBatch.nextMain (b : BrnBatch) : Option BrnItem := b.items.find? (fun i => i.phase == .idle && decide (b.cur ≤ i.ix))

/-- The next reserve to fetch: in draw order. -/
def BrnBatch.nextReserve (b : BrnBatch) : Option BrnItem :=
  (b.fetchable.filterMap (fun j => b.rsvs.find? (fun i => i.ix = j && i.phase == .idle))).head?

/-- What the batch may fetch next: its next main slot, or its next reserve while at most RSV_AHEAD hold staging. They take
staging of their own, so that neither waits for the other's (R407). -/
def BrnBatch.nextFetches (b : BrnBatch) : List BrnItem :=
  let held := (b.rsvs.filter (fun i => i.stage.isSome)).length
  b.nextMain.toList ++ (if recNat b.spec 6 1 ≤ held then [] else b.nextReserve.toList)

/-- The batch has issued its last fetch (R388). -/
def BrnBatch.allFetched (b : BrnBatch) : Bool := !b.loading && b.nextMain.isNone && b.nextReserve.isNone

/-- The fetches that may be issued: those of the first batch, and once it has issued its last those of the second (R388). -/
def BrnSt.nextFetches (u : BrnSt) : List (BrnBatch × BrnItem) :=
  let of (b : BrnBatch) : List (BrnBatch × BrnItem) := if b.loading then [] else b.nextFetches.map (fun i => (b, i))
  match u.batches with
  | [] => []
  | b :: l => of b ++ (if b.allFetched then (l.take 1).flatMap of else [])

/-- Issues what can be fetched (R386, R388): the second batch's fetches begin when the first has none left to issue. -/
def State.fetchN (d : DieIx) : Nat → State → State
  | 0, s => s
  | n + 1, s =>
    let u := s.brn[d]
    match u.nextFetches.findSome? (fun q => (u.allocStage q.1 q.2.res).map (fun r => (q, r))) with
    | none => s
    | some ((b, i), r) =>
      let inFlight := (u.allItems.filter (fun i => i.phase == .fetching)).length
      if 64 ≤ inFlight ∨ 2 ^ 25 < u.buffered + entField b.spec i.res i.ix 12 4 then s
      else
        let b' := if i.res then { b with rsvNext := b.rsvNext + 1 } else { b with stageNext := b.stageNext + 1 }
        let i := { i with stage := some r }
        let s := s.onBatch d b.id (fun _ => b'.onItem i.res i.ix (fun _ => i))
        State.fetchN d n (s.issueFetch d b' i)

/-! Rejection and readiness. -/

/-- A record is rejected (R387): event 0x1502. -/
def State.rejectRec (s : State) (d : DieIx) (b : BrnBatch) (i : BrnItem) (cause : Nat) : State :=
  let s := s.onBatch d b.id (fun b => b.onItem i.res i.ix (fun i => { i with phase := .rejected, cause := cause, data := [] }))
  (s.count (brnReg d 0x430) 1).raise (s.brnSrc d.val) 0x1502
    (pack [(cause, 0), (i.ix, 8), (b2n i.res, 23), (d.val, 24), (bitsOf (b.cmd.word 2) 31 0, 32)])

/-- Notes of a batch's dealings with memory. -/
def State.noteBatch (x : XCtx) (d : DieIx) (id : Nat) : State :=
  x.s.onBatch d id (fun b => { b with notes := x.notes })

/-- A context that goes on with a batch. -/
def State.batchCtx (s : State) (d : DieIx) (b : BrnBatch) : XCtx := (s.brnCtx d b.cmd.core.val).resume ((s.batchOf d b.id).getD b).notes

/-- A sample decoded into staging is ready. -/
def State.sampleReady (s : State) (d : DieIx) (b : BrnBatch) (i : BrnItem) (bytes : List Byte) : State :=
  let x := (s.batchCtx d b).wrLong ((i.stage.getD (0, 0)).1) bytes
  (State.noteBatch x d b.id).onBatch d b.id (fun b => b.onItem i.res i.ix (fun _ => { i with phase := .ready, data := i.data.take 128 }))

/-! The software ring (R398 to R401). -/

/-- The record area's free place for `n` bytes, in ring order. -/
def BrnSt.allocRec (u : BrnSt) (len n : Nat) : Option Nat :=
  let at_ := if u.nextRec + n ≤ len then u.nextRec else 0
  if len < n ∨ u.ring.any (fun e => rangesMeet (at_, n) e.recArea) then none else some at_

/-- The next free entry in ring order. -/
def BrnSt.freeEntry (u : BrnSt) : Option Nat :=
  ((List.range 1024).map (fun k => (u.nextEnt + k) % 1024)).find? (fun k => u.ring.all (fun e => e.ix ≠ k))

/-- Whether the ring can take a record. -/
def State.ringFree (s : State) (d : DieIx) (n : Nat) : Bool :=
  (s.brn[d].freeEntry).isSome && (s.brn[d].allocRec (s.reg (brnReg d 0x30)).toNat n).isSome

/-- SOFT_EN. -/
def State.softEn (s : State) (d : DieIx) : Bool := (s.reg (brnReg d 8)).getLsbD 2

/-- A sample goes to software (R400): the record copied, the ring entry written. -/
def State.toSoft (s : State) (d : DieIx) (b : BrnBatch) (i : BrnItem) : State :=
  let u := s.brn[d]
  match u.freeEntry, u.allocRec (s.reg (brnReg d 0x30)).toNat i.data.length with
  | some e, some at_ =>
    let st := i.stage.getD (0, 0)
    let area := (s.reg (brnReg d 0x28)).toNat + at_
    let entry := leBytes 4 1 ++ leBytes 4 (i.ix + 2 ^ 31 * b2n i.res) ++ leBytes 8 (b.cmd.va 2) ++ leBytes 8 area ++
      leBytes 4 i.data.length ++ leBytes 1 (recNat i.data 5 1) ++ leBytes 1 (recNat i.data 6 1) ++ leBytes 2 0 ++
      leBytes 8 st.1 ++ leBytes 4 st.2 ++ leBytes 20 0
    let x := ((s.batchCtx d b).wrLong area i.data).wr false ((s.reg (brnReg d 0x20)).toNat + 64 * e) entry
    let s := State.noteBatch x d b.id
    let s := s.onBatch d b.id (fun b => b.onItem i.res i.ix (fun _ => { i with phase := .soft, soft := true, data := i.data.take 128 }))
    (s.onBrn d (fun u => { u with
      ring := u.ring ++ [⟨e, b.id, i.res, i.ix, (at_, i.data.length), st, false⟩]
      nextEnt := (e + 1) % 1024
      nextRec := at_ + i.data.length
      hwq := u.hwq.map (fun l => l.filter (fun q => q != (b.id, i.res, i.ix))) })).count (brnReg d 0x450) 1
  | _, _ => s

/-- Samples that only software can decode leave for entries that have become free. -/
def State.softWaiting (d : DieIx) : Nat → State → State
  | 0, s => s
  | n + 1, s =>
    match (s.brn[d].batches.flatMap (fun b => (b.items ++ b.rsvs).filterMap (fun i =>
        if i.phase == .softWait then some (b, i) else none))).head? with
    | none => s
    | some (b, i) => if s.softEn d && s.ringFree d i.data.length then State.softWaiting d n (s.toSoft d b i) else s

/-- Writes STATE of a ring entry by an atomic swap (R401) or plain write. -/
def State.ringState (s : State) (d : DieIx) (b : Option BrnBatch) (e v : Nat) : State :=
  let a := (s.reg (brnReg d 0x20)).toNat + 64 * e
  match b with
  | some b => State.noteBatch ((s.batchCtx d b).wr false a (leBytes 4 v)) d b.id
  | none => ((s.brnCtx d 0).wr false a (leBytes 4 v)).s

/-- Abandons an item's software entry (R401): STATE 3, the entry and its areas kept until the program completes it. -/
def State.cancelSoft (s : State) (d : DieIx) (b : BrnBatch) (i : BrnItem) : State :=
  match s.brn[d].ring.find? (fun e => e.batch = b.id && e.res == i.res && e.item = i.ix && !e.cancelled) with
  | none => s
  | some e =>
    (s.ringState d (some b) e.ix 3).onBrn d (fun u => { u with
      ring := u.ring.map (fun q => if q.ix = e.ix then { q with cancelled := true } else q) })

end Sys2Proof.Machine
end

