-- ==== Sys2Proof/Machine/Brine.lean ====
section
/-! DEFINITION. The Brine units at work (13_brine.md): batches beginning, records arriving, decodes, software
completions, deadlines, packing and the manifest. -/

namespace Sys2Proof.Machine

/-! Decoding (R393, R394, R397, R403). -/

/-- How a decode ends: the sample with its staging bytes, a rejection cause, or a coding only software decodes. -/
inductive Decoded where
  | ok (i : BrnItem) (bytes : List Byte)
  | reject (cause : Nat)
  | software

/-- A sample with its damage. -/
def BrnItem.damaged (i : BrnItem) (first count : Nat) : BrnItem :=
  if count = 0 then i else { i with conceal := true, dmg := first, ndmg := count }

/-- Tokens kept (R397). -/
def BrnItem.tokens (i : BrnItem) (b : BrnBatch) (ts : List Nat) : Decoded :=
  let m := brField b.spec 0 28 4
  let kept := ts.take m
  .ok { i with n := kept.length, trunc := i.trunc || decide (m < ts.length) } (kept.flatMap (leBytes 4))

/-- Whether a decoded image is too large (R393). -/
def BrnBatch.tooLarge (b : BrnBatch) (w h : Nat) : Bool :=
  decide (16384 < w) || decide (16384 < h) || decide (brField b.spec 1 4 2 < h) || decide (brField b.spec 1 6 2 < w)

/-- A decoded image. -/
def BrnItem.image (i : BrnItem) (b : BrnBatch) (w h : Nat) (px : List Nat) : Decoded :=
  if b.tooLarge w h then .reject 6 else if w = 0 ∨ h = 0 then .reject 7
  else .ok { i with w := w, h := h } (px.map (BitVec.ofNat 8))

/-- Frames of a decoded clip that staging holds: all of them, or from the first kept sample on (R407). -/
def BrnItem.clip (i : BrnItem) (b : BrnBatch) (seed : Nat) (frames : List (List Nat)) : Decoded :=
  let cap := (i.stage.getD (0, 0)).2 / (4 * brField b.spec 2 1 1)
  let n := frames.length
  let s0 := (clipOf (augParam seed true b.ranges i.data 0) n (brField b.spec 2 16 4)).1
  let base := if n ≤ cap then 0 else s0
  .ok { i with n := n, base := base } (((frames.drop base).take cap).flatMap (fun f => f.flatMap (leBytes 4)))

/-- A decoded Opus or FLAC stream. -/
def BrnItem.stream (i : BrnItem) (b : BrnBatch) (seed : Nat) (flac : Bool) : Clip → Decoded
  | .badHeader => .reject 7
  | .software => .software
  | .audio ch rate bits l first count =>
    if ch = 0 then .reject 7
    else if 2 < ch ∨ (flac ∧ rate ≠ brField b.spec 2 4 4) then .software
    else (i.damaged first count).clip b seed (audioFrames (brField b.spec 2 1 1) ch (intSamples bits l))

/-- Decodes an accepted record. -/
def BrnItem.decode (i : BrnItem) (b : BrnBatch) (seed : Nat) : Decoded :=
  let r := i.data
  let p := recordPayload r
  let coding := recNat r 6 1
  let ch := brField b.spec 1 1 1
  if i.branch ≤ 2 ∧ 0x80 ≤ coding then .software
  else
    match i.branch, coding with
    | 0, 0 =>
      let (ts, bad) := tokenize b.dict (brField b.spec 0 16 4) (brField b.spec 0 20 4) p
      (i.damaged (bad.headD 0) bad.length).tokens b ts
    | 0, _ => if p.length % 4 ≠ 0 then .reject 7 else i.tokens b ((chunks 4 p.length p).map leNat)
    | 1, 0 =>
      (match parseJpeg p with
        | .badHeader => .reject 7
        | .software => .software
        | .image w h mr mw mh cs grey =>
          if b.tooLarge w h then .reject 6
          else (i.damaged (grey.foldl min (grey.headD 0)) grey.length).image b w h (jpegPixels w h ch mr mw mh cs grey))
    | 1, _ =>
      (match parsePng p with
        | .badHeader => .reject 7
        | .image w h cs deep l bad =>
          if b.tooLarge w h then .reject 6
          else
            let d := match bad with
              | some y => i.damaged y (h - y)
              | none => i
            d.image b w h (pngPixels w h ch cs deep l bad))
    | 2, 0 => i.stream b seed false (parseOpus p)
    | 2, 1 => i.stream b seed true (parseFlac p)
    | 2, _ =>
      let cs := recNat r 27 1
      if cs = 0 then .reject 7
      else if 2 < cs ∨ recNat r 24 3 ≠ brField b.spec 2 4 4 then .software
      else
        let (l, part) := pcmSamples coding cs p
        let fs := audioFrames (brField b.spec 2 1 1) cs l
        (i.damaged fs.length (b2n part)).clip b seed fs
    | _, _ =>
      let f := brField b.spec 3 0 1
      let bits := ((fmtOf (BitVec.ofNat 8 f)).map (fun (q : Fmt) => q.elem.bits)).getD 8
      if coding ≠ f ∨ (recNat r 24 4 * bits + 7) / 8 ≠ p.length ∨ recNat r 24 4 ≠ brField b.spec 3 4 4 then .reject 8
      else .ok { i with n := 1 } p

/-- Whether a sample is known on acceptance to need software (R393, R398); a JPEG shows it in decoding (R395). -/
def BrnItem.softOnly (i : BrnItem) (b : BrnBatch) (seed : Nat) : Bool :=
  (i.branch != 1 || decide (0x80 ≤ recNat i.data 6 1)) &&
    (match i.decode b seed with
      | .software => true
      | _ => false)

/-- Decoder class (R393). -/
def BrnItem.cls (i : BrnItem) : Fin 4 :=
  match i.branch with
  | 0 => 0
  | 1 => if recNat i.data 6 1 = 0 then 1 else 2
  | _ => 3

/-- The job seed of a die. -/
def State.brnSeed (s : State) (d : DieIx) : Nat := (s.seed[Fin.ofNat 4 (s.partNum d.val)]).toNat

/-! Packing (R410 to R415). -/

/-- Adds a segment row when SEG has room. -/
def BrnBatch.addSeg (b : BrnBatch) (row : List Nat) : BrnBatch × Bool :=
  if b.segs.length < (b.outs.seg.ext[1]?).getD 0 then ({ b with segs := b.segs ++ [row] }, true) else (b, false)

/-- Where the pieces of `n` tokens go: row, column, first token, count (R412). -/
def textPieces (l row col n : Nat) : List (Nat × Nat × Nat × Nat) :=
  let (row, col) := if l ≤ col then (row + 1, 0) else (row, col)
  if n ≤ l - col then [(row, col, 0, n)]
  else
    let r := if col = 0 then row else row + 1
    (List.range ((n + l - 1) / l)).map (fun k => (r + k, 0, l * k, min l (n - l * k)))

/-- Packs a text sample. -/
def BrnBatch.packText (b : BrnBatch) (slot : Nat) (ts : List Nat) : BrnBatch × Bool :=
  let l := brField b.spec 0 8 4
  let ps := textPieces l b.row b.col ts.length
  let (r, c) := match ps.getLast? with
    | some (r, c, _, k) => (r, c + k)
    | none => (b.row, b.col)
  let b := { b with row := r, col := c }
  ps.foldl (fun (acc : BrnBatch × Bool) (r, c, o, k) =>
    if brField b.spec 0 24 4 ≤ r then (acc.1, true)
    else
      let q := { acc.1 with toks := acc.1.toks ++ ((ts.drop o).take k).zipIdx.map (fun (q : Nat × Nat) => (r * l + c + q.2, q.1)) }
      let (q, ok) := q.addSeg [slot, r, c, k]
      (q, acc.2 || !ok)) (b, false)

/-- Writes of an output tensor in its format. -/
def valWrites (l : List (Nat × Val)) : List ElemWrite := l.map (fun (n, v) => ⟨n, v, .rne⟩)

/-- Packs an image (R405, R413). -/
def XCtx.packImage (x : XCtx) (b : BrnBatch) (slot : Nat) (i : BrnItem) (seed : Nat) : BrnBatch × Bool × XCtx :=
  let ch := brField b.spec 1 1 1
  let p (k : Nat) : Nat := augParam seed false b.ranges i.data k
  let size (k : Nat) : Nat × Nat := (brField b.spec 1 (32 + 8 * k) 2, brField b.spec 1 (34 + 8 * k) 2)
  let (_, _, cw, chh) := cropOf p i.w i.h
  let k := bucketOf cw chh ((List.range (brField b.spec 1 2 1)).map size)
  let item := (b.bkt[k]?).getD 0
  if brField b.spec 1 (36 + 8 * k) 4 ≤ item then (b, true, x)
  else
    let (bs, x) := x.rdLong ((i.stage.getD (0, 0)).1) (i.w * i.h * ch)
    let a := bs.toArray
    let (bh, bw) := size k
    let ws := (List.range bh).flatMap (fun y => (List.range bw).flatMap (fun xx => (List.range ch).map (fun c =>
      let px (u v : Nat) : Nat := ((a[(v * i.w + u) * ch + c]?).getD 0).toNat
      (c + ch * (xx + bw * (y + bh * item)),
        d32 (augPixel p px i.w i.h bh bw (brField b.spec 1 (8 + 4 * c) 4) (brField b.spec 1 (20 + 4 * c) 4) xx y)))))
    let x := match b.outs.imgs[k]? with
      | some d => x.writeElems d (valWrites ws)
      | none => x
    let (b, ok) := ({ b with bkt := setAt b.bkt k (item + 1) } : BrnBatch).addSeg [slot + 2 ^ 16 + 2 ^ 24 * k, item, 0, 1]
    (b, !ok, x)

/-- Packs an audio clip (R406, R414). -/
def XCtx.packAudio (x : XCtx) (b : BrnBatch) (slot : Nat) (i : BrnItem) (seed : Nat) : BrnBatch × Bool × XCtx :=
  let ch := brField b.spec 2 1 1
  let ck := brField b.spec 2 8 4
  let start := augParam seed true b.ranges i.data 0
  let gain := augParam seed true b.ranges i.data 1
  let (s0, m) := clipOf start i.n (brField b.spec 2 16 4)
  let m := if i.n = 0 then 0 else m
  let cut := decide (m < i.n - s0)
  let cap := (i.stage.getD (0, 0)).2 / (4 * ch)
  let m' := min m (cap - (s0 - i.base))
  let (bs, x) := x.rdLong ((i.stage.getD (0, 0)).1 + 4 * ch * (s0 - i.base)) (4 * ch * m')
  let a := (chunks 4 bs.length bs).toArray
  (List.range ((m + ck - 1) / ck)).foldl (fun (acc : BrnBatch × Bool × XCtx) j =>
    let (b, t, x) := acc
    if brField b.spec 2 12 4 ≤ b.chunks then (b, true, x)
    else
      let len := min ck (m - j * ck)
      let ws := (List.range ck).flatMap (fun q => (List.range ch).map (fun c =>
        let v := if q < len then mul32 (leNat ((a[(j * ck + q) * ch + c]?).getD [])) gain else 0
        (c + ch * (q + ck * b.chunks), d32 v)))
      let x := match b.outs.audio with
        | some d => x.writeElems d (valWrites ws)
        | none => x
      let (b', ok) := ({ b with chunks := b.chunks + 1 } : BrnBatch).addSeg [slot + 2 * 2 ^ 16, b.chunks, 0, len]
      (b', t || !ok, x)) (b, cut, x)

/-- Packs a tensor record: its bytes are copied unchanged (R414). -/
def XCtx.packTensor (x : XCtx) (b : BrnBatch) (slot : Nat) (i : BrnItem) : BrnBatch × Bool × XCtx :=
  if brField b.spec 3 8 4 ≤ b.tensors then (b, true, x)
  else
    match b.outs.tensor with
    | none => (b, true, x)
    | some d =>
      let n := brField b.spec 3 4 4
      let (bs, x) := x.rdLong ((i.stage.getD (0, 0)).1) ((n * d.fmt.elem.bits + 7) / 8)
      let x := (unpackCodes d.fmt.elem.bits n bs).zipIdx.foldl (fun (x : XCtx) (k, j) =>
        x.writeCode d (delinear d.ext (j + n * b.tensors)) k) x
      let (b', ok) := ({ b with tensors := b.tensors + 1 } : BrnBatch).addSeg [slot + 3 * 2 ^ 16, b.tensors, 0, 1]
      (b', !ok, x)

/-- The manifest's record of a slot that a replayed manifest fixed: LATE and CAUSE. -/
def BrnBatch.recorded (b : BrnBatch) (i : Nat) : Bool × Nat :=
  match b.replay[i]? with
  | some e => (recNat e 8 2 / 4 % 2 == 1, recNat e 10 1)
  | none => (false, 0)

/-- What the slot's own record came to. -/
def BrnBatch.ownEnd (b : BrnBatch) (i : Nat) : Bool × Nat :=
  let (l, c) := b.recorded i
  match b.items.find? (fun q => q.ix = i) with
  | some q => if q.phase == .rejected then (l, q.cause) else if b.replay.isEmpty then (q.phase == .late, 0) else (l, c)
  | none => (l, c)

/-- Frees the staging of slot i's own record. -/
def BrnBatch.freeOwn (b : BrnBatch) (i : Nat) : BrnBatch := b.onItem false i (fun q => { q with stage := none })

/-- Marks slot `cur` packed. -/
def BrnBatch.closeSlot (b : BrnBatch) (rsv : Option Nat) (empty trunc : Bool) (used : BrnItem) (seg0 : Option Nat) : BrnBatch :=
  let (late, cause) := b.ownEnd b.cur
  let q : BrnSlot := ⟨rsv, empty, late, cause, trunc, { used with data := used.data.take 64 }, seg0⟩
  ({ b with slots := b.slots ++ [q], cur := b.cur + 1 } : BrnBatch).freeOwn b.cur

/-- Packs a ready item into slot `cur` of a batch. -/
def State.packItem (s : State) (d : DieIx) (b : BrnBatch) (i : BrnItem) (rsv : Option Nat) : State :=
  let x := s.batchCtx d b
  let before := b.segs.length
  let seed := s.brnSeed d
  let (b, t, x) : BrnBatch × Bool × XCtx :=
    match i.branch with
    | 0 =>
      let (bs, x) := x.rdLong ((i.stage.getD (0, 0)).1) (4 * i.n)
      let (b, t) := b.packText b.cur ((chunks 4 bs.length bs).map leNat)
      (b, t, x)
    | 1 => x.packImage b b.cur i seed
    | 2 => x.packAudio b b.cur i seed
    | _ => x.packTensor b b.cur i
  let seg0 := if before < b.segs.length then some before else none
  let b := b.closeSlot rsv false (t || i.trunc) i seg0
  let b := match rsv with
    | some j => b.onItem true j (fun q => { q with stage := none })
    | none => b
  let b := { b with notes := x.notes }
  x.s.onBatch d b.id (fun _ => b)

/-- Slot `cur` stays empty (R410). -/
def State.packEmpty (s : State) (d : DieIx) (b : BrnBatch) : State :=
  s.onBatch d b.id (fun _ => b.closeSlot none true false (BrnItem.new false b.cur) none)

/-- A slot needs a substitute (R410): the next reserve in draw order, skipping rejected and late ones. None while the
next one is not resolved. -/
def State.substitute (s : State) (d : DieIx) : Nat → BrnBatch → Option State
  | 0, _ => none
  | n + 1, b =>
    match b.order[b.nxt]? with
    | none => some (s.packEmpty d b)
    | some j =>
      let b := { b with want := max b.want (b.nxt + 1) }
      match b.rsvs.find? (fun i => i.ix = j) with
      | none => none
      | some i =>
        match i.phase with
        | .ready => some (s.packItem d { b with nxt := b.nxt + 1 } i (some j))
        | .rejected => State.substitute s d n ({ b with nxt := b.nxt + 1 }.onItem true j (fun q => { q with stage := none }))
        | .late => State.substitute s d n ({ b with nxt := b.nxt + 1 }.onItem true j (fun q => { q with stage := none }))
        | _ => some (s.onBatch d b.id (fun _ => b))

/-- The slot at `cur`, when it is resolved (R410, R411). -/
def State.packSlot (s : State) (d : DieIx) (b : BrnBatch) : State :=
  let draw (b : BrnBatch) : State := (s.substitute d (b.order.length + 1) b).getD s
  match b.items.find? (fun i => i.ix = b.cur) with
  | none => s
  | some own =>
    match b.replay[b.cur]? with
    | none =>
      (match own.phase with
        | .ready => s.packItem d b own none
        | .rejected => draw b
        | .late => draw b
        | _ => s)
    | some e =>
      let fl := recNat e 8 2
      if fl / 16 % 2 = 1 then s.packEmpty d b
      else if fl / 2 % 2 = 1 then
        (match b.rsvs.find? (fun i => i.ix = recNat e 12 2) with
          | none => draw b
          | some i =>
            match i.phase with
            | .ready => s.packItem d b i (some i.ix)
            | .rejected => draw (b.onItem true i.ix (fun q => { q with stage := none }))
            | _ => s)
      else
        match own.phase with
        | .ready => s.packItem d b own none
        | .rejected => draw b
        | _ => s

/-- Packs as far as slots are resolved; only the first batch is packed (R388). -/
def State.packN (d : DieIx) : Nat → State → State
  | 0, s => s
  | n + 1, s =>
    match s.brn[d].batches.head? with
    | none => s
    | some b =>
      if b.loading ∨ specN b.spec ≤ b.cur then s
      else
        let t := s.packSlot d b
        if (t.batchOf d b.id).any (fun q => q.cur = b.cur) then t else State.packN d n t

/-- What a unit does by itself after anything has happened: software entries filled, slots packed, fetches issued. -/
def State.brnAdvance (s : State) (d : DieIx) : State :=
  let n := (s.brn[d].batches.map (fun b => b.items.length + b.rsvs.length + 1)).foldl (· + ·) 0
  State.fetchN d n (State.packN d n (State.softWaiting d n s))

/-! Deadlines (R408). -/

/-- A slot or reserve that is resolved. -/
def BrnItem.resolved (i : BrnItem) : Bool := i.phase == .ready || i.phase == .rejected

/-- At its deadline edge what is not resolved is late. -/
def State.lateBatch (s : State) (d : DieIx) (b : BrnBatch) : State :=
  let all := b.items.filter (fun i => decide (b.cur ≤ i.ix)) ++ b.rsvs
  let late := all.filter (fun i => !i.resolved)
  let s := (late.filter (fun i => i.phase == .soft)).foldl (fun s i => s.cancelSoft d b i) s
  let mark (i : BrnItem) : BrnItem :=
    if i.resolved || (!i.res && decide (i.ix < b.cur)) then i
    else { i with phase := .late, data := [], got := [], stage := if i.phase == .soft then none else i.stage }
  let s := s.onBatch d b.id (fun b => { b with passed := true, items := b.items.map mark, rsvs := b.rsvs.map mark })
  let s := s.onBrn d (fun u => { u with hwq := u.hwq.map (fun l => l.filter (fun (q, r, k) =>
    q != b.id || !late.any (fun i => i.res == r && i.ix == k))) })
  let n := (late.filter (fun i => !i.res)).length
  if n = 0 then s else s.raise (s.brnSrc d.val) 0x1504 (brnPayload d b.cmd n)

/-- Whether a batch's deadline edge has come. -/
def BrnBatch.due (b : BrnBatch) (tide : BitVec 64) : Bool :=
  (b.cmd.word 6).toNat != 0 && !specReplay b.spec && !b.passed && decide (b.since.toNat + 1 + (b.cmd.word 6).toNat ≤ tide.toNat)

/-- Deadlines that have come. -/
def State.brnDue (s : State) (d : DieIx) : State :=
  (s.brn[d].batches.filter (fun b => b.due s.tide.num)).foldl (fun s b => s.lateBatch d b) s

/-- BATCH_DEADLINE (R408). -/
def execBatchDeadline (d : DieIx) (s : State) : Res :=
  if s.clocked then .next ((s.brnDue d).brnAdvance d) else .next s

/-! A batch begins (R388, R392). -/

/-- The replayed manifest: none without REPLAY; cause 0x05 for another batch's. -/
def XCtx.readReplay (x : XCtx) (c : UnitCmd) (b : List Byte) : Option (List (List Byte)) × XCtx :=
  if !specReplay b then (some [], x)
  else
    let (h, x) := x.rdRecord (recNat b 8 8) 128
    if recNat h 0 8 ≠ c.va 1 ∨ recNat h 8 8 ≠ c.va 2 ∨ recNat h 24 4 ≠ specN b then (none, x)
    else
      let (es, x) := x.rdRecordLong (recNat b 8 8 + 128) (32 * specN b)
      (some ((List.range (specN b)).map (fun i => (es.drop (32 * i)).take 32)), x)

/-- Checks a command and forms its batch. -/
def XCtx.buildBatch (x : XCtx) (d : DieIx) (c : UnitCmd) (since : BitVec 64) (seed : Nat) : Read BrnBatch × XCtx :=
  let bad (k : Nat) (x : XCtx) : Read BrnBatch × XCtx := (.bad (bad1501 d c k), x)
  let lost (x : XCtx) : Bool := x.fault.isSome || x.badRecord
  if !((x.s.reg (brnReg d 8)).getLsbD 0 && x.s.brnClaimed d) then bad 6 x
  else if 2 ^ 32 ≤ (c.word 6).toNat then bad 7 x
  else if c.va 0 % 64 ≠ 0 then bad 1 x
  else
    let (h, x) := x.rdRecordLong (c.va 0) 128
    if lost x then (.lost, x)
    else if !headerOk h (c.va 0) then bad 1 x
    else
      let (b, x) := x.rdRecordLong (c.va 0) (specLen h)
      if lost x then (.lost, x)
      else if !branchesOk b || !entriesOk b then bad 1 x
      else
        match x.brnOuts c b with
        | (.lost, x) => (.lost, x)
        | (.bad e, x) =>
          let x := if e.1 = 0 then x else { x with s := x.s.raise x.src e.1 e.2 }
          bad 2 x
        | (.ok outs, x) =>
          if !stageOk b then bad 3 x
          else
            let (ranges, x) := if recNat b 48 8 = 0 then (([] : List Byte), x) else x.rdRecord (recNat b 48 8) 256
            let (rep, x) := x.readReplay c b
            if lost x then (.lost, x)
            else
              match rep with
              | none => bad 5 x
              | some rep =>
                let order := drawOrder seed c (specRsv b)
                let named := rep.filterMap (fun e => if recNat e 8 2 / 2 % 2 = 1 then some (recNat e 12 2) else none)
                let skip (i : Nat) : Bool := match rep[i]? with
                  | some e => recNat e 8 2 / 2 % 2 == 1 || recNat e 8 2 / 16 % 2 == 1
                  | none => false
                let items := (List.range (specN b)).map (fun i =>
                  if skip i then { BrnItem.new false i with phase := .late } else BrnItem.new false i)
                (.ok { id := 0, cmd := c, since := since, spec := b, outs := outs, loading := false, dict := []
                       replay := rep, ranges := ranges
                       order := if specReplay b then order.filter (fun j => !named.contains j) else order
                       nxt := 0, want := if specReplay b then 0 else specRsv b
                       items := items, rsvs := (List.range (specRsv b)).map (BrnItem.new true)
                       cur := 0, passed := false, row := 0, col := 0, toks := [], bkt := [0, 0, 0, 0]
                       chunks := 0, tensors := 0, segs := [], slots := [], stageNext := 0, rsvNext := 0
                       notes := x.notes }, x)

/-- BATCH_BEGIN (R388): the command at the head of the queue is checked and begins, or is refused; a dictionary that
the unit does not hold is waited for (R396). -/
def execBatchBegin (d : DieIx) (s : State) : Res :=
  let u := s.brn[d]
  match u.queue with
  | [] => .next s
  | (c, since) :: l =>
    if !s.clocked ∨ 2 ≤ u.batches.length then .next s
    else
      let s' := s.onBrn d (fun u => { u with queue := l })
      match (s'.brnCtx d c.core.val).buildBatch d c since (s.brnSeed d) with
      | (.bad e, x) => .next (x.close.refuseRaise (s.brnSrc d.val) c e)
      | (.lost, x) =>
        (match x.badEnd with
          | some e => .next (x.close.refuse c e.1 e.2)
          | none => .next x.close)
      | (.ok b, x) =>
        let va := brField b.spec 0 0 8
        let load := brOn b.spec 0 && va != 0 && (u.dict.map (·.1)) != some va
        let dict := if brOn b.spec 0 && va != 0 then (u.dict.map (·.2)).getD [] else []
        let b := { b with id := u.next, loading := load, dict := if load then [] else dict }
        .next (((x.s.onBrn d (fun u => { u with batches := u.batches ++ [b], next := u.next + 1 })).brnDue d).brnAdvance d)

/-- Drops a batch from its unit with everything of it in progress: samples in decoders are abandoned, entries in
software cancelled. -/
def State.dropBatch (s : State) (d : DieIx) (b : BrnBatch) : State :=
  let s := ((b.items ++ b.rsvs).filter (fun i => i.phase == .soft)).foldl (fun s i => s.cancelSoft d b i) s
  s.onBrn d (fun u => { u with
    batches := u.batches.filter (fun q => q.id ≠ b.id)
    hwq := u.hwq.map (fun l => l.filter (fun (q, _, _) => q != b.id)) })

/-- DICT_LOAD_COMPLETE (R396): the loaded dictionary is held, and the batch goes on; one that breaks the rule refuses
the batch with cause 0x04. -/
def execDictLoadComplete (d : DieIx) (s : State) : Res :=
  match s.brn[d].batches.find? (fun b => b.loading) with
  | none => .next s
  | some b =>
    if !s.clocked then .next s
    else
      let va := brField b.spec 0 0 8
      let (r, x) := (s.batchCtx d b).readDict va
      match x.badEnd with
      | some e => .next (((({ x with s := s } : XCtx).close.dropBatch d b).refuse b.cmd e.1 e.2).brnAdvance d)
      | none =>
        match r with
        | none => .next (((x.close.dropBatch d b).refuseRaise (s.brnSrc d.val) b.cmd (bad1501 d b.cmd 4)).brnAdvance d)
        | some dict =>
          let s := (State.noteBatch x d b.id).onBrn d (fun u => { u with dict := some (va, dict) })
          .next (((s.onBatch d b.id (fun b => { b with loading := false, dict := dict })).brnDue d).brnAdvance d)

/-! Records and decodes. -/

/-- The item of a batch in the unit's list of batches in progress. -/
def State.brnItem (s : State) (d : DieIx) (k : Nat) (res : Bool) (ix : Nat) : Option (BrnBatch × BrnItem) :=
  (s.brn[d].batches[k]?).bind (fun b => ((if res then b.rsvs else b.items).find? (fun i => i.ix = ix)).map (fun i => (b, i)))

/-- The bytes of a fetch: none for a transport or translation error, outer none while pieces are awaited. A local
record is read now; `array` and `tries` are the failed attempts of its first word in the slice array (R504) and on the Brine port (R505). -/
def State.fetched (s : State) (d : DieIx) (b : BrnBatch) (i : BrnItem) (array tries : Nat) :
    Option (Option (List Byte)) × State :=
  let f := entField b.spec i.res i.ix
  let len := f 12 4
  let sized (l : List Byte) : Option (List Byte) := if l.length = len then some l else none
  match f 8 1 with
  | 0 =>
    let w := s.xlate (s.partOfDie d.val) 3 .read false (f 16 8)
    let s := if w.reason.isNone then s.pathTries w.pa 4 array else s
    let before := s.poison
    let s := if w.reason.isNone then s.pathTries w.pa 3 tries else s
    let x := s.batchCtx d b
    let (l, x) := ({ x with fault := none } : XCtx).rdLong (f 16 8) len
    let ok := x.fault.isNone
    (some (if ok then some l else none), { State.noteBatch { x with fault := b.notes.fault } d b.id with poison := before })
  | _ =>
    if i.failed then (some none, s)
    else if i.out ≠ 0 then (none, s)
    else
      let sorted := i.got.foldl (fun (a : List (Nat × List Byte)) p =>
        a.takeWhile (fun q => decide (q.1 ≤ p.1)) ++ p :: a.dropWhile (fun q => decide (q.1 ≤ p.1))) []
      (some (sized (sorted.flatMap (·.2))), s)
/-- The payload's check value from context k of CV2d (R383). -/
def State.brnCrc (s : State) (d : DieIx) (k : Nat) (bs : List Byte) : Nat × State :=
  let n := 2 * d.val
  let s := s.setReg (cvCtx n k) (s.reg (cvBase n + 0x10))
  let s := bs.foldl (fun s b => s.cvTake n k b) s
  ((s.cvResult n k).toNat, s)

/-- The first failing check of R387: its cause, and whether it is attempted again. -/
def State.checkRec (s : State) (d : DieIx) (b : BrnBatch) (i : BrnItem) : Option (List Byte) → Option (Nat × Bool) × State
  | none => (some (1, true), s)
  | some r =>
    if !recordShape r (entField b.spec i.res i.ix 12 4) then (some (2, false), s)
    else if recNat r 60 4 ≠ headerCrc r then (some (3, true), s)
    else
      let (c, s) := s.brnCrc d (i.ix % 16) (recordPayload r)
      if c ≠ recNat r 12 4 then (some (4, true), s)
      else if recNat r 16 8 ≠ entField b.spec i.res i.ix 0 8 then (some (5, false), s)
      else if !brOn b.spec (recNat r 5 1) then (some (9, false), s)
      else (none, s)

/-- The end of a decode: ready, rejected, or on to software. -/
def State.decoded (s : State) (d : DieIx) (b : BrnBatch) (i : BrnItem) : Decoded → State
  | .ok i bytes => s.sampleReady d b i bytes
  | .reject c => s.rejectRec d b i c
  | .software =>
    let s := if s.softEn d && !s.ringFree d i.data.length then s.count (brnReg d 0x4D0) 1 else s
    s.onBatch d b.id (fun b => b.onItem i.res i.ix (fun _ => { i with phase := .softWait }))

/-- The accepted sample keeps its branch's bound of the staging allocated for it (R407). -/
def BrnItem.shrinkStage (i : BrnItem) (b : BrnBatch) : BrnItem :=
  { i with stage := i.stage.map (fun r => (r.1, min r.2 (branchBound b.spec i.branch))) }

/-- Where an accepted sample goes (R398): staging at once, software, or a hardware queue; none while its queue is
full. -/
def State.route398 (s : State) (d : DieIx) (b : BrnBatch) (i : BrnItem) : Option State :=
  let seed := s.brnSeed d
  let put (s : State) (i : BrnItem) : State := s.onBatch d b.id (fun b => b.onItem i.res i.ix (fun _ => i))
  if i.branch = 3 ∨ (i.branch = 0 ∧ recNat i.data 6 1 = 1) then some (s.decoded d b i (i.decode b seed))
  else
    let free := s.ringFree d i.data.length
    let full (s : State) : State := if s.softEn d && !free then s.count (brnReg d 0x4D0) 1 else s
    if i.softOnly b seed then
      if s.softEn d && free then some (s.toSoft d b i) else some (full (put s { i with phase := .softWait }))
    else
      let k := i.cls
      let q := s.brn[d].hwq[k]
      let spill := s.softEn d && decide (s.fld (brnReg d 0x10) (8 * k.val + 7) (8 * k.val) < q.length)
      if spill && free then some ((s.toSoft d b { i with spillQ := true }).count (brnReg d 0x460) 1)
      else if 256 ≤ q.length then none
      else
        some (((if spill then full s else s) |> fun s => put s { i with phase := .hw k.val }).onBrn d (fun u =>
          { u with hwq := u.hwq.set k (u.hwq[k] ++ [(b.id, i.res, i.ix)]) }))

/-- RECORD_ARRIVE (R386, R387): the record of a slot or reserve of the unit's k-th batch in progress has been fetched:
checked, and accepted, fetched again or rejected. -/
def execRecordArrive (d : DieIx) (k : Fin 2) (res : Bool) (ix : BitVec 14) (array tries : Fin 5) (s : State) : Res :=
  let s0 := s.brnDue d
  if !s.clocked then .next s
  else
    match s0.brnItem d k.val res ix.toNat with
    | none => .next s
    | some (b, i) =>
      if i.phase != .fetching then .next s
      else
        match s0.fetched d b i array.val tries.val with
        | (none, _) => .next s
        | (some r, s1) =>
          let s1 := s1.count (brnReg d 0x410) ((r.map List.length).getD 0)
          let b := (s1.batchOf d b.id).getD b
          match s1.checkRec d b i r with
          | (some (c, true), s2) =>
            if i.fetches < 3 then .next ((s2.count (brnReg d 0x420) 1).issueFetch d b i)
            else .next ((s2.rejectRec d b i c).brnAdvance d)
          | (some (c, false), s2) => .next ((s2.rejectRec d b i c).brnAdvance d)
          | (none, s2) =>
            let bytes := r.getD []
            let i := ({ i with data := bytes, branch := recNat bytes 5 1 } : BrnItem).shrinkStage b
            match (s2.count (brnReg d 0x400) 1).route398 d b i with
            | some s3 => .next (s3.brnAdvance d)
            | none => .next s

/-- The sample a class decodes. -/
def State.hwHead (s : State) (d : DieIx) (k : Fin 4) : Option (BrnBatch × BrnItem) :=
  (s.brn[d].hwq[k].head?).bind (fun (id, res, ix) =>
    (s.batchOf d id).bind (fun b => ((if res then b.rsvs else b.items).find? (fun i => i.ix = ix)).map (fun i => (b, i))))

/-- BRN_MEAN.MEAN of a class (R399). -/
def BrnSt.mean (u : BrnSt) (k : Fin 4) : Nat :=
  if u.means[k].isEmpty then 0 else u.means[k].foldl (· + ·) 0 / u.means[k].length

/-- DECODE_COMPLETE (R394, R395): the decode at the head of a class finishes after `ns`. -/
def execDecodeComplete (d : DieIx) (k : Fin 4) (ns : BitVec 32) (s : State) : Res :=
  if !s.clocked then .next s
  else
    let s := s.brnDue d
    match s.hwHead d k with
    | none => .next (s.brnAdvance d)
    | some (b, i) =>
      let s := s.onBrn d (fun u => { u with hwq := u.hwq.set k (u.hwq[k].drop 1) })
      let i := { i with ns := ns.toNat }
      let r := i.decode b (s.brnSeed d)
      let s := match r with
        | .ok _ _ => (s.count (brnReg d 0x440) 1).onBrn d (fun u =>
            { u with means := u.means.set k ((ns.toNat :: u.means[k]).take 256) })
        | _ => s
      .next ((s.decoded d b i r).brnAdvance d)

/-- DECODE_OVER_BUDGET (R399): a decode that has run for `ns` and is over its budget goes to software from its
start. -/
def execDecodeOverBudget (d : DieIx) (k : Fin 4) (ns : BitVec 32) (s : State) : Res :=
  if !s.clocked then .next s
  else
    let s := s.brnDue d
    match s.hwHead d k with
    | none => .next s
    | some (b, i) =>
      let u := s.brn[d]
      let r := brnReg d 0x18
      let budget := if u.means[k].length < 16 then s.fld r 63 32 * 1000 else max (64 * u.mean k) (s.fld r 31 0)
      if s.softEn d && s.ringFree d i.data.length && decide (budget < ns.toNat) then
        .next (((s.toSoft d b { i with spillB := true }).count (brnReg d 0x470) 1).brnAdvance d)
      else .next s

/-! Software completions (R400, R401). -/

/-- The sample software decoded, from bytes 48–63 of its entry. -/
def BrnItem.fromSoft (i : BrnItem) (b : BrnBatch) (bs : List Byte) (conceal : Bool) : Option BrnItem :=
  let i : BrnItem := { i with
    phase := .ready
    dmg := (if conceal then recNat bs 8 4 else i.dmg)
    ndmg := (if conceal then recNat bs 12 4 else 0)
    conceal := conceal }
  let cap := (i.stage.getD (0, 0)).2
  match i.branch with
  | 0 =>
    let m := brField b.spec 0 28 4
    some { i with n := min m (recNat bs 0 4), trunc := i.trunc || decide (m < recNat bs 0 4) }
  | 1 => if b.tooLarge (recNat bs 6 2) (recNat bs 4 2) ∨ recNat bs 6 2 * recNat bs 4 2 = 0 then none
      else some { i with h := recNat bs 4 2, w := recNat bs 6 2 }
  | _ => some { i with n := min (recNat bs 0 4) (cap / (4 * brField b.spec 2 1 1)), base := 0 }

/-- A ring entry and its record area are free again. -/
def State.freeRing (s : State) (d : DieIx) (e : Nat) : State :=
  (s.ringState d none e 0).onBrn d (fun u => { u with ring := u.ring.filter (fun q => q.ix ≠ e) })

/-- A write of BRN_SOFT_CPL. -/
def State.softCpl (s : State) (d : DieIx) (e status : Nat) : State :=
  let s := s.brnDue d
  let bad := s.raise (s.brnSrc d.val) 0x1509 (pack [(e, 0), (status, 10), (d.val, 12)])
  match s.brn[d].ring.find? (fun q => q.ix = e) with
  | none => bad
  | some q =>
    let a := (s.reg (brnReg d 0x20)).toNat + 64 * e
    let (bs, x) := (s.brnCtx d 0).rd false a 64
    if status = 3 ∨ (recNat bs 0 4 ≠ 2 ∧ recNat bs 0 4 ≠ 3) then bad
    else
      let s := (x.s.freeRing d e)
      match s.batchOf d q.batch with
      | none => s.brnAdvance d
      | some b =>
        match (if q.res then b.rsvs else b.items).find? (fun i => i.ix = q.item) with
        | none => s.brnAdvance d
        | some i =>
          if q.cancelled ∨ i.phase != .soft then s.brnAdvance d
          else if status = 2 then (s.rejectRec d b i 7).brnAdvance d
          else
            match i.fromSoft b (bs.drop 48) (status == 1) with
            | some i => (s.onBatch d b.id (fun b => b.onItem i.res i.ix (fun _ => i))).brnAdvance d
            | none => (s.rejectRec d b i (if recNat bs 52 2 * recNat bs 54 2 = 0 then 7 else 6)).brnAdvance d

/-- SOFT_COMPLETION (R401): a write of BRN_SOFT_CPL. -/
def execSoftCompletion (d : DieIx) (entry : BitVec 10) (status : BitVec 2) (s : State) : Res :=
  if s.clocked then .next (s.softCpl d entry.toNat status.toNat) else .next s

/-! Completion (R412, R415 to R417). -/

/-- The manifest's entry of a slot (R416). -/
def BrnSlot.bytes (q : BrnSlot) (b : BrnBatch) : List Byte :=
  let u := q.used
  let flags := b2n u.conceal + 2 * b2n q.rsv.isSome + 4 * b2n q.late + 8 * b2n (q.cause != 0) + 16 * b2n q.empty
    + 32 * b2n q.trunc + 2 ^ 8 * b2n u.soft + 2 ^ 9 * b2n u.spillQ + 2 ^ 10 * b2n u.spillB + 2 ^ 11 * b2n (decide (1 < u.fetches))
  leBytes 8 (if q.empty then 0 else entField b.spec u.res u.ix 0 8) ++ leBytes 2 flags ++ leBytes 1 q.cause ++ leBytes 1 0 ++
    leBytes 2 (q.rsv.getD 0xFFFF) ++ leBytes 2 0 ++ leBytes 8 u.dmg ++ leBytes 4 u.ndmg ++ leBytes 4 (q.seg0.getD 0xFFFFFFFF)

/-- Output elements of a packed slot (LOAD, R416). -/
def BrnSlot.elems (q : BrnSlot) (b : BrnBatch) (slot : Nat) : Nat :=
  let segs := b.segs.filter (fun r => r.headD 0 % 65536 == slot)
  match q.used.branch with
  | 0 => ((segs.map (fun r => (r[3]?).getD 0)).foldl (· + ·) 0)
  | 1 => (segs.map (fun r =>
      let k := r.headD 0 / 2 ^ 24
      brField b.spec 1 1 1 * brField b.spec 1 (32 + 8 * k) 2 * brField b.spec 1 (34 + 8 * k) 2)).foldl (· + ·) 0
  | 2 => ((segs.map (fun r => brField b.spec 2 1 1 * (r[3]?).getD 0)).foldl (· + ·) 0)
  | _ => segs.length * brField b.spec 3 4 4

/-- LOAD[br]. -/
def BrnBatch.load (b : BrnBatch) (br : Nat) : List Byte :=
  let l := b.slots.zipIdx.filter (fun (q, _) => !q.empty && q.used.branch == br)
  leBytes 4 l.length ++ leBytes 8 ((l.map (fun (q, i) => q.elems b i)).foldl (· + ·) 0) ++
    leBytes 4 ((l.map (fun (q, _) => q.used.ns)).foldl (· + ·) 0)

/-- Slots that a replay filled otherwise than its manifest says (R411). -/
def BrnBatch.refilled (b : BrnBatch) : Nat :=
  (b.slots.zip b.replay).filter (fun (q, e) =>
    let fl := recNat e 8 2
    q.empty != (fl / 16 % 2 == 1) || q.rsv != (if fl / 2 % 2 = 1 then some (recNat e 12 2) else none)) |>.length

/-- The manifest (R416). -/
def BrnBatch.manifest (b : BrnBatch) (seed : Nat) (tide : BitVec 64) : List Byte :=
  let l := brField b.spec 0 8 4
  let rows := (b.toks.map (fun (p, _) => p / l)).foldl (fun a r => setAdd r a) []
  let flags := b2n (specReplay b.spec) + 2 * b2n (b.slots.any (·.trunc)) + 4 * b2n (b.slots.any (·.empty))
    + 8 * b2n (b.slots.any (·.late)) + 16 * b2n (b.refilled != 0)
  leBytes 8 (b.cmd.va 1) ++ leBytes 8 (b.cmd.va 2) ++ leBytes 8 seed ++ leBytes 4 (specN b.spec) ++ leBytes 4 b.segs.length ++
    leBytes 4 rows.length ++ leBytes 4 flags ++ leBytes 8 tide.toNat ++ b.bkt.flatMap (leBytes 2) ++ leBytes 4 b.chunks ++
    leBytes 4 b.tensors ++ (List.range 4).flatMap b.load ++ b.slots.flatMap (fun q => q.bytes b)

/-- Writes ROWS, with PAD_ID where no token is, and the segment table. -/
def XCtx.writeTables (x : XCtx) (b : BrnBatch) : XCtx :=
  let x := match b.outs.rows with
    | some d =>
      let n := brField b.spec 0 8 4 * brField b.spec 0 24 4
      let pad := codeInt 32 (brField b.spec 0 12 4)
      let a := b.toks.foldl (fun (a : Array Int) (p, t) => a.setIfInBounds p (codeInt 32 t)) (Array.replicate n pad)
      x.writeElems d (valWrites (a.toList.zipIdx.map (fun (v, p) => (p, vInt v))))
    | none => x
  x.writeElems b.outs.seg (valWrites (b.segs.zipIdx.flatMap (fun (r, e) =>
    r.zipIdx.map (fun (v, c) => (c + 4 * e, vInt (codeInt 32 v))))))

/-- Every output element becomes unspecified: the batch met a fault (R342). -/
def XCtx.scrambleBatch (x : XCtx) (b : BrnBatch) : XCtx :=
  (b.outs.rows.toList ++ [b.outs.seg] ++ b.outs.imgs ++ b.outs.audio.toList ++ b.outs.tensor.toList).foldl (fun x d =>
    x.scramble ⟨d, (List.range d.elems).map (fun n => (n, 0)), [], []⟩) x

/-- BATCH_COMPLETE (R417): the first batch, all of whose slots are packed, writes its segment table and manifest and
sets its token; a fault met on the way ends it with error status instead. -/
def execBatchComplete (d : DieIx) (s : State) : Res :=
  match s.brn[d].batches.head? with
  | none => .next s
  | some b =>
    if !s.clocked ∨ b.loading ∨ b.cur < specN b.spec then .next s
    else
      let x := (s.batchCtx d b).writeTables b
      let x := x.wrLong (b.cmd.va 5) (b.manifest (s.brnSeed d) s.tide.num)
      match x.badEnd with
      | some e =>
        let s := (x.scrambleBatch b).close
        .next (((s.dropBatch d b).refuse b.cmd e.1 e.2).brnAdvance d)
      | none =>
        let cnt (f : BrnSlot → Bool) : Nat := (b.slots.filter f).length
        let conceal := cnt (fun q => q.used.conceal)
        let empty := cnt (fun q => q.empty)
        let s := x.close
        let ev (code n : Nat) (s : State) : State :=
          if n = 0 then s else s.raise (s.brnSrc d.val) code (brnPayload d b.cmd n)
        let s := ev 0x1508 (cnt (fun q => q.trunc)) (ev 0x1507 b.refilled (ev 0x1505 empty (ev 0x1503 conceal s)))
        let s := (((s.count (brnReg d 0x480) conceal).count (brnReg d 0x490) (cnt (fun q => q.rsv.isSome))).count
          (brnReg d 0x4A0) empty).count (brnReg d 0x4B0) 1
        .next (((s.dropBatch d b).finish b.cmd false).brnAdvance d)

/-! Enable and disable (R384, R525). -/

/-- ENABLE = 1: tap 0 of the die and CV2d are claimed together and its contexts set for CRC-32C. -/
def State.brnEnable (s : State) (d : DieIx) : State :=
  let o := d.val + 1
  let tap := 0x1000 + 32 * d.val
  let cv := 0x6000 + 2 * d.val
  let held (r : Nat) : Bool := (assoc r s.int.claims).any (fun h => h != o)
  if held tap || held cv then s.raise (s.brnSrc d.val) 0x1506 (BitVec.ofNat 64 d.val)
  else
    let s : State := { s with int := { s.int with claims := assocPut cv o (assocPut tap o s.int.claims) } }
    let n := 2 * d.val
    let s := (s.setFld (brnReg d 8) 0 0 1).setReg (cvBase n) (pack [(1, 0), (1, 1), (1, 2), (32, 16)])
    ((s.setReg (cvBase n + 8) 0x1EDC6F41).setReg (cvBase n + 0x10) 0xFFFFFFFF).setReg (cvBase n + 0x18) 0xFFFFFFFF

/-- ENABLE = 0: the claims are released, and the check-value unit that they held stops. -/
def State.brnDisable (s : State) (d : DieIx) : State :=
  let o := d.val + 1
  let held := s.brnClaimed d
  let s : State := { s with int := { s.int with claims := s.int.claims.filter (fun (_, h) => h != o) } }
  let s := s.setFld (brnReg d 8) 0 0 0
  if held then s.setFld (cvBase (2 * d.val)) 0 0 0 else s

def execBrineEnable (d : DieIx) (s : State) : Res :=
  if s.clocked then .next (s.brnEnable d) else .next s

def execBrineDisable (d : DieIx) (s : State) : Res :=
  if s.clocked then .next (s.brnDisable d) else .next s

end Sys2Proof.Machine
end

