-- ==== Sys2Proof/Machine/XtlMath.lean ====
section
/-! DEFINITION. The crystallizer's state layout, table entries, shard records and update recurrence (R180 to R194,
R206). -/

namespace Sys2Proof.Machine

/-! Layout (R180, R181). -/

/-- Bytes of one value of m and of b. -/
def mBytes (mFmt : Nat) : Nat := 2 * mFmt
def bitternBytes (b : Nat) : Nat := b

/-- State bytes per parameter. -/
def stateBytes (mFmt bittern : Nat) : Nat := 2 + mBytes mFmt + bitternBytes bittern

def Shard.bytes (h : Shard) : Nat := stateBytes h.mFmt h.bittern

/-- Parcels of a shard. -/
def Shard.parcels (h : Shard) : Nat := (h.count + 511) / 512

/-- Address of a parcel. -/
def Shard.parcelVa (h : Shard) (k : Nat) : Nat := h.stateVa + k * (512 * h.bytes)

/-- Parameters of a parcel. -/
def Shard.parcelLen (h : Shard) (k : Nat) : Nat := min 512 (h.count - 512 * k)

/-- Sub-arrays of a parcel: offset and bytes per value of w, m and b. -/
def Shard.arrays (h : Shard) : List (Nat × Nat) :=
  [(0, 2), (1024, mBytes h.mFmt), (1024 + 512 * mBytes h.mFmt, bitternBytes h.bittern)]

/-! Entries and records. -/

/-- A coefficient-table entry, or the cause that refuses it (R185, R186). -/
def parseEntry (b : List Byte) : Except Nat XtlEntry :=
  let mode := recNat b 0 1
  let st := recNat b 1 1
  let ck := mode / 2 % 4
  let f (o : Nat) : Nat := recNat b o 4
  let fin (o : Nat) : Bool := (d32 (f o)).isFin
  let rf := BitVec.ofNat 8 (recNat b 3 1)
  if mode / 16 ≠ 0 ∨ ck = 3 ∨ st / 16 ≠ 0 ∨ st % 4 = 3 ∨ st / 4 % 4 = 3 ∨ !recZero b 38 26 then .error 2
  else if [4, 8, 12, 16, 20, 24, 28, 32].any (fun o => !fin o) then .error 2
  else if ck ≠ 0 ∧ !(vZero false).lt (d32 (f 28)) then .error 2
  else if (d32 (f 32)).lt (vZero false) then .error 2
  else if recNat b 2 1 ≠ 0 ∧ recNat b 2 1 ≠ 0x20 then .error 6
  else
    match fmtOf rf with
    | none => .error 6
    | some fm =>
      if fm.elem == .int8 || fm.elem == .int32 then .error 6
      else
        .ok { sign := mode % 2 == 1, clipKind := ck, watchEn := mode / 8 % 2 == 1, mFmt := st % 4, bittern := st / 4 % 4
              gradFmt := recNat b 2 1, retFmt := recNat b 3 1, c1 := f 4, c2 := f 8, c3 := f 12, c4 := f 16
              eta := f 20, lambda := f 24, clip := f 28, watch := f 32, tag := recNat b 36 2 }

/-- A shard record (R189), none where a reserved field is set or COUNT is out of range. R190 lists no cause for a STATE_VA that
is not aligned to 4 KiB; the low bits that the alignment leaves out count as reserved, so that cause 0x01 refuses the record
(DESIGN CHOICE, log entry 96). -/
def parseShard (b : List Byte) : Option Shard :=
  let n := recNat b 8 8
  if recNat b 0 2 / 1024 ≠ 0 ∨ recNat b 2 1 / 2 ≠ 0 ∨ !recZero b 3 5 ∨ !recZero b 56 8 ∨ n % 4096 ≠ 0 ∨ 2 ^ 56 ≤ n
      ∨ recNat b 16 8 = 0 ∨ 2 ^ 36 < recNat b 16 8 then none
  else
    some { group := recNat b 0 2, returnEn := recNat b 2 1 == 1, stateVa := n, count := recNat b 16 8
           gradDesc := recNat b 24 8, gradIndex := recNat b 32 8, retDesc := recNat b 40 8, retIndex := recNat b 48 8
           mFmt := 0, bittern := 0, last := none, applied := false, damaged := false }

/-! The recurrence (R182 to R184). -/

/-- The values a group's elements share: the entry and ils, eta, lambda, cf as FP32 codes. -/
structure XtlStep where
  entry : XtlEntry
  ils : Nat
  eta : Nat
  lam : Nat
  cf : Nat

/-- Step values of a group from its schedule entry (R182, R196). -/
def XtlRun.stepOf (r : XtlRun) (g : Nat) (e : XtlEntry) : XtlStep :=
  let (es, ls, gn) := (assoc g r.sched).getD (0x3F800000, 0x3F800000, 0)
  let cf :=
    if e.clipKind = 2 then
      if d32 gn == .inf false then 0
      else if (d32 gn).isFin && (d32 e.clip).lt (d32 gn) then div32 e.clip gn
      else 0x3F800000
    else 0x3F800000
  ⟨e, r.ils, mul32 e.eta es, mul32 e.lambda ls, cf⟩

/-- An element's state: codes of w and m, and b. -/
structure XtlElem where
  w : Nat
  m : Nat
  b : Int
  deriving DecidableEq, Repr

/-- What an element's update gives: the new state, w_x and dw, and whether g or w_next was not finite. -/
structure XtlOut where
  elem : XtlElem
  wx : Val
  dw : Val
  badG : Bool
  badW : Bool

/-- Value of m. -/
def mVal (mFmt m : Nat) : Val := if mFmt = 0 then vZero false else if mFmt = 1 then fBF16.decode m else d32 m

/-- Code of m_new: one rounding to its format. -/
def mCode (mFmt : Nat) (v : Val) : Nat := if mFmt = 1 then (fBF16.write .rne v).1 else if mFmt = 2 then r32 v else 0

/-- sign(a) (R182). -/
def signVal (a : Val) : Val := if a.isNan then a else if a.isZero then vZero false else if a.sign then vInt (-1) else vNat 1

/-- One element of an applied step; `mFmt` and `bittern` are the shard's layout. -/
def XtlStep.update (q : XtlStep) (mFmt bittern : Nat) (s : XtlElem) (g : Val) : XtlOut :=
  let e := q.entry
  let w := fBF16.decode s.w
  let wx := if bittern = 0 then w else w.add (bitternVal s.b w (8 * bittern))
  if !g.isFin then ⟨s, wx, vZero false, true, false⟩
  else
    let f (c : Nat) : Val := d32 c
    let gs := mul32 (r32 (g.mul (f q.ils))) q.cf
    let gs := if e.clipKind = 1 then fFP32.minMax false (fFP32.minMax true gs (r32 (f e.clip).neg)) e.clip else gs
    let m := mVal mFmt s.m
    let a := d32 (r32 (((f e.c1).mul m).add ((f e.c2).mul (f gs))))
    let u := if e.sign then signVal a else a
    let mNew := mCode mFmt (((f e.c3).mul m).add ((f e.c4).mul (f gs)))
    let next := d32 (r32 (wx.sub ((f q.eta).mul (u.add ((f q.lam).mul wx)))))
    let (wNew, bNew) := bitternSplit next (8 * bittern)
    ⟨⟨wNew, mNew, if bittern = 0 then 0 else bNew⟩, wx, d32 (r32 (next.sub wx)), false, !next.isFin⟩

/-- Element i of a parcel's bytes. -/
def Shard.elemAt (h : Shard) (p : Array Byte) (i : Nat) : XtlElem :=
  let get (a : Nat × Nat) : Nat := leNat ((List.range a.2).map (fun k => (p[a.1 + a.2 * i + k]?).getD 0))
  match h.arrays with
  | [aw, am, ab] => ⟨get aw, get am, codeInt (8 * ab.2) (get ab)⟩
  | _ => ⟨0, 0, 0⟩

/-- Writes elements 0 … of a parcel's arrays. -/
def Shard.storeElems (h : Shard) (x : XCtx) (va : Nat) (es : List XtlElem) : XCtx :=
  match h.arrays with
  | [aw, am, ab] =>
    let x := x.wr false (va + aw.1) (es.flatMap (fun e => leBytes 2 e.w))
    let x := if am.2 = 0 then x else x.wr false (va + am.1) (es.flatMap (fun e => leBytes am.2 e.m))
    if ab.2 = 0 then x else x.wr false (va + ab.1) (es.flatMap (fun e => leBytes ab.2 (intCode (8 * ab.2) e.b)))
  | _ => x

/-- An exact value rounded to FP64, and FP64 addition, on codes. -/
def c64 (v : Val) : Nat := (fFP64.ieee v).1
def add64 (a b : Nat) : Nat := c64 ((fFP64.decode a).add (fFP64.decode b))

/-- Sum of squares of a parcel, exact and rounded once (R206). -/
def sumSquares (l : List Val) : Nat := c64 (segSum (l.map (fun v => v.mul v)))

/-! Descriptors of a shard (R191, R192). -/

/-- Whether a return range obeys R192. -/
def returnOk (d : Desc) (ix n : Nat) : Bool :=
  !d.fmt.scaled || (d.scaleDim == 0 && ix % 128 == 0 &&
    ((ix + n) % d.cols % d.fmt.blk == 0 || ix + n == d.elems))

/-- The outcome of a check that refuses with a cause of event 0x1402: the cause, and the event of R324 that goes before
it, if any. -/
abbrev XtlBad := Nat × Option Bad

/-- A descriptor of at least `need` elements in a format `ok` allows; a gradient or return descriptor must be
streaming (R335). -/
def XCtx.xtlDesc (x : XCtx) (streaming : Bool) (va need : Nat) (ok : Desc → Bool) : Except (Option XtlBad) Desc × XCtx :=
  match x.readDesc va ⟨streaming, false⟩ with
  | (.lost, x) => (.error none, x)
  | (.bad b, x) => (.error (some (6, some b)), x)
  | (.ok d, x) =>
    if d.elems < need then (.error (some (10, none)), x)
    else if !ok d then (.error (some (6, none)), x)
    else (.ok d, x)

/-- Translates every element of a range for a write, so that a fault shows before anything is written (R342). -/
def XCtx.mayWrite (x : XCtx) (d : Desc) (ix n : Nat) : XCtx :=
  (List.range n).foldl (fun (x : XCtx) j =>
    let idx := delinear d.ext (ix + j)
    let (_, x) := x.xlate .write d.pinned (d.address idx).1
    if d.fmt.scaled then (x.xlate .write d.pinned ((d.scaleBase + d.blockOf idx : Nat) : Int)).2 else x) x

/-- Writes of codes of BF16 weights from an index. -/
def weightWrites (ix : Nat) (ws : List Nat) : List ElemWrite := ws.zipIdx.map (fun (w, j) => ⟨ix + j, fBF16.decode w, .rne⟩)

end Sys2Proof.Machine
end

