-- ==== Sys2Proof/Machine/Crystal.lean ====
section
/-! DEFINITION. The crystallizers at work (06_crystallizer.md): their queues, ENTRY, BIND and UNBIND, RUN, INIT and
XTL.GATHER, resets. -/

namespace Sys2Proof.Machine

/-! The unit. -/

def State.onXtl (s : State) (x : XtlIx) (f : XtlSt → XtlSt) : State := { s with xtl := s.xtl.set x (f s.xtl[x]) }

def xtlReg (x : XtlIx) (off : Nat) : Nat := xtlBase x.val + off

/-- A context of a crystallizer. -/
def State.xtlCtx (s : State) (x : XtlIx) (core : Nat) : XCtx := XCtx.start s 4 (s.xtlSrc x.val) none core

/-- The shard of a slot. -/
def State.shard (s : State) (x : XtlIx) (slot : Nat) : Option Shard := assoc slot s.xtl[x].shards

def State.setShard (s : State) (x : XtlIx) (slot : Nat) (h : Shard) : State :=
  s.onXtl x (fun q => { q with shards := assocPut slot h q.shards })

/-- A slot's number in a command. -/
def UnitOp.xtlSlot : UnitOp → Nat
  | .xtlBind _ k | .xtlUnbind _ k | .xtlInit _ k | .xtlGather _ k => k.toNat
  | _ => 0

/-- A refusal of a crystallizer command (R212). -/
def State.refuseXtl (s : State) (x : XtlIx) (cmd : UnitCmd) (cause : Nat) : State :=
  s.refuseRaise (s.xtlSrc x.val) cmd (bad1402 cause cmd.core.val x.val cmd.op.xtlSlot false)

/-- The physical crystallizer of a logical index of a partition (R212). -/
def State.xtlOf (s : State) (p : Option Nat) (lx : Nat) : Option XtlIx :=
  (List.finRange 8).find? (fun x =>
    p.isSome && s.partOfDie (x.val / 2) == p && s.fld (xtlReg x 0x10) 9 8 == p.getD 0 && s.fld (xtlReg x 0x10) 2 0 == lx)

/-- Whether a range of addresses lies wholly in slow-tier pages of crystallizer `x` mapped for the context's partition
(R190); pages are 2 MiB or larger (R178). -/
def XCtx.inSlow (c : XCtx) (x va n : Nat) : Bool :=
  let step := 2 ^ 21
  let first := va / step
  let last := (va + n - 1) / step
  match c.part with
  | none => false
  | some p =>
    (List.range (last + 1 - first)).all (fun k =>
      let a := max va ((first + k) * step)
      let w := c.s.walk p a
      decide (a < 2 ^ 56) && w.reason.isNone && w.kind == 1 && c.s.region w.pa == some (.slow x))

/-! ENTRY, BIND and UNBIND (R186, R190): the cause that refuses, else the new state. -/

/-- A MASTER_FMT or BITTERN that differs from that of a group with bound shards (R186). -/
def State.entryClash (s : State) (x : XtlIx) (g : Nat) (e : XtlEntry) : Bool :=
  match assoc g s.xtl[x].entries with
  | some o => (o.mFmt != e.mFmt || o.bittern != e.bittern) && s.xtl[x].shards.any (fun q => q.2.group == g)
  | none => false

def State.xtlEntry (s : State) (x : XtlIx) (cmd : UnitCmd) (g : Nat) : Except Nat State :=
  match parseEntry (blockBytes cmd.block) with
  | .error c => .error c
  | .ok e =>
    if s.entryClash x g e = true then .error 2 else .ok (s.onXtl x (fun q => { q with entries := assocPut g e q.entries }))

def State.xtlBind (s : State) (x : XtlIx) (cmd : UnitCmd) (slot : Nat) : Except Nat State :=
  match parseShard (blockBytes cmd.block) with
  | none => .error 1
  | some h =>
    match assoc h.group s.xtl[x].entries with
    | none => .error 2
    | some e =>
      if (s.shard x slot).isSome then .error 9
      else
        let h := { h with mFmt := e.mFmt, bittern := e.bittern }
        if !(s.xtlCtx x cmd.core.val).inSlow x.val h.stateVa (h.parcels * 512 * h.bytes) then .error 3
        else .ok (s.setShard x slot h)

def State.xtlUnbind (s : State) (x : XtlIx) (slot : Nat) : Except Nat State :=
  if (s.shard x slot).isNone then .error 1
  else .ok (s.onXtl x (fun q => { q with shards := assocDel slot q.shards }))

/-! Queue (R187): the commands that take no time are carried out as they reach the head. -/

/-- Begins a reset (R211): queued commands, a RUN that waits for its step's
decision among them, and when forced the RUN in progress are refused with cause 0x08. -/
def State.xtlReset (s : State) (x : XtlIx) (force : Bool) : State :=
  let q := s.xtl[x]
  let cut : Option Nat := q.running.bind (fun r =>
    if r.outcome == some true && decide (r.next ≤ r.last) && (s.shard x r.next).isSome then some r.next else none)
  let cmds := (q.running.map (·.cmd)).toList ++ q.queue
  let s := s.onXtl x (fun q => { q with queue := [], running := none, resetting := true, resetWait := false, ready := false })
  let s := match cut.bind (fun k => (s.shard x k).map (fun h => (k, h))) with
    | some (k, h) => s.setShard x k { h with damaged := true }
    | none => s
  let s := cmds.foldl (fun s c => s.refuseXtl x c 8) s
  s.raise (s.xtlSrc x.val) 0x1408 (pack [(b2n cut.isSome, 16), (cut.getD 0, 8), (b2n force, 3), (x.val, 0)])

/-- Carries out what stands at the head of an idle queue. -/
def State.xtlAdvanceN (x : XtlIx) : Nat → State → State
  | 0, s => s
  | n + 1, s =>
    let q := s.xtl[x]
    match q.queue with
    | [] => s
    | cmd :: l =>
      if q.running.isSome ∨ !q.ready then s
      else
        let out (r : Except Nat State) : State :=
          let pop (s : State) : State := s.onXtl x (fun q => { q with queue := l })
          State.xtlAdvanceN x n (match r with
            | .ok t => (pop t).finish cmd false
            | .error c => (pop s).refuseXtl x cmd c)
        match cmd.op with
        | .xtlEntry _ g => out (s.xtlEntry x cmd g.toNat)
        | .xtlBind _ k => out (s.xtlBind x cmd k.toNat)
        | .xtlUnbind _ k => out (s.xtlUnbind x k.toNat)
        | _ => s

def State.xtlAdvance (s : State) (x : XtlIx) : State := State.xtlAdvanceN x (s.xtl[x].queue.length + 1) s

/-! RUN (R196, R197). -/

/-- Reads a step block: none in `ok` where cause 0x07 refuses it. -/
def XCtx.stepBlock (x : XCtx) (cmd : UnitCmd) (last : Nat) (first : Nat) : Option XtlRun × XCtx :=
  let va := cmd.sval.toNat
  let (h, x) := x.rdRecord va 32
  let n := recNat h 12 2
  let (es, x) := if n ≤ 1024 then x.rdRecord (va + 32) (16 * n) else ([], x)
  let es := (List.range n).map (fun i => (es.drop (16 * i)).take 16)
  let fin (b : List Byte) (o : Nat) : Bool := (d32 (recNat b o 4)).isFin
  let gs := es.map (fun e => recNat e 0 2)
  if 1024 < n ∨ !recZero h 14 2 ∨ !recZero h 24 8 ∨ recNat h 16 8 % 32 ≠ 0 ∨ !fin h 8
      ∨ es.any (fun e => recNat e 0 2 / 1024 != 0 || !recZero e 2 2 || !fin e 4 || !fin e 8)
      ∨ (gs.zip (gs.drop 1)).any (fun (a, b) => decide (b ≤ a)) then (none, x)
  else
    (some { cmd := cmd, last := last, step := BitVec.ofNat 64 (recNat h 0 8), ils := recNat h 8 4
            ratioVa := recNat h 16 8
            sched := es.map (fun e => (recNat e 0 2, recNat e 4 4, recNat e 8 4, recNat e 12 4))
            outcome := none, next := first, error := none, sums := [] }, x)

/-- Notes the first refusal or fault of a RUN. -/
def XtlRun.fail (r : XtlRun) (b : Bad) : XtlRun := { r with error := some (r.error.getD b) }

/-- Ends a context of a RUN: events 0x1202 and 0x1302 are raised once for the command (R342, R352). -/
def XtlRun.closeCtx (r : XtlRun) (c : XCtx) : XtlRun × State :=
  ({ r with faultMet := r.faultMet || c.fault.isSome, poisonMet := r.poisonMet || c.poison.isSome },
    ({ c with fault := if r.faultMet = true then none else c.fault
              poison := if r.poisonMet = true then none else c.poison } : XCtx).close)

/-- Adds a shard's sums to its group (R206). -/
def XtlRun.addSums (r : XtlRun) (g sd sw n : Nat) : XtlRun :=
  match assoc g r.sums with
  | some (a, b, c) => { r with sums := assocPut g (add64 a sd, add64 b sw, c + n) r.sums }
  | none => { r with sums := assocPut g (sd, sw, n) r.sums }

/-- Failed attempts of words of a shard's state (R176, R177, R209): slot, the 32-bit word of the state, and the attempts that
failed on the link and on the slow-tier channel. -/
abbrev SlowTries := List (BitVec 8 × Nat × Fin 5 × Fin 5)

/-- The parcel of a state word. -/
def Shard.parcelOf (h : Shard) (word : Nat) : Nat := 4 * word / (512 * h.bytes)

/-- Parcels with a word that failed its fourth attempt (R209, R504); `tier` says that the command reads the slow tier. -/
def SlowTries.lost (l : SlowTries) (slot : Nat) (h : Shard) (tier : Bool) (k : Nat) : Bool :=
  l.any (fun (q : BitVec 8 × Nat × Fin 5 × Fin 5) =>
    q.1.toNat == slot && h.parcelOf q.2.1 == k && (q.2.2.1 == 4 || (tier && q.2.2.2 == 4)))

/-- Replays on the link and on the channel that each word's address lies on (R176, R177, R506). -/
def State.stateTries (s : State) (x : XtlIx) (l : SlowTries) (slot : Nat) (h : Shard) (tier : Bool) : State :=
  (l.filter (fun (q : BitVec 8 × Nat × Fin 5 × Fin 5) => q.1.toNat == slot)).foldl (fun s (q : BitVec 8 × Nat × Fin 5 × Fin 5) =>
    let link := (triesOf q.2.2.1.val).1
    let s := if link = 0 then s else s.count (xtlReg x 0x450) link
    if !tier then s
    else
      match s.slowChannel (s.walk (s.partNum (x.val / 2)) (h.stateVa + 4 * q.2.1)).pa with
      | some (_, ch) => s.slowTries x.val ch q.2.2.2.val
      | none => s) s

/-- Parcels that could not be read: event 0x1405 for each, and the shard is damaged (R209). -/
def State.lostParcels (s : State) (x : XtlIx) (slot : Nat) (ks : List Nat) : State :=
  let s := ks.foldl (fun s k => s.raise (s.xtlSrc x.val) 0x1405 (pack [(low 40 k, 24), (slot, 16), (x.val, 0)])) s
  match s.shard x slot with
  | some h => if ks.isEmpty then s else s.setShard x slot { h with damaged := true }
  | none => s

/-- What the parcels of one shard's applied step come to. -/
structure ShardOut where
  sd : Nat
  sw : Nat
  n : Nat
  badG : Nat
  badW : Nat
  rets : List (Nat × Nat)
  lost : List Nat

/-- One parcel (R181, R182, R209). -/
def XCtx.parcel (x : XCtx) (q : XtlStep) (h : Shard) (grad : Desc) (lost : Nat → Bool) (o : ShardOut) (k : Nat) :
    ShardOut × XCtx :=
  if lost k then ({ o with lost := o.lost ++ [k] }, x)
  else
    let va := h.parcelVa k
    let n := h.parcelLen k
    let (bs, x) := x.rdLong va (512 * h.bytes)
    let a := bs.toArray
    let (gs, x) := x.collect (fun x i => x.readLin grad ((h.gradIndex + 512 * k + i : Nat) : Int)) (List.range n)
    let rs := gs.zipIdx.map (fun (g, i) => q.update h.mFmt h.bittern (h.elemAt a i) g)
    let x := h.storeElems x va (rs.map (·.elem))
    ({ o with
        sd := add64 o.sd (sumSquares (rs.map (·.dw)))
        sw := add64 o.sw (sumSquares (rs.map (·.wx)))
        n := o.n + n
        badG := o.badG + (rs.filter (·.badG)).length
        badW := o.badW + (rs.filter (·.badW)).length
        rets := o.rets ++ rs.zipIdx.map (fun (r, i) => (512 * k + i, r.elem.w)) }, x)

/-- The outcome of one slot of a RUN: refusal cause with the event of R324 before it, a fault, or done. -/
inductive SlotEnd where
  | refused (b : XtlBad)
  | faulted
  | done (o : ShardOut)

/-- Applies a step to one shard (R191, R192, R342). -/
def XCtx.applyShard (x : XCtx) (q : XtlStep) (h : Shard) (lost : Nat → Bool) : SlotEnd × XCtx :=
  let e := q.entry
  match x.xtlDesc true h.gradDesc (h.gradIndex + h.count) (fun (d : Desc) => d.field.toNat == e.gradFmt) with
  | (.error none, x) => (.faulted, x)
  | (.error (some b), x) => (.refused b, x)
  | (.ok grad, x) =>
    let ret : Except (Option XtlBad) (Option Desc) × XCtx :=
      if h.returnEn then
        match x.xtlDesc true h.retDesc (h.retIndex + h.count)
          (fun (d : Desc) => d.field.toNat == e.retFmt && returnOk d h.retIndex h.count) with
        | (.ok d, x) => (.ok (some d), x)
        | (.error b, x) => (.error b, x)
      else (.ok none, x)
    match ret with
    | (.error none, x) => (.faulted, x)
    | (.error (some b), x) => (.refused b, x)
    | (.ok ret, x) =>
      -- every address is translated before a parcel is written
      let (_, x) := x.collect (fun x i => x.readLin grad ((h.gradIndex + i : Nat) : Int)) (List.range h.count)
      let x := match ret with
        | some d => x.mayWrite d h.retIndex h.count
        | none => x
      let x := (List.range h.parcels).foldl (fun (x : XCtx) k =>
        (x.xlate .write false ((h.parcelVa k : Nat) : Int)).2) x
      if x.fault.isSome then (.faulted, x)
      else
        let (o, x) := (List.range h.parcels).foldl (fun (o, x) k => x.parcel q h grad lost o k)
          ((⟨0, 0, 0, 0, 0, [], []⟩ : ShardOut), x)
        let x := match ret with
          | some d => x.writeElems d (o.rets.map (fun (j, w) => (⟨h.retIndex + j, fBF16.decode w, .rne⟩ : ElemWrite)))
          | none => x
        (.done o, x)

/-- Counts slow-tier bytes read and written, in units of 64. -/
def State.slowBytes (s : State) (x : XtlIx) (rd wr : Nat) : State :=
  let r := s.xtl[x].rdRem + rd
  let w := s.xtl[x].wrRem + wr
  ((s.onXtl x (fun q => { q with rdRem := r % 64, wrRem := w % 64 })).count (xtlReg x 0x430) (r / 64)).count
    (xtlReg x 0x440) (w / 64)

/-- Events and counts of an applied shard (R184, R209). Whole parcels count as read and written (DESIGN CHOICE, log entry
97). -/
def State.shardDone (s : State) (x : XtlIx) (slot : Nat) (h : Shard) (step : BitVec 64) (o : ShardOut) (ovfs : Nat) : State :=
  let bytes := (h.parcels - o.lost.length) * (512 * h.bytes)
  let s := (((s.count (xtlReg x 0x400) (o.n - o.badG)).count (xtlReg x 0x410) 1).slowBytes x bytes bytes).count
    (xtlReg x 0x480) ovfs
  let s := s.count (xtlReg x 0x470) (o.badG + o.badW)
  let pay := pack [(bitsOf step 47 0, 16), (slot, 8), (x.val, 0)]
  let s := if o.badG = 0 then s else s.raise (s.xtlSrc x.val) 0x1406 pay
  let s := if o.badW = 0 then s else s.raise (s.xtlSrc x.val) 0x1407 pay
  (s.setShard x slot { h with last := some step, applied := true }).lostParcels x slot o.lost

/-- Treats one slot of a RUN. -/
def State.treatSlot (s : State) (x : XtlIx) (r : XtlRun) (apply : Bool) (tries : SlowTries) (slot : Nat) : XtlRun × State :=
  let r := { r with next := slot + 1 }
  let refuse (c : Nat) (b : Option Bad) (s : State) : XtlRun × State :=
    let e := bad1402 c r.cmd.core.val x.val slot false
    let s := match b with
      | some b => s.raise (s.xtlSrc x.val) b.1 b.2
      | none => s
    (r.fail e, s.raise (s.xtlSrc x.val) e.1 e.2)
  match s.shard x slot with
  | none => refuse 1 none s
  | some h =>
    if h.damaged then refuse 5 none s
    else if h.last.any (fun l => decide (r.step.toNat ≤ l.toNat)) then refuse 4 none s
    else
      match assoc h.group s.xtl[x].entries with
      | none => refuse 2 none s
      | some e =>
        if !apply then
          ((r.addSums h.group 0 0 0),
            (s.setShard x slot { h with last := some r.step, applied := false }).count (xtlReg x 0x420) 1)
        else
          let s := s.stateTries x tries slot h true
          let lost (k : Nat) : Bool := tries.lost slot h true k
          match (s.xtlCtx x r.cmd.core.val).applyShard (r.stepOf h.group e) h lost with
          | (.refused b, c) => refuse b.1 b.2 c.close
          | (.faulted, c) =>
            let (m, s) := r.closeCtx c
            (match c.badEnd with
              | some b => (m.fail b, s)
              | none => (m, s))
          | (.done o, c) =>
            let (m, s) := r.closeCtx c
            (m.addSums h.group o.sd o.sw o.n, s.shardDone x slot h r.step o c.ovfs)

/-- Treats the slots of a RUN below `lim` (R197). -/
def State.treat (s : State) (x : XtlIx) (r : XtlRun) (apply : Bool) (tries : SlowTries) (lim : Nat) : State :=
  let hi := min (r.last + 1) lim
  let (r, s) := (List.range (hi - r.next)).foldl (fun (acc : XtlRun × State) k =>
    acc.2.treatSlot x acc.1 apply tries (r.next + k)) (r, s)
  s.onXtl x (fun q => { q with running := some r })

/-- XTL_RUN_BEGIN (R196 to R198): the RUN at the head reads its step block and takes its slot; once its step is decided
it treats its slots, below `cut` for now where a cut is given. -/
def execXtlRunBegin (x : XtlIx) (tries : SlowTries) (cut : Option (BitVec 8)) (s : State) : Res :=
  let q := s.xtl[x]
  let p := s.partNum (x.val / 2)
  let go (s : State) (r : XtlRun) : State :=
    match s.takeSlot p r.step with
    | none => s
    | some s =>
      match (s.gateSlot p r.step).bind (·.outcome) with
      | some a => s.treat x { r with outcome := some a } a tries ((cut.map BitVec.toNat).getD 256)
      | none => s
  if !s.clocked ∨ !q.ready then .next s
  else
    match q.running with
    | some r =>
      if r.outcome.isSome then .next s
      else if s.givenUp p r.step then
        .next (((s.onXtl x (fun q => { q with running := none })).refuseXtl x r.cmd 4).xtlAdvance x)
      else .next (go s r)
    | none =>
      match q.queue with
      | [] => .next s
      | cmd :: l =>
        match cmd.op with
        | .xtlRun _ first last =>
          let s' := s.onXtl x (fun q => { q with queue := l })
          if last.toNat < first.toNat then .next ((s'.refuseXtl x cmd 10).xtlAdvance x)
          else
            let (r, c) := (s'.xtlCtx x cmd.core.val).stepBlock cmd last.toNat first.toNat
            let s1 := c.close
            (match c.badEnd, r with
              | some b, _ => .next ((s1.refuse cmd b.1 b.2).xtlAdvance x)
              | none, none => .next ((s1.refuseXtl x cmd 7).xtlAdvance x)
              | none, some r =>
                if s1.givenUp p r.step then .next ((s1.refuseXtl x cmd 4).xtlAdvance x)
                else .next (go (s1.onXtl x (fun q => { q with running := some r })) r))
        | _ => .next s

/-! Ratio records (R207, R208). -/

/-- Groups in ascending order. -/
def XtlRun.groups (r : XtlRun) : List Nat := r.sums.foldl (fun a (g, _) => setAdd g a) []

/-- Whether a group is over its threshold. -/
def overWatch (e : XtlEntry) (sd sw : Nat) : Bool :=
  let w := d32 e.watch
  e.watchEn && (fFP64.decode (c64 ((fFP64.decode (c64 (w.mul w))).mul (fFP64.decode sw)))).lt (fFP64.decode sd)

/-- ρ of event 0x1401. -/
def ratioCode (sd sw : Nat) : Nat :=
  if (fFP64.decode sw).isZero then fFP32.infCode else r32 ((fFP64.decode sd).div (fFP64.decode sw)).sqrt

/-- The records of a RUN, and its watch events. -/
def State.ratios (s : State) (x : XtlIx) (r : XtlRun) (apply : Bool) : List Byte × State :=
  r.groups.foldl (fun (acc : List Byte × State) g =>
    let (sd, sw, n) := (assoc g r.sums).getD (0, 0, 0)
    match assoc g s.xtl[x].entries with
    | none => acc
    | some e =>
      let watched := apply && overWatch e sd sw
      let b := leBytes 2 g ++ leBytes 2 e.tag ++ leBytes 1 (b2n (!apply) + 2 * b2n watched) ++ leBytes 3 0 ++ leBytes 8 sd ++
        leBytes 8 sw ++ leBytes 8 n
      let t := acc.2
      -- once for each group, crystallizer and step
      let known := s.xtl[x].watched.contains (r.step, g)
      (acc.1 ++ b, if watched ∧ !known then
          ((t.onXtl x (fun q => { q with watched := (r.step, g) :: q.watched })).count (xtlReg x 0x460) 1).raise (t.xtlSrc x.val) 0x1401
            (pack [(ratioCode sd sw, 32), (bitsOf r.step 15 0, 16), (x.val, 13), (g, 0)])
        else t)) ([], s)

/-! INIT and XTL.GATHER (R193, R194). -/

/-- What INIT or GATHER answers: done, refused with a cause, or faulted. -/
abbrev XtlAns := Except (Option XtlBad) Unit × XCtx

/-- Every state element of a shard becomes unspecified (R342). -/
def XCtx.scrambleShard (x : XCtx) (h : Shard) : XCtx :=
  (List.range h.parcels).foldl (fun (x : XCtx) k =>
    let (es, x) := x.collect (fun (x : XCtx) _ =>
      let (v, s) := x.s.fresh
      ((⟨bitsOf v 15 0, bitsOf v 47 16 % 2 ^ (8 * mBytes h.mFmt), codeInt (8 * h.bittern) (bitsOf v 63 48 % 2 ^ (8 * h.bittern))⟩ :
        XtlElem), { x with s := s })) (List.range (h.parcelLen k))
    h.storeElems x (h.parcelVa k) es) x

/-- INIT of a shard. A parcel that the link lost is left unwritten (R209, R504). -/
def XCtx.initShard (x : XCtx) (cmd : UnitCmd) (lost : Nat → Bool) (h : Shard) : XtlAns :=
    match x.xtlDesc false (cmd.va 0) (cmd.va 1 + h.count) (fun (d : Desc) => d.fmt.elem == .fp32 || d.fmt.elem == .bf16) with
    | (.error e, x) => (.error e, x)
    | (.ok d, x) =>
      let (vs, x) := x.collect (fun x i => x.readLin d ((cmd.va 1 + i : Nat) : Int)) (List.range h.count)
      let x := (List.range h.parcels).foldl (fun (x : XCtx) k => (x.xlate .write false ((h.parcelVa k : Nat) : Int)).2) x
      if x.fault.isSome then (.error none, x.scrambleShard h)
      else
        let es := vs.map (fun v =>
          let (w, b) := bitternSplit (d32 (r32 v)) (8 * h.bittern)
          (⟨w, 0, if h.bittern = 0 then 0 else b⟩ : XtlElem))
        let x := (List.range h.parcels).foldl (fun (x : XCtx) k =>
          if lost k then x else h.storeElems x (h.parcelVa k) ((es.drop (512 * k)).take 512)) x
        (.ok (), x)

/-- XTL.GATHER of a shard. Elements of a parcel that could not be read are left as they are (R209). -/
def XCtx.gatherShard (x : XCtx) (cmd : UnitCmd) (lost : Nat → Bool) (h : Shard) : XtlAns :=
  let e0 := cmd.va 0
  let n := cmd.va 1
  if h.count < e0 + n then (.error (some (10, none)), x)
  else
    match x.xtlDesc false (cmd.va 2) (cmd.va 3 + n) (fun _ => true) with
    | (.error e, x) => (.error e, x)
    | (.ok d, x) =>
      let (ws, x) := x.collect (fun (x : XCtx) j =>
        let (b, x) := x.rd false (h.parcelVa ((e0 + j) / 512) + 2 * ((e0 + j) % 512)) 2
        (leNat b, x)) (List.range n)
      let x := x.mayWrite d (cmd.va 3) n
      if x.fault.isSome then
        let (p, y) := x.plan d (weightWrites (cmd.va 3) ws)
        (.error none, ({ y with nanBlocks := x.nanBlocks } : XCtx).scramble p)
      else
        (.ok (), x.writeElems d (((weightWrites (cmd.va 3) ws).zipIdx.filter (fun (_, j) => !lost ((e0 + j) / 512))).map (·.1)))

/-- A RUN, INIT or XTL.GATHER ends; a reset that waited begins (R211). -/
def State.xtlNext (s : State) (x : XtlIx) : State :=
  if s.xtl[x].resetWait then s.xtlReset x false else s.xtlAdvance x

/-- XTL_COMMAND_COMPLETE (R193, R194, R197, R207): a RUN treats what remains of its slots, writes its ratio records and
signals; an INIT or XTL.GATHER at the head is carried out and signals. INIT counts n·B bytes written and XTL.GATHER 2·n read
(log entry 97); overflows of XTL.GATHER's writes are not counted in XTL_RETURN_OVF_CNT, which R192 defines for the writes of a
RUN (DESIGN CHOICE, log entry 98). -/
def execXtlCommandComplete (x : XtlIx) (tries : SlowTries) (s : State) : Res :=
  let q := s.xtl[x]
  if !s.clocked then .next s
  else
    match q.running with
    | some r =>
      (match r.outcome with
        | none => .next s
        | some a =>
          let s := s.treat x r a tries 256
          let r := (s.xtl[x].running).getD r
          let (bs, s) := s.ratios x r a
          let c := if r.ratioVa = 0 then s.xtlCtx x r.cmd.core.val else (s.xtlCtx x r.cmd.core.val).wrLong r.ratioVa bs
          let s := (r.closeCtx c).2.onXtl x (fun q => { q with running := none })
          let r := match c.badEnd with
            | some b => r.fail b
            | none => r
          match r.error with
          | some b => .next ((s.refuse r.cmd b.1 b.2).xtlNext x)
          | none => .next ((s.finish r.cmd false).xtlNext x))
    | none =>
      match q.queue with
      | [] => .next s
      | cmd :: l =>
        let slot := cmd.op.xtlSlot
        let tier : Bool := match cmd.op with
          | .xtlGather .. => true
          | _ => false
        let act : Option (State → Shard → XtlAns) := match cmd.op with
          | .xtlInit .. => some (fun s h => (s.xtlCtx x cmd.core.val).initShard cmd (tries.lost slot h tier) h)
          | .xtlGather .. => some (fun s h => (s.xtlCtx x cmd.core.val).gatherShard cmd (tries.lost slot h tier) h)
          | _ => none
        if !q.ready then .next s
        else
          match act with
          | none => .next s
          | some f =>
            let pop (s : State) : State := s.onXtl x (fun q => { q with queue := l })
            match s.shard x slot with
            | none => .next (((pop s).refuseXtl x cmd 1).xtlNext x)
            | some h =>
              if h.damaged then .next (((pop s).refuseXtl x cmd 5).xtlNext x)
              else
                let s := s.stateTries x tries slot h tier
                match f s h with
                | (.error none, c) =>
                  (match c.badEnd with
                    | some b => .next (((pop c.close).refuse cmd b.1 b.2).xtlNext x)
                    | none => .next s)
                | (.error (some (k, b)), c) =>
                  let s := match b with
                    | some b => c.close.raise (s.xtlSrc x.val) b.1 b.2
                    | none => c.close
                  .next (((pop s).refuseXtl x cmd k).xtlNext x)
                | (.ok _, c) =>
                  let n := h.count
                  let s := match cmd.op with
                    | .xtlInit .. =>
                      (c.close.setShard x slot { h with last := none, applied := false }).slowBytes x 0 (n * h.bytes)
                    | _ => (c.close.count (xtlReg x 0x490) (cmd.va 1)).slowBytes x (2 * cmd.va 1) 0
                  let s := s.lostParcels x slot ((List.range h.parcels).filter (fun k => tries.lost slot h tier k))
                  .next (((pop s).finish cmd false).xtlNext x)

/-! Reset (R211). -/

/-- A write of RESET = 1 with FORCE as it stands after the write. -/
def State.xtlCtlReset (s : State) (x : XtlIx) (force : Bool) : State :=
  let q := s.xtl[x]
  if q.resetting then s
  else if q.inRun.isSome ∧ !force then s.onXtl x (fun q => { q with resetWait := true })
  else s.xtlReset x force

/-- XTL_CTL_RESET (R211). -/
def execXtlCtlReset (x : XtlIx) (force : Bool) (s : State) : Res :=
  .next (if s.awake then (s.setFld (xtlReg x 8) 1 1 (b2n force)).xtlCtlReset x force else s)

/-- XTL_RESET_COMPLETE (R211): READY sets. -/
def execXtlResetComplete (x : XtlIx) (s : State) : Res :=
  if s.xtl[x].resetting then .next (s.onXtl x (fun q => { q with resetting := false, ready := true })) else .next s

end Sys2Proof.Machine
end

