-- ==== Sys2Proof/Machine/Enqueue.lean ====
section
/-! DEFINITION. How a unit command leaves its core-side buffer for the queue of its unit (R154, R246, R421, R629). -/

namespace Sys2Proof.Machine

/-- The head of a buffer leaves it. -/
def State.popBuf (s : State) (c : CoreIx) (t : Target) (l : List UnitCmd) : State := s.onCore c (fun k => k.setBuf t l)

/-- To the pan of the core's cluster, 32 entries; a PAN.TWIN to both pans of the die at once (R154). None while there is no
room. -/
def State.toPan (s : State) (cmd : UnitCmd) : Option State :=
  let p := clusterOf cmd.core
  let room (q : ClusterIx) : Bool := decide (s.pan[q].queue.length < 32)
  let put (s : State) (q : ClusterIx) : State := s.onPan q (fun z => { z with queue := z.queue ++ [cmd] })
  match cmd.op with
  | .panTwin .. => if room p && room (twinOf p) then some (put (put s p) (twinOf p)) else none
  | _ => if room p then some (put s p) else none

/-- SL of a sluice command. -/
def UnitOp.sluSel : UnitOp → SlSel
  | .sluCopy sl _ => sl
  | .sluGather sl => sl
  | .sluScatter sl _ => sl
  | .sluReduce sl _ => sl
  | .sluColl sl _ _ => sl
  | .sluXmit sl _ => sl
  | .sluWait sl => sl
  | _ => .any

/-- To the sluice that SL names, or the one with the fewest queued commands; 16 entries each. A cluster without the sluice
named refuses the command. -/
def State.toSlu (s : State) (cmd : UnitCmd) : Option State :=
  let cl := clusterOf cmd.core
  let l := s.healthySlu cl
  let pick : Option SluIx × Nat := match cmd.op.sluSel with
    | .sl i => (l[i.val]?, i.val)
    | .any => (s.fewest l, 0)
  match pick with
  | (some i, _) =>
    if s.slu[i].queue.length < 16 then some (s.onSlu i (fun u => { u with queue := u.queue ++ [cmd] })) else none
  | (none, k) =>
    let i := 4 * cl.val + k
    some (s.refuseRaise (s.sluSrc i) cmd (bad1601 1 cmd.core.val i cmd.op.sluFn))

/-- To the die's Brine unit: at most 4 batches queued or in progress. -/
def State.toBrn (s : State) (cmd : UnitCmd) : Option State :=
  let d : DieIx := dieOfCore cmd.core
  let b := s.brn[d]
  if b.queue.length + b.batches.length < 4 then
    some (s.onBrn d (fun u => { u with queue := u.queue ++ [(cmd, s.tide.num)] }))
  else none

/-- The logical crystallizer a command names. -/
def UnitOp.xtlLx : UnitOp → Nat
  | .xtlRun lx _ _ => lx.val
  | .xtlBind lx _ => lx.val
  | .xtlUnbind lx _ => lx.val
  | .xtlEntry lx _ => lx.val
  | .xtlInit lx _ => lx.val
  | .xtlGather lx _ => lx.val
  | _ => 0

/-- To the crystallizer that LX names in the core's partition, 64 entries; refused when LX names none, or one in reset
(R211, R212). -/
def State.toXtl (s : State) (cmd : UnitCmd) : Option State :=
  let lx := cmd.op.xtlLx
  let part := s.partOfDie (cmd.core.val / 32)
  match s.xtlOf part lx with
  | none =>
    some (s.refuseRaise (s.modSrc 8 (part.getD 0)) cmd (bad1402 0x0A cmd.core.val lx cmd.op.xtlSlot true))
  | some x =>
    if s.xtl[x].resetting then some (s.refuseXtl x cmd 8)
    else if s.xtl[x].queued < 64 then
      some ((s.onXtl x (fun q => { q with queue := q.queue ++ [cmd] })).xtlAdvance x)
    else none

/-- COMMAND_ENQUEUE: the head of a core's buffer of one target reaches its unit's queue, when the queue has room. A SEAL
leaves its buffer by SEAL_DRAIN. -/
def execCommandEnqueue (c : CoreIx) (t : Target) (s : State) : Res :=
  .next (if !s.clocked then s
    else
      match s.core[c].buf t with
      | [] => s
      | cmd :: l =>
        let s' := s.popBuf c t l
        let r : Option State := match t with
          | .pan => s'.toPan cmd
          | .slu => s'.toSlu cmd
          | .brn => s'.toBrn cmd
          | .xtl => (match cmd.op with
            | .xtlSeal _ => none
            | _ => s'.toXtl cmd)
        r.getD s)

end Sys2Proof.Machine
end

