-- ==== Sys2Proof/Machine/LoadStore.lean ====
section
/-! DEFINITION. Loads, stores, handle instructions and atomics at issue (R270 to R276, R284). A virtual-space access
enters the core's list of accesses; ACCESS_PERFORMED performs it. -/

namespace Sys2Proof.Machine

/-- Translation at issue (R271, R342): a failed one raises event 0x1202 and defers cause 0x05. -/
def State.issueXlate (s : State) (c : CoreIx) (acc : AccKind) (va : BitVec 64) : Option Nat × State :=
  let x := s.coreCtx c
  let w := s.xlate x.part 0 acc false va.toNat
  let s := if w.bad then s.poisonEvent c va.toNat else s
  match w.reason with
  | some r => (none, (s.raise x.src 0x1202 (x.faultPayload (low 56 va.toNat, r))).deferTrap c 5 0 va)
  | none => (some w.pa, s)

/-- An access joins the core's list. -/
def State.pushAcc (s : State) (c : CoreIx) (as : List Access) : State :=
  s.onCore c (fun k => { k with acc := k.acc ++ as })

/-- A load's destination after a deferred fault: an unspecified value (R255). -/
def State.freshScalar (s : State) (c : CoreIx) (rd : RegIx) : State :=
  let (w, s) := s.fresh
  s.onCore c (fun k => k.sput rd w)

/-- The checks of R271: cause 0x03, then cause 0x04. -/
def memCheck (a : BitVec 64) (n : Nat) (loc : Bool) : Option Nat :=
  if a.toNat % n ≠ 0 then some 3
  else if loc ∧ 0x100000 < a.toNat + n then some 4
  else none

/-- The instruction's word is done: counted, PC advanced. -/
def State.step8 (s : State) (c : CoreIx) : State := s.retire c id

/-- LD (R270, R271). -/
def execLd (c : CoreIx) (rd ra : RegIx) (sz : MemSz) (sgn loc : Bool) (imm : BitVec 32) (s : State) : Res :=
  issueWhen c [rd, ra] [] (fun s =>
    let a := s.core[c].addr ra imm
    match memCheck a sz.bytes loc with
    | some cause => s.precise c cause a
    | none =>
      if loc then
        s.retire c (fun k => k.sput rd (extend sz sgn (leNat (k.localBytes a.toNat sz.bytes))))
      else
        match s.issueXlate c .read a with
        | (some pa, s) => (s.pushAcc c [⟨a.toNat, pa, .ld rd sz sgn⟩]).step8 c
        | (none, s) => (s.freshScalar c rd).step8 c) s

/-- ST (R270, R271). -/
def execSt (c : CoreIx) (rs ra : RegIx) (sz : MemSz) (loc : Bool) (imm : BitVec 32) (s : State) : Res :=
  issueWhen c [rs, ra] [] (fun s =>
    let a := s.core[c].addr ra imm
    let v := s.core[c].sget rs
    match memCheck a sz.bytes loc with
    | some cause => s.precise c cause a
    | none =>
      if loc then s.retire c (fun k => k.localStore a.toNat (leBytes sz.bytes v.toNat))
      else
        match s.issueXlate c .write a with
        | (some pa, s) => (s.pushAcc c [⟨a.toNat, pa, .st sz v⟩]).step8 c
        | (none, s) => s.step8 c) s

/-- Bytes of line `l` of a vector access that the predicate enables (R272). -/
def lineMask (p : BitVec 256) (t : VTy) (l : Nat) : BitVec 64 :=
  BitVec.ofNat 64 ((List.range 64).foldl (fun a i => a + b2n (predBit p ((64 * l + i) / (t.width / 8))) * 2 ^ i) 0)

/-- VLD (R272): four 64-byte lines, each performed on its own (R301). -/
def execVld (c : CoreIx) (vd ra : RegIx) (p : PredIx) (t : VTy) (loc : Bool) (imm : BitVec 32) (s : State) : Res :=
  issueWhen c [ra] [vd] (fun s =>
    let k := s.core[c]
    let a := k.addr ra imm
    match memCheck a 256 loc with
    | some cause => s.precise c cause a
    | none =>
      let mask (l : Nat) : BitVec 64 := lineMask (k.pget p) t l
      if loc then
        s.retire c (fun k => k.vput vd ((List.range 4).foldl (fun v l =>
          lineMerge v l (mask l) (k.localBytes (a.toNat + 64 * l) 64)) (k.vget vd)))
      else
        match s.issueXlate c .read a with
        | (some pa, s) =>
          (s.pushAcc c ((List.range 4).map (fun l =>
            ⟨a.toNat + 64 * l, pa + 64 * l, .vld vd (Fin.ofNat 4 l) (mask l) false⟩))).step8 c
        | (none, s) =>
          let (v, s) := s.freshVec
          (s.onCore c (fun k => k.vput vd v)).step8 c) s

/-- Bytes of a local store under a mask. -/
def CoreSt.localMasked (k : CoreSt) (a : Nat) (mask : BitVec 64) (bs : List Byte) : CoreSt :=
  bs.zipIdx.foldl (fun k (b, i) => if mask.getLsbD i then k.localStore (a + i) [b] else k) k

/-- VST (R272). -/
def execVst (c : CoreIx) (vd ra : RegIx) (p : PredIx) (t : VTy) (loc : Bool) (imm : BitVec 32) (s : State) : Res :=
  issueWhen c [ra] [vd] (fun s =>
    let k := s.core[c]
    let a := k.addr ra imm
    match memCheck a 256 loc with
    | some cause => s.precise c cause a
    | none =>
      let mask (l : Nat) : BitVec 64 := lineMask (k.pget p) t l
      let data (l : Nat) : Nat := laneGet 512 (k.vget vd) l
      if loc then
        s.retire c (fun k => (List.range 4).foldl (fun k l =>
          k.localMasked (a.toNat + 64 * l) (mask l) (leBytes 64 (data l))) k)
      else
        match s.issueXlate c .write a with
        | (some pa, s) =>
          (s.pushAcc c ((List.range 4).map (fun l =>
            ⟨a.toNat + 64 * l, pa + 64 * l, .vst (BitVec.ofNat 512 (data l)) (mask l)⟩))).step8 c
        | (none, s) => s.step8 c) s

/-! Handles (R273 to R276). -/

/-- THL: a weave descriptor is 128-byte aligned, a window record 64-byte aligned, else cause 0x03 (R273). -/
def execThl (c : CoreIx) (th : HndIx) (kind : HndKind) (ra rc : RegIx) (s : State) : Res :=
  issueWhen c [ra, rc] [] (fun s =>
    let a := s.core[c].sget ra
    let n := match kind with
      | .weave => 128
      | .window => 64
    if a.toNat % n ≠ 0 then s.precise c 3 a
    else (s.loadHandle c th kind a (s.core[c].sget rc)).step8 c) s

/-- An invalid use of a handle: cause 0x06 with the handle number (R240, R275). -/
def State.badHandle (s : State) (c : CoreIx) (th : HndIx) : State := s.precise c 6 (BitVec.ofNat 64 th.val)

/-- TLD (R274, R275, R240). -/
def execTld (c : CoreIx) (vd : RegIx) (th : HndIx) (p : PredIx) (t : VTy) (adv : Bool) (s : State) : Res :=
  issueWhen c [] [vd] (fun s =>
    match s.core[c].hnd[th] with
    | none => s.badHandle c th
    | some q =>
      if laneAllowed q.src.fmt false t then ((s.drain c).handleLoad c vd th p t adv q).step8 c
      else s.badHandle c th) s

/-- TST (R274, R275, R239, R240). -/
def execTst (c : CoreIx) (vd : RegIx) (th : HndIx) (p : PredIx) (t : VTy) (adv : Bool) (s : State) : Res :=
  issueWhen c [] [vd] (fun s =>
    match s.core[c].hnd[th] with
    | some q =>
      match q.src with
      | .weave d =>
        if laneAllowed d.fmt true t then ((s.drain c).handleStore c vd th p t adv q d).step8 c
        else s.badHandle c th
      | .window _ => s.badHandle c th
    | none => s.badHandle c th) s

/-- THC: acts on the cursor of a valid handle (R276). -/
def cursorOp (c : CoreIx) (th : HndIx) (ss : List RegIx) (f : CoreSt → Handle → CoreSt) (s : State) : Res :=
  issueWhen c ss [] (fun s =>
    match s.core[c].hnd[th] with
    | some q => s.retire c (fun k => f k q)
    | none => s.badHandle c th) s

def execThcRead (c : CoreIx) (rd : RegIx) (th : HndIx) (s : State) : Res :=
  cursorOp c th [rd] (fun k q => k.sput rd q.cursor) s

def execThcSet (c : CoreIx) (th : HndIx) (rc : RegIx) (s : State) : Res :=
  cursorOp c th [rc] (fun k q => { k with hnd := k.hnd.set th (some { q with cursor := k.sget rc }) }) s

def execThcAdd (c : CoreIx) (th : HndIx) (rc : RegIx) (s : State) : Res :=
  cursorOp c th [rc] (fun k q => { k with hnd := k.hnd.set th (some { q with cursor := q.cursor + k.sget rc }) }) s

/-! Atomics (R284, R313). -/

/-- An AMO at issue: aligned to its size, else cause 0x03; a read-write access to the word. -/
def atomic (c : CoreIx) (fn : Fin 5) (sz : AmoSz) (rd ra rb rc : RegIx) (s : State) : Res :=
  issueWhen c [rd, ra, rb, rc] [] (fun s =>
    let k := s.core[c]
    let a := k.sget ra
    if a.toNat % sz.bytes ≠ 0 then s.precise c 3 a
    else
      match s.issueXlate c .atomic a with
      | (some pa, s) => (s.pushAcc c [⟨a.toNat, pa, .amo fn sz rd (k.sget rb) (k.sget rc)⟩]).step8 c
      | (none, s) => (s.freshScalar c rd).step8 c) s

def execAmoAdd (c : CoreIx) (rd ra rb : RegIx) (sz : AmoSz) (s : State) : Res := atomic c 0 sz rd ra rb 0 s
def execAmoMin (c : CoreIx) (rd ra rb : RegIx) (sz : AmoSz) (s : State) : Res := atomic c 1 sz rd ra rb 0 s
def execAmoMax (c : CoreIx) (rd ra rb : RegIx) (sz : AmoSz) (s : State) : Res := atomic c 2 sz rd ra rb 0 s
def execAmoSwp (c : CoreIx) (rd ra rb : RegIx) (sz : AmoSz) (s : State) : Res := atomic c 3 sz rd ra rb 0 s
def execAmoCas (c : CoreIx) (rd ra rb rc : RegIx) (sz : AmoSz) (s : State) : Res := atomic c 4 sz rd ra rb rc s

end Sys2Proof.Machine
end

