-- ==== Sys2Proof/Machine/Views.lean ====
section
/-! DEFINITION. What each register of the control window reads (the register tables of the chapters). A register whose
fields are not held as they stand is composed here from the unit's state. -/

namespace Sys2Proof.Machine

/-! Device block. -/

/-- The 32 bytes of a ledger entry (R572). -/
def LedgerEnt.bytes (e : LedgerEnt) : List Byte :=
  leBytes 8 e.tide.toNat ++ leBytes 4 e.boot.toNat ++ leBytes 1 e.kind ++ leBytes 1 e.role ++ leBytes 2 0 ++
    leBytes 8 (low 48 e.actor.toNat) ++ leBytes 4 e.old.toNat ++ leBytes 4 e.new.toNat

/-- LEDGER_ENTRY_w: bytes 8w to 8w + 7 of entry IDX, zero beyond COUNT. -/
def State.ledgerWord (s : State) (w : Nat) : BitVec 64 :=
  match s.mgmt.ledger[s.fld 0x2010 10 0]? with
  | some e => BitVec.ofNat 64 (leNat ((e.bytes.drop (8 * w)).take 8))
  | none => 0

def State.devView (s : State) (off : Nat) : BitVec 64 :=
  if off = 0x1008 then s.tide.num
  else if off = 0x1018 then BitVec.ofNat 64 (low 20 s.tide.ns)
  else if off = 0x2000 then BitVec.ofNat 64 (low 12 s.mgmt.ledger.length)
  else if off = 0x2008 then s.ledgerUsed
  else if 0x2018 ≤ off ∧ off < 0x2038 then s.ledgerWord ((off - 0x2018) / 8)
  else s.reg off

/-! Pan block. -/

/-- The code of a fold in PAN_STATUS.FOLD_CUR. -/
def foldCode (f : Nat) : Nat := if f = 4 then 1 else if f = 16 then 2 else 0

def State.panStatus (s : State) (p : ClusterIx) : BitVec 64 :=
  let q := s.pan[p]
  pack [(b2n (q.running.isSome || !q.ending.isEmpty), 0), (b2n q.gated, 1), ((q.running.map (fun (r : PanRun) => foldCode r.fold)).getD 0, 2),
    (b2n q.whole, 4), (q.width, 5), (q.queue.length, 8)]

/-- PAN_FILL_STATUS: rows in open batches, and open batches. -/
def State.fillStatus (s : State) (p : ClusterIx) : BitVec 64 :=
  let l := s.pan[p].batches
  pack [(l.length, 0), ((l.map Batch.rows).foldl (· + ·) 0, 16)]

def State.rakeStatus (s : State) (p : ClusterIx) : BitVec 64 :=
  pack ((List.finRange 4).map (fun i => (b2n (s.pan[p].slots[i]).isSome, i.val)))

/-- TWIN_STATUS. The twin at the head waits while it is there and has not begun (R155). -/
def State.twinStatus (s : State) (p : ClusterIx) : BitVec 64 :=
  let q := s.pan[p]
  let role := ((q.running.bind (fun (r : PanRun) => r.job)).map (fun (j : PanJob) => j.role)).getD 0
  pack [(b2n q.preloaded.isSome, 0), (b2n (!q.passing && q.queue.head?.any UnitCmd.isTwin), 1), (role, 2),
    ((twinOf p).val, 4), ((q.queue.filter UnitCmd.isTwin).length, 8)]

def State.panView (s : State) (p : ClusterIx) (off r : Nat) : BitVec 64 :=
  if r = 0 then s.panStatus p
  else if r = 0x20 then s.fillStatus p
  else if r = 0x28 then s.rakeStatus p
  else if r = 0x30 then pack [(s.pan[p].fenced.toNat, 0), (s.fld off 47 32, 32)]
  else if r = 0x80000 then s.twinStatus p
  else s.reg off

/-! Crystallizer block. -/

def State.xtlStatus (s : State) (x : XtlIx) : BitVec 64 :=
  let q := s.xtl[x]
  pack [(b2n q.ready, 0), (b2n q.inRun.isSome, 1), (b2n q.resetting, 2),
    (b2n (q.shards.any (fun (h : Nat × Shard) => h.2.damaged)), 3),
    (16 - popcount 16 (s.fld (xtlReg x 0x18) 15 0), 16), (q.queued, 24), (q.shards.length, 32)]

/-- XTL_ENTRY_VALID_i. -/
def State.entryValid (s : State) (x : XtlIx) (i : Nat) : BitVec 64 :=
  (s.xtl[x].entries.filter (fun (e : Nat × XtlEntry) => decide (e.1 / 64 = i))).foldl
    (fun a (e : Nat × XtlEntry) => a ||| BitVec.ofNat 64 (2 ^ (e.1 % 64))) 0

def State.shardStatus (s : State) (x : XtlIx) (k : Nat) : BitVec 64 :=
  match s.shard x k with
  | none => 0
  | some h =>
    pack [(h.group, 0), (match h.last with
      | none => 0
      | some _ => if h.applied then 1 else 2, 10), (if h.damaged then 2 else 1, 12),
      (low 48 ((h.last.getD 0).toNat), 16)]

/-- XTL_GATE_STAT.PENDING: suspect passes of a step and its outstanding granules. -/
def State.gatePending (s : State) (p : Nat) (step : BitVec 64) : Nat :=
  let mine (c : UnitCmd) : Bool := c.step == step && s.partNum (c.core.val / 32) == p
  let recs := (s.int.recs.toList.map (fun (l : List RepRec) => (l.filter (fun r => r.cmds.any mine)).length)).foldl (· + ·) 0
  let held := (s.pan.toList.map (fun (q : PanSt) => (q.held.filter (fun r => r.cmds.any mine)).length)).foldl (· + ·) 0
  recs + held + (s.int.held.filter (fun h => h == (p, step))).length + s.granulesOf p step

/-- Slot `i` of the partition that PART_SEL names. -/
def State.gateShown (s : State) (i : Nat) : Option GateSlot :=
  (s.gate.slots.filter (fun g => g.part = s.fld (xtlBase 0 + 0x800) 33 32))[i]?

def State.gateStat (s : State) (i : Nat) : BitVec 64 :=
  match s.gateShown i with
  | none => 0
  | some g =>
    let job := g.job.getD (false, false)
    let held := match g.sealed, g.outcome with
      | some t, none => min 0xFFFFFF (s.tide.num - t).toNat
      | _, _ => 0
    let out := match g.outcome with
      | none => 0
      | some true => 1
      | some false => 2
    pack [(b2n g.sealed.isSome, 0), (b2n g.localSt.isSome, 1), (b2n g.job.isSome, 2), (b2n job.1, 3), (b2n job.2, 4), (1, 5),
      (out, 6), (held, 8), (low 16 (s.gatePending g.part g.step), 32)]

/-- The gate unit's registers, shared by the crystallizer blocks. -/
def State.gateView (s : State) (off r : Nat) : BitVec 64 :=
  let h := s.gate.horizon[Fin.ofNat 4 (s.fld (xtlBase 0 + 0x800) 33 32)]
  if r = 0x800 then setBits (s.reg off) 34 34 (b2n h.isSome)
  else if r = 0x808 then h.getD 0
  else if r % 16 = 0 then ((s.gateShown ((r - 0x810) / 16)).map (·.step)).getD 0
  else s.gateStat ((r - 0x818) / 16)

def State.xtlView (s : State) (x : XtlIx) (off r : Nat) : BitVec 64 :=
  if r = 0 then s.xtlStatus x
  else if r = 8 then setBits (s.reg off) 0 0 (b2n (s.xtl[x].resetting || s.xtl[x].resetWait))
  else if 0x100 ≤ r ∧ r < 0x180 then s.entryValid x ((r - 0x100) / 8)
  else if 0x800 ≤ r ∧ r < 0x890 then s.gateView off r
  else if 0x1000 ≤ r ∧ r < 0x1800 then s.shardStatus x ((r - 0x1000) / 8)
  else s.reg off

/-! Dispatch, cache, memory, Brine and sluice blocks. -/

def State.seqStatus (s : State) (c : ClusterIx) : BitVec 64 :=
  let d := s.disp[c]
  pack [(b2n d.running.isSome, 0), (b2n d.overrun, 1), (b2n d.blocked, 2), (d.avail, 12)]

/-- CACHE_STATUS. Updates are performed as they arrive, so the update queue reads 0 entries. -/
def State.cacheStatus (s : State) (c : ClusterIx) : BitVec 64 :=
  let ret := s.fld (clusterBase c.val + 0x80100) 4 0
  pack [(b2n s.pan[c].stripeOn, 0), (ret, 8), (s.healthyWays c.val - ret, 16)]

def State.memView (s : State) (d : DieIx) (off r : Nat) : BitVec 64 :=
  if r = 0 then s.stkStatus
  else if r = 0x40 then s.stkLmap
  else if 0x80 ≤ r ∧ r < 0xA0 then s.stkFreeCount ((r - 0x80) / 8)
  else if 0x2000 ≤ r ∧ r < 0x2400 ∧ r % 0x100 = 0 then s.memStack (4 * d.val + (r - 0x2000) / 0x100)
  else s.reg off

def State.brnView (s : State) (d : DieIx) (off r : Nat) : BitVec 64 :=
  let u := s.brn[d]
  if r = 0 then
    pack [(s.fld (brnReg d 8) 0 0, 0), (b2n !u.batches.isEmpty, 1), (b2n (s.brnClaimed d), 2),
      (b2n (u.batches.any (fun (b : BrnBatch) => b.loading)), 3), (u.queue.length + u.batches.length, 16),
      (u.ring.length, 32)]
  else if r = 0x48 then
    (match u.dict with
      | some (va, _) => pack [(va, 0), (1, 63)]
      | none => 0)
  else if 0x80 ≤ r ∧ r < 0xA0 then
    let k : Fin 4 := Fin.ofNat 4 ((r - 0x80) / 8)
    pack [(low 32 (u.mean k), 0), ((u.means[k]).length, 32)]
  else s.reg off

def State.sluView (s : State) (c : ClusterIx) (off r : Nat) : BitVec 64 :=
  if r < 0x20 then
    let q := s.slu[(Fin.ofNat 32 (4 * c.val + r / 8) : SluIx)]
    pack [(b2n !q.running.isEmpty, 0), (b2n (q.running.any (fun (t : SluRun) => t.coll.isSome)), 1), (q.running.length, 2),
      (q.queue.length, 8)]
  else s.reg off

/-! Integrity, check-value and power blocks. -/

def State.intView (s : State) (off : Nat) : BitVec 64 :=
  if off = 0x210008 then s.intStatus
  else if 0x210080 ≤ off ∧ off < 0x2100A0 then s.intHeld ((off - 0x210080) / 8)
  else if 0x210140 ≤ off ∧ off < 0x210180 then
    setBits (s.reg off) 63 32 (s.wayPending (Fin.ofNat 8 ((off - 0x210140) / 8)))
  else s.reg off

/-- CV_STATUS and CV_CTX_RES_k. No byte is fed between two commands, so ACTIVE reads 0. -/
def State.cvView (s : State) (n : Nat) (off r : Nat) : BitVec 64 :=
  if r = 0x20 then
    let tap := cvTapRes n (s.fld (cvBase n) 15 8)
    let mine (h : Nat) : Bool := h == 0x10 + n || (decide (1 ≤ h) && decide (h ≤ 4) && s.cvBrine n)
    let claimed := (s.reg (cvBase n)).getLsbD 0 && tap.any (fun t => (assoc t s.int.claims).any mine)
    setBits (setBits (s.reg off) 2 2 (b2n (s.cvBrine n))) 1 1 (b2n claimed)
  else if 0x100 ≤ r ∧ r % 0x40 = 8 then s.cvResult n ((r - 0x100) / 0x40)
  else s.reg off

def State.pwrView (s : State) (off : Nat) : BitVec 64 :=
  if 0x100100 ≤ off ∧ off < 0x100120 then s.pwrDie (Fin.ofNat 4 ((off - 0x100100) / 8)) else s.reg off

/-! A read of the window. -/

/-- The physical core that a block of the window's core index names: the index is logical (R254). -/
def State.windowCore (s : State) (c : ClusterIx) (i : Fin 16) : CoreIx := (s.physOf c i.val).getD (Fin.ofNat 128 (16 * c.val + i.val))

/-- What a register listed at offset `r` of a block reads; `off` is where it is held. -/
def State.regView (s : State) (b : Blk) (off r : Nat) : BitVec 64 :=
  match b with
  | .dev => s.devView off
  | .pwr => s.pwrView off
  | .int => s.intView off
  | .mgmt => s.reg off
  | .cv n => s.cvView n.val off r
  | .pan p => s.panView p off r
  | .core c i => (s.coreRead (s.windowCore c i) r).getD 0
  | .disp c => if r = 0x110018 then s.seqStatus c else s.reg off
  | .cache c => if r = 0 then s.cacheStatus c else s.reg off
  | .slu c => s.sluView c off r
  | .mem d => s.memView d off r
  | .brn d => s.brnView d off r
  | .fab _ => s.reg off
  | .opt _ => s.reg off
  | .xtl x => s.xtlView x off r

/-- Offset under which a counter of the window is kept: that of the physical core for a core's counter. -/
def State.ctrKey (s : State) (off : Nat) : Nat :=
  match blkOfOff off with
  | some (.core c i, r) => coreCtr (s.windowCore c i) r
  | _ => off

/-- Counters of what the model does not hold (log entry 60), by the block and the offset of their live value: pan-cycles
that depend on time inside a tide, fills and bytes that depend on what a slice holds, and corrections of
a line code. A read of one, or of its shadow, is that of `State.readOpen`. -/
def openCtr (b : Blk) (r : Nat) : Bool :=
  match b with
  | .pan _ => r == 0x420 || r == 0x430 || r == 0x80410
  | .core .. => r == 0x410 || r == 0x420
  | .cache _ => r == 0x400 || r == 0x410 || r == 0x450 || r == 0x460 || r == 0x470
  | .mem _ => decide (0x3000 ≤ r ∧ r < 0x3800) && (r % 0x100 == 0 || r % 0x100 == 0x10 || r % 0x100 == 0x60)
  | .brn _ => r == 0x4C0
  | .fab _ => r == 0x500 || (decide (0x400 ≤ r ∧ r < 0x500) && r % 0x40 == 0x30)
  | .opt _ => (decide (0x4000 ≤ r ∧ r < 0x6000) && r % 0x200 == 0x30) || (decide (0xD000 ≤ r) && r % 0x40 == 0x10)
  | .int => r == 0x2104A0
  | _ => false

/-- The open counter that an offset of the window lists, and whether it is the shadow. -/
def State.openAt (s : State) (off : Nat) : Option (Nat × Bool) :=
  let key (o : Nat) (shadow : Bool) : Option (Nat × Bool) :=
    if (blkOfOff o).any (fun q => openCtr q.1 q.2) then some (s.ctrKey o, shadow) else none
  match slotOf off with
  | some (.ctr o) => key o false
  | some (.shadow o) => key o true
  | _ => none

/-- The free fills of a register: those of ISSUE_STATUS, and UPDQ of CACHE_STATUS, of 256 entries (R246, R317). -/
def fillsAt (off : Nat) : List (Nat × Nat) :=
  match blkOfOff off with
  | some (.core _ _, r) => coreFills r
  | some (.cache _, 0) => [(32, 256)]
  | _ => []

/-- What a read of the window gives, where `v` is held (log entries 37, 60). -/
def State.readLive (s : State) (off : Nat) (v : BitVec 64) : BitVec 64 × State :=
  let (v, s) := s.readOpen (s.openAt off) v
  s.readFills (fillsAt off) v

/-- Where every open counter is kept: PAN_BUSY_CNT, PAN_BUBBLE_CNT, TWIN_WAIT_CNT; CORE_ISSUE_STALL_CNT, CORE_WAIT_CNT;
CACHE_HIT_CNT, CACHE_MISS_CNT, CACHE_SERIAL_CNT, CACHE_UPDQ_FULL_CNT, ORD_FENCE_WAIT_CNT; MEM_RD_CNT, MEM_WR_CNT and
MEM_FLEUR_FULL_CNT; BRN_STAGE_FULL_CNT; FAB_CREDIT_STALL_CNT, SLU_RQ_FULL_CNT; LINK_CREDIT_STALL_CNT, ETH_FEC_CORR_CNT;
INT_RECORD_FULL_CNT. -/
def openKeys : List Nat :=
  let cl := List.range 8
  let die := List.range 4
  cl.flatMap (fun c => [0x420, 0x430, 0x80410].map (fun r => panBase c + r))
    ++ (List.finRange 128).flatMap (fun c => [coreCtr c 0x410, coreCtr c 0x420])
    ++ cl.flatMap (fun c => [0x400, 0x410, 0x450, 0x460, 0x470].map (fun r => clusterBase c + 0x200000 + r))
    ++ die.flatMap (fun d => die.flatMap (fun j => [0, 0x10, 0x60].map (fun r => memBase d + 0x3000 + 0x100 * j + r)))
    ++ die.map (fun d => brnReg (Fin.ofNat 4 d) 0x4C0)
    ++ die.flatMap (fun d => [0x430, 0x470, 0x4B0, 0x500].map (fun r => fabBase d + r))
    ++ die.flatMap (fun d => (List.range 16).map (fun i => optBase d + 0x4030 + 0x200 * i))
    ++ cl.map (fun i => optBase 0 + 0xD010 + 0x40 * i)
    ++ [0x2104A0]

/-- Bits that a read returns: a write-only field reads zero. -/
def RegDesc.shown (d : RegDesc) (v : BitVec 64) : BitVec 64 := v &&& ~~~d.wo

/-- A read of an offset of the window; none where no chapter lists one (R9). -/
def State.windowRead (s : State) (off : Nat) : Option (BitVec 64) :=
  match slotOf off with
  | some (.reg d b _ r) => some (d.shown (s.regView b (canonOff b off r) r))
  | some (.ctr o) => some (s.ctrAt (s.ctrKey o))
  | some (.shadow o) => some (mapGet zero64 s.shadow (s.ctrKey o))
  | none => none

end Sys2Proof.Machine
end

