-- ==== Sys2Proof/Machine/Regs.lean ====
section
/-! DEFINITION. What a write of each register of the control window does (R9 to R14, and the rules of each register), who
may make it (R290), and the commands that are such writes. -/

namespace Sys2Proof.Machine

/-! Fields that do not take a write. -/

/-- All 64 bits when `b` holds. -/
def allIf (b : Bool) : BitVec 64 := if b then BitVec.allOnes 64 else 0

/-- STK_STATUS.READY. -/
def State.stkReady (s : State) : Bool := (s.reg (stkReg 0)).getLsbD 0

/-- The granule ring of a cluster holds an entry. -/
def State.ringHolds (s : State) (c : ClusterIx) : Bool :=
  s.fld (dispReg c.val 0x10) 13 8 != s.fld (dispReg c.val 0x10) 5 0

/-- The bits of a register with no behaviour of its own that a write of `v` leaves as they are: fields frozen under
JOB_LOCK or by their unit's state, and fields for which `v` names a code that is ignored. -/
def State.frozen (s : State) (b : Blk) (r : Nat) (v : BitVec 64) : BitVec 64 :=
  let lock := s.locked
  match b with
  | .dev => if r = 0x1020 ∧ bitsOf v 1 0 = 3 then 3 else 0
  | .pwr => if 0x100140 ≤ r ∧ r < 0x100160 ∧ 8 ≤ bitsOf v 3 0 ∧ bitsOf v 3 0 ≤ 14 then 15 else 0
  | .int => 0
  | .mgmt => 0
  | .cv n => allIf (s.cvBrine n.val)
  | .pan _ =>
    if r = 0x10 then (if bitsOf v 1 0 = 3 then 3 else 0) else allIf (lock && (r == 0x80100 || r == 0x80108))
  | .core .. => 0
  | .disp c =>
    if r = 0x110000 then (if lock then 0xF00000000 else 0)
    else if r = 0x110008 then allIf (lock || s.ringHolds c)
    else 0
  | .cache _ => 0
  | .slu _ => allIf (lock && (r == 0x48 || r == 0x50))
  | .mem _ => allIf (s.stkReady && (r == 0x10 || r == 0x18))
  | .brn _ => allIf (lock && (r == 0x20 || r == 0x28 || r == 0x30))
  | .fab _ => allIf (lock && r == 0x100)
  | .opt _ =>
    if r = 0 then allIf lock
    else if 0xC000 ≤ r ∧ r < 0xD000 ∧ r % 0x40 = 0x10 ∧ bitsOf v 9 8 = 3 then 0x300
    else 0
  | .xtl _ => allIf (lock && r == 0x10)

/-- A write of a register without behaviour of its own, in the bits of `mask`: RW bits change, 1 clears a W1C bit (R12),
RWT bits wait for the next edge (R13); reserved and read-only bits take nothing (R11). -/
def State.plainWrite (s : State) (d : RegDesc) (off : Nat) (v mask : BitVec 64) : State :=
  let rw := d.rw &&& mask
  let old := s.reg off
  let s := s.setReg off (((old &&& ~~~rw) ||| (v &&& rw)) &&& ~~~(v &&& d.w1c &&& mask))
  let t := d.rwt &&& mask
  if t = 0 then s
  else
    let cur := (assoc off s.staged).getD (s.reg off)
    s.stage off ((cur &&& ~~~t) ||| (v &&& t))

/-! Registers with behaviour of their own. -/

/-- A write of GRQ_PTR (R251): TAIL moves on, or event 0x1114 where the ring would hold fewer entries. -/
def State.tailWrite (s : State) (c : ClusterIx) (t : Nat) : State :=
  let ptr := dispReg c.val 0x10
  let head := s.fld ptr 13 8
  let held := (s.fld ptr 5 0 + 64 - head) % 64
  if (t + 64 - head) % 64 < held then s.raise (s.dispSrc c.val) 0x1114 (pack [(t, 0), (head, 8), (c.val, 16)])
  else s.setFld ptr 5 0 t

/-- A write of BRN_CTL (R384): ENABLE at once, SOFT_EN at the next edge. -/
def State.brnCtlWrite (s : State) (d : DieIx) (v : BitVec 64) : State :=
  let s := s.stage (brnReg d 8) (v &&& 4)
  if v.getLsbD 0 then s.brnEnable d else s.brnDisable d

/-- ENABLE of a port (R461): 1 takes a DISABLED port to DARK, or to ETHERNET in that personality; 0 takes any state to
DISABLED and discards its streams. -/
def State.linkEnable (s : State) (p : PortIx) (on : Bool) : State :=
  let s := s.setFld (linkReg p 8) 0 0 (b2n on)
  if on then
    if s.portState p = 0 then s.setPort p (if s.fld (linkReg p 8) 1 1 = 1 then 6 else 1) else s
  else
    let s := ((s.setPort p 0).setFld (linkReg p 0) 15 8 0).onPort p (fun q => { PortSt.reset with knock := q.knock })
    if p.val < 8 then s.setFld (ethReg p.val) 1 0 0 else s

/-- UNRETIRE (R476): clears the retirements of a DISABLED port's lanes; ignored otherwise. -/
def State.linkUnretire (s : State) (p : PortIx) : State :=
  if s.portState p = 0 then s.setFld (linkReg p 0) 31 24 0 else s

/-- A write of LINK_CTL: PERSONALITY on ports 0 to 7 and only while ENABLE is 0. -/
def State.linkCtlWrite (s : State) (p : PortIx) (v : BitVec 64) : State :=
  let off := linkReg p 8
  let s := s.setFld off 15 8 (bitsOf v 15 8)
  let s := if p.val < 8 ∧ s.fld off 0 0 = 0 then s.setFld off 1 1 (bitsOf v 1 1) else s
  let s := if v.getLsbD 2 then s.linkUnretire p else s
  s.linkEnable p (v.getLsbD 0)

/-- GO of LINK_KNOCK (R497, R498): the pattern starts, or ERR and event 0x170B. A GO while one is being sent leaves it. -/
def State.knockGo (s : State) (p : PortIx) : State :=
  let st := s.portState p
  if s.link.port[p].knock then s
  else if st = 3 ∨ st = 4 ∨ st = 6 ∨ st = 0 ∨ !s.engineLit (p.val / 8) then
    (s.setFld (linkReg p 0x20) 1 1 1).raise (s.portSrc p) 0x170B (pack [(p.val, 0), (st, 6)])
  else (s.onPort p (fun q => { q with knock := true })).setFld (linkReg p 0x20) 0 0 1

/-- A write of LINK_KNOCK. -/
def State.knockWrite (s : State) (p : PortIx) (v : BitVec 64) : State :=
  let off := linkReg p 0x20
  let s := s.setFld off 7 4 (bitsOf v 7 4)
  let s := if v.getLsbD 1 then s.setFld off 1 1 0 else s
  if v.getLsbD 0 then s.knockGo p else s

/-- RELEASE of a laser bay (R458): the partner ramps when it reads SHARING; otherwise event 0x1706. -/
def State.laserRelease (s : State) (b : Nat) : State :=
  let q := s.laser (partnerBay b)
  if q = 2 then s.setFld (laserReg b 8) 0 0 1 else s.raise (s.optSrc (b / 2)) 0x1706 (pack [(b, 0), (q, 4)])

/-- A write of TU_CONN_j (R482): VALID only while JOB_LOCK is 0; VALID = 1 sets both MSNs to 0, and the entry stands as
new. -/
def State.connWrite (s : State) (d : DieIx) (j : Nat) (v : BitVec 64) : State :=
  let off := optBase d.val + 0x8000 + 8 * j
  let s := s.setFld off 17 0 (bitsOf v 17 0)
  if s.locked then s
  else
    let s := s.setFld off 63 63 (bitsOf v 63 63)
    if v.getLsbD 63 then
      ({ s with link := { s.link with conns := assocDel (d.val, j) s.link.conns } } : State).setFld off 62 62 0
    else s

/-- The units of a fence map, by bit. -/
def fenceUnits (off : Nat) : List (Nat × FenceUnit) :=
  let r := List.range 64
  if off = 0x210100 ∨ off = 0x210108 then
    r.map (fun b => (b, .engine (Fin.ofNat 8 (4 * ((off - 0x210100) / 8) + b / 16)) (Fin.ofNat 16 b)))
  else if off = 0x210110 then (List.range 8).map (fun b => (b, .pan (Fin.ofNat 8 b)))
  else if off = 0x210118 ∨ off = 0x210120 then
    r.map (fun b => (b, .core (Fin.ofNat 128 (64 * ((off - 0x210118) / 8) + b))))
  else if off = 0x210128 then (List.range 32).map (fun b => (b, .sluice (Fin.ofNat 32 b)))
  else if 0x210140 ≤ off ∧ off < 0x210180 then
    (List.range 32).map (fun b => (b, .way (Fin.ofNat 8 ((off - 0x210140) / 8)) (Fin.ofNat 32 b)))
  else if off = 0x210180 ∨ off = 0x210188 then
    r.map (fun b => (b, .slowChan (Fin.ofNat 8 (4 * ((off - 0x210180) / 8) + b / 16)) (Fin.ofNat 16 b)))
  else []

/-- A write of a fence map (R522): each bit that changes is a fence set or cleared. -/
def State.fenceMapWrite (s : State) (off : Nat) (v : BitVec 64) : State :=
  let old := s.reg off
  (fenceUnits off).foldl (fun (s : State) (q : Nat × FenceUnit) =>
    if v.getLsbD q.1 == old.getLsbD q.1 then s
    else if v.getLsbD q.1 then s.fenceWrite q.2 else s.fenceErase q.2) s

/-! Claims by firmware features (R597, R598). -/

/-- The resource ids of R597. -/
def resourceOk (r : Nat) : Bool :=
  (decide (0x1000 ≤ r ∧ r < 0x1080) && decide (r % 32 ≤ 18)) || decide (0x2000 ≤ r ∧ r < 0x2010)
    || decide (0x3000 ≤ r ∧ r < 0x3004) || decide (0x4000 ≤ r ∧ r < 0x4008) || decide (0x5000 ≤ r ∧ r < 0x5004)
    || decide (0x6000 ≤ r ∧ r < 0x6010)

/-- CLAIM_STATUS set: the holder of the resource, and the result. -/
def State.claimEnd (s : State) (r result : Nat) : State :=
  s.setReg 0x3008 (pack [((assoc r s.int.claims).getD 0, 40), (result, 0)])

/-- A write of CLAIM_REQ. ALERT_L claimed by a feature leaves the alert register (R613). -/
def State.claimReq (s : State) (owner op r : Nat) : State :=
  if !resourceOk r || owner < 0xC0 || 256 ≤ owner || op = 0 then s.setReg 0x3008 3
  else
    match op, assoc r s.int.claims with
    | 1, some h =>
      if h = owner then s.claimEnd r 0
      else (s.claimEnd r 1).raiseMod 3 0x407 (pack [(r, 0), (owner, 16), (h, 24)])
    | 1, none =>
      let s := ({ s with int := { s.int with claims := assocPut r owner s.int.claims } } : State).claimEnd r 0
      if r = 0x5003 then s.alert 4 else s
    | 2, some h =>
      if h = owner then
        ({ s with int := { s.int with claims := s.int.claims.filter (fun (q : Nat × Nat) => q.1 != r) } } : State).claimEnd r 0
      else s.claimEnd r 2
    | 2, none => s.claimEnd r 2
    | _, _ => s.claimEnd r 0

/-! Mailboxes (R591). -/

/-- MGMT_MBOX_p. -/
def mboxReg (p : Nat) : Nat := 0x300140 + 8 * p

/-- A write of MGMT_MBOX_p. -/
def State.mboxWrite (s : State) (p : Nat) (v : BitVec 64) : State :=
  let off := mboxReg p
  if v.getLsbD 1 then s.setFld off 1 1 0
  else if s.fld off 0 0 = 1 then s.setFld off 1 1 1
  else s.setReg off (((s.reg off) &&& 2) ||| (v &&& 0x00FFFFFFFFFFFFC0) ||| 1)

/-! A write of the window. -/

/-- A write of a register with behaviour of its own, by block; none for the others. `v` holds, in the fields that the
writer may not change, what they hold already. -/
def State.specialWrite (s : State) (b : Blk) (off r : Nat) (v : BitVec 64) : Option State :=
  match b with
  | .dev =>
    if r = 0x1000 then some (s.periodWrite v)
    else if r = 0x1040 then some (s.snapWrite v)
    else if r = 0x3000 then some (s.claimReq (bitsOf v 39 32) (bitsOf v 29 28) (bitsOf v 15 0))
    else none
  | .pwr =>
    if r = 0x100008 then some (s.classWrite (bitsOf v 1 0))
    else if r = 0x100018 then some (s.capSchedWrite v)
    else if r = 0x100020 then some (s.orderWrite v)
    else if r = 0x100028 then some (s.floorWrite v)
    else if r = 0x100200 then some (s.pwrReqWrite v)
    else if 0x100240 ≤ r ∧ r < 0x100280 ∧ r % 16 = 0 then some (s.markWrite ((r - 0x100240) / 16) v)
    else none
  | .int =>
    if r = 0x210000 then some (s.intCtlWrite v)
    else if r = 0x2100A0 then some (s.redoRelease (BitVec.ofNat 48 (bitsOf v 63 16)) (Fin.ofNat 4 (bitsOf v 1 0)))
    else if 0x210100 ≤ r ∧ r < 0x210190 then some (s.fenceMapWrite r v)
    else if 0x220000 ≤ r ∧ r < 0x220400 ∧ r % 0x100 = 0 then some (s.traceWrite (Fin.ofNat 4 ((r - 0x220000) / 0x100)) v)
    else none
  | .mgmt =>
    if 0x300140 ≤ r ∧ r < 0x300160 then some (s.mboxWrite ((r - 0x300140) / 8) v)
    else if r = 0x300200 then some (s.lifecycleWrite (bitsOf v 1 0))
    else if r = 0x300208 then some (s.ownerWrite (bitsOf v 4 0))
    else if r = 0x300210 then some (if v.getLsbD 0 then s.debugWrite else s)
    else none
  | .cv n =>
    if r = 0 then some (s.cvCtlWrite n.val v)
    else if 0x100 ≤ r ∧ r % 0x40 = 0 then some (s.cvValWrite n.val ((r - 0x100) / 0x40) v)
    else if 0x100 ≤ r ∧ r % 0x40 = 0x10 then some (s.cvBaseWrite n.val ((r - 0x100) / 0x40) v)
    else none
  | .pan p => if r = 0x38 then some (s.fuseWrite p (v.setWidth 16)) else none
  | .core c i => some (s.coreWrite (s.windowCore c i) r v)
  | .disp c => if r = 0x110010 then some (s.tailWrite c (bitsOf v 5 0)) else none
  | .cache _ => none
  | .slu _ => none
  | .mem d =>
    if r = 0x30 then some (s.stkReqWrite v)
    else if r = 0x1010 then some (s.mmuInvWrite d v)
    else if 0x2000 ≤ r ∧ r % 0x100 = 0 then
      some (if v.getLsbD 4 then s.evacRetry (4 * d.val + (r - 0x2000) / 0x100) else s)
    else none
  | .brn d =>
    if r = 8 then some (s.brnCtlWrite d v)
    else if r = 0x40 then some (s.softCpl d (bitsOf v 9 0) (bitsOf v 17 16))
    else none
  | .fab _ => none
  | .opt d =>
    let port : PortIx := Fin.ofNat 64 (16 * d.val + (r - 0x1000) / 0x100)
    if 0x1000 ≤ r ∧ r < 0x2000 ∧ r % 0x100 = 8 then some (s.linkCtlWrite port v)
    else if 0x1000 ≤ r ∧ r < 0x2000 ∧ r % 0x100 = 0x20 then some (s.knockWrite port v)
    else if 0x6000 ≤ r ∧ r < 0x6100 ∧ r % 0x40 = 8 then
      some (if v.getLsbD 0 then s.laserRelease (4 * d.val + (r - 0x6000) / 0x40) else s)
    else if 0x8000 ≤ r ∧ r < 0xC000 then some (s.connWrite d ((r - 0x8000) / 8) v)
    else none
  | .xtl x =>
    if r = 8 then
      let s := s.setFld off 1 1 (bitsOf v 1 1)
      some (if v.getLsbD 0 then s.xtlCtlReset x (v.getLsbD 1) else s)
    else none

/-- A write of a listed register. A program's write (`fw` false) leaves the fields marked firmware only as they are
(R290). -/
def State.regWrite (s : State) (d : RegDesc) (b : Blk) (off r : Nat) (v : BitVec 64) (fw : Bool) : State :=
  let own := if fw then BitVec.allOnes 64 else ~~~d.fw
  let held := (d.rw ||| d.rwt) &&& s.reg off
  let w := (v &&& own) ||| (held &&& ~~~own)
  match s.specialWrite b off r w with
  | some s => s
  | none =>
    let s := s.plainWrite d off v (own &&& ~~~s.frozen b r v)
    -- a suspect bit written clear ends the run of failures that it stood for (R519)
    if 0x210200 ≤ off ∧ off < 0x210290 then s.dropFailed else s

/-- A write of an offset of the window; counters and shadows take nothing; none where no chapter lists the offset. -/
def State.windowWrite (s : State) (off : Nat) (v : BitVec 64) (fw : Bool) : Option State :=
  match slotOf off with
  | some (.reg d b _ r) => some (s.regWrite d b (canonOff b off r) r v fw)
  | some _ => some s
  | none => none

/-! Accesses, with the faults of R9 and R557. -/

/-- Event 0x0101 (R9, R10): `core` is the index of the Sillet or management core. -/
def State.windowFault (s : State) (u : Src) (core : Nat) (sillet write : Bool) (off : BitVec 64) : State :=
  s.raise u 0x101 (pack [(if off.toNat < 2 ^ 40 then off.toNat else 2 ^ 40 - 1, 0), (b2n write, 40),
    (b2n (decide (off.toNat % 8 ≠ 0)), 41), (b2n sillet, 42), (if sillet then u.part else 0, 43), (core, 48)])

/-- The register lies in a die's cluster, memory-controller, Brine or package-fabric block (R557). -/
def Blk.computeDomain : Blk → Bool
  | .pan _ | .core .. | .disp _ | .cache _ | .slu _ | .mem _ | .brn _ | .fab _ => true
  | _ => false

/-- A firmware access reaches a block of a domain that is off. -/
def State.offAccess (s : State) (off : Nat) : Bool :=
  s.domainsOff && (match slotOf off with
    | some (.reg _ b _ _) => b.computeDomain
    | some _ => (blkOfOff off).any (fun q => q.1.computeDomain)
    | none => false)

/-- Event 0x020B, once per tide window (R557). -/
def State.offEvent (s : State) (off : Nat) (write : Bool) : State :=
  if s.pwr.offTide = some s.tide.num then s
  else ((s.onPwr (fun p => { p with offTide := some s.tide.num })).raiseMod 1 0x20B (pack [(low 32 off, 0), (b2n write, 32)]))

/-- A read by management core `m` (R9, R557). -/
def State.fwRead (s : State) (m : Nat) (off : BitVec 64) : BitVec 64 × State :=
  match s.windowRead off.toNat with
  | none => (0, s.windowFault (s.mcSrc m) m false false off)
  | some v => if s.offAccess off.toNat then (0, s.offEvent off.toNat false) else s.readLive off.toNat v

/-- A write by management core `m`. -/
def State.fwWrite (s : State) (m : Nat) (off v : BitVec 64) : State :=
  if s.offAccess off.toNat then s.offEvent off.toNat true
  else
    match s.windowWrite off.toNat v true with
    | none => s.windowFault (s.mcSrc m) m false true off
    | some s => s

/-! CTL.RD and CTL.WR (R290). -/

/-- A partition's program may write the register at `off` (log entry 8). -/
def State.mayWrite (s : State) (c : CoreIx) (off : Nat) : Bool :=
  match s.partOfDie (c.val / 32) with
  | none => false
  | some p =>
    let own (k : ClusterIx) : Bool := s.partOfDie (k.val / 2) == some p
    (s.mgmt.grants[Fin.ofNat 4 p]).contains off
      || off == 0x100140 + 8 * p || off == mboxReg p || off == 0x2100A0
      || (off == 0x1040 && (s.job[Fin.ofNat 4 p]).any (fun (j : JobSt) => j.man.snapAccess))
      || (match slotOf off with
        | some (.reg d b _ r) =>
          (match b with
            | .core k _ => own k
            | .disp k => own k
            | .pan k => own k && decide (r < 0x80000) && d.rwl == 0
            | _ => false)
        | some _ => true
        | none => false)

/-- A partition's program may read the listed offset `off` (log entry 8): what firmware granted, the module's own blocks,
and the blocks of its dies. -/
def State.mayRead (s : State) (c : CoreIx) (off : Nat) : Bool :=
  match s.partOfDie (c.val / 32) with
  | none => false
  | some p =>
    let own (d : Nat) : Bool := s.partOfDie d == some p
    (s.mgmt.grants[Fin.ofNat 4 p]).contains off || (match blkOfOff off with
      | some (.pan k, _) | some (.core k _, _) | some (.disp k, _) | some (.cache k, _) | some (.slu k, _) => own (k.val / 2)
      | some (.mem d, _) | some (.brn d, _) | some (.fab d, _) | some (.opt d, _) => own d.val
      | some (.xtl x, _) => own (x.val / 2)
      | some (.dev, _) | some (.pwr, _) | some (.int, _) | some (.mgmt, _) | some (.cv _, _) => true
      | none => false)

/-- A CTL access takes cause 0x09 at issue (R290). In the management block a write reaches the partition's mailbox alone
(R591). A misaligned or unassigned offset follows R9 and takes no trap, in the management block too (log entry 8). -/
def State.ctlDenied (s : State) (c : CoreIx) (off : Nat) (write : Bool) : Bool :=
  match slotOf off, write with
  | none, _ => false
  | some _, false => !s.mayRead c off
  | some q, true =>
    if 0x300000 ≤ off ∧ off < 0x400000 then !(s.partOfDie (c.val / 32)).any (fun p => off == mboxReg p)
    else
      match q with
      | .reg d _ _ _ => d.fwOnly || !s.mayWrite c off
      | _ => !s.mayWrite c off

/-- The window access of a core is carried out. -/
def State.ctlPerform (s : State) (c : CoreIx) : AccOp → State
  | .ctlRd rd off =>
    (match s.windowRead off.toNat with
      | some v =>
        let (v, s) := s.readLive off.toNat v
        s.onCore c (fun k => k.sput rd v)
      | none => (s.windowFault (s.coreSrc c.val) c.val true false off).onCore c (fun k => k.sput rd 0))
  | .ctlWr off v =>
    (match s.windowWrite off.toNat v false with
      | some t => (List.finRange 4).foldl (fun (t : State) (p : Fin 4) =>
          -- a mailbox request remembers the die that issues it (R591)
          if off.toNat = mboxReg p.val ∧ s.fld off.toNat 0 0 = 0 ∧ t.fld off.toNat 0 0 = 1 then
            t.onMgmt (fun m => { m with mboxDie := m.mboxDie.set p (c.val / 32) })
          else t) t
      | none => s.windowFault (s.coreSrc c.val) c.val true true off)
  | _ => s

/-- Issues a window access. -/
def State.issueCtl (s : State) (c : CoreIx) (off : BitVec 64) (write : Bool) (op : AccOp) : State :=
  if s.ctlDenied c off.toNat write then s.precise c 9 off
  else s.retire c (fun k => { k with acc := k.acc ++ [⟨off.toNat, off.toNat, op⟩] })

/-- CTL.RD (R290): the result arrives through the scoreboard when the access is performed. -/
def execCtlRd (c : CoreIx) (rd ra : RegIx) (s : State) : Res :=
  issueWhen c [rd, ra] [] (fun s =>
    let off := s.core[c].sget ra
    s.issueCtl c off false (.ctlRd rd off)) s

/-- CTL.WR (R290): does not wait for completion. -/
def execCtlWr (c : CoreIx) (ra rb : RegIx) (s : State) : Res :=
  issueWhen c [ra, rb] [] (fun s =>
    let off := s.core[c].sget ra
    s.issueCtl c off true (.ctlWr off (s.core[c].sget rb))) s

/-! The commands that are firmware's writes. -/

/-- REGISTER_WRITE (R8 to R14): management core `m` writes an offset of the window. -/
def execRegisterWrite (m : Fin 8) (off v : BitVec 64) (s : State) : Res :=
  .next (if s.awake then s.fwWrite m.val off v else s)

/-- GRQ_TAIL_WRITE (R251). -/
def execGrqTailWrite (c : ClusterIx) (t : BitVec 6) (s : State) : Res :=
  .next (if s.awake && !s.domainsOff then s.tailWrite c t.toNat else s)

/-- CORE_KILL (R258). -/
def execCoreKill (c : CoreIx) (s : State) : Res := .next (if s.awake && !s.domainsOff then s.killCore c else s)

/-- CORE_START (R254, R259). -/
def execCoreStart (c : CoreIx) (s : State) : Res := .next (if s.awake && !s.domainsOff then s.startCore c else s)

/-- LINK_ENABLE (R461): LINK_CTL written with ENABLE as `v` says. -/
def execLinkEnable (p : PortIx) (v : BitVec 64) (s : State) : Res := .next (if s.awake then s.linkCtlWrite p v else s)

/-- LINK_UNRETIRE (R476). -/
def execLinkUnretire (p : PortIx) (s : State) : Res := .next (if s.awake then s.linkUnretire p else s)

/-- KNOCK_SEND (R497, R498). -/
def execKnockSend (p : PortIx) (s : State) : Res := .next (if s.awake then s.knockGo p else s)

/-- LASER_CTL_RELEASE (R458). -/
def execLaserCtlRelease (b : Fin 16) (s : State) : Res := .next (if s.awake then s.laserRelease b.val else s)

/-- TU_CONN_VALID_WRITE (R482): TU_CONN_j written with VALID = 1. -/
def execTuConnValidWrite (d : DieIx) (j : Fin 2048) (die : Fin 4) (dev : BitVec 16) (s : State) : Res :=
  .next (if s.awake then s.connWrite d j.val (pack [(1, 63), (die.val, 16), (dev.toNat, 0)]) else s)

/-- CLAIM, CLAIM_RELEASE and CLAIM_QUERY (R598): CLAIM_REQ written by firmware feature `o`. -/
def execClaim (o : BitVec 8) (r : BitVec 16) (s : State) : Res :=
  .next (if s.awake then s.claimReq o.toNat 1 r.toNat else s)
def execClaimRelease (o : BitVec 8) (r : BitVec 16) (s : State) : Res :=
  .next (if s.awake then s.claimReq o.toNat 2 r.toNat else s)
def execClaimQuery (o : BitVec 8) (r : BitVec 16) (s : State) : Res :=
  .next (if s.awake then s.claimReq o.toNat 3 r.toNat else s)

end Sys2Proof.Machine
end

