-- ==== Sys2Proof/Machine/Jobs.lean ====
section
/-! DEFINITION. Jobs and partitions (R586 to R590): the checks of a manifest, the start window, the start, and the end of
a job. -/

namespace Sys2Proof.Machine

/-! Dies and jobs. -/

/-- The physical dies of a partition (MGMT_PART). -/
def State.partDies (s : State) (p : Nat) : List Nat := (List.range 4).filter (fun d => s.partOfDie d == some p)

/-- The clusters of a partition; crystallizers are numbered in the same way. -/
def State.partClusters (s : State) (p : Nat) : List (Fin 8) :=
  (List.finRange 8).filter (fun c => s.partOfDie (c.val / 2) == some p)

/-- The cores of a partition. -/
def State.partCores (s : State) (p : Nat) : List CoreIx :=
  (List.finRange 128).filter (fun c => s.partOfDie (c.val / 32) == some p)

/-- The jobs that hold a partition. -/
def State.jobs (s : State) : List JobSt := s.job.toList.filterMap id

/-- A partition other than `p` holds a job. -/
def State.otherJob (s : State) (p : Nat) : Bool := (List.finRange 4).any (fun q => q.val != p && (s.job[q]).isSome)

/-- The partition of the job with a JOB_ID. -/
def State.jobPart (s : State) (id : BitVec 64) : Option (Fin 4) :=
  (List.finRange 4).find? (fun p => (s.job[p]).any (fun (j : JobSt) => j.id == id))

/-! Checks (R587). -/

/-- The manifest breaks R586 or a check of the rules it names. -/
def badManifest (m : Manifest) : Bool :=
  let l := m.dies.val
  let ranges (r : SlowReq) : Bool := decide (2 * l ≤ r.lx.val) || decide (2 ^ 17 < r.base.toNat + r.pages.toNat)
    || decide (r.va.toNat % 2 ^ 21 ≠ 0) || decide (2 ^ 56 < r.va.toNat + 2 ^ 21 * r.pages.toNat)
  m.bad || !m.devices.contains m.device || m.device == 0xFFFF || !m.devices.contains m.timeMaster
    || !([5, 10, 20, 50] : List (BitVec 8)).contains m.periodUs || l == 0
    || (match m.mask with
      | some k => popcount 4 k.toNat != l
      | none => false)
    || m.slow.any ranges || m.retVbase.toNat % 2 ^ 21 != 0 || decide (2048 < m.conns.length)
    || m.groups.length != 64 * m.groupCount.toNat * l || m.groupsAt.toNat % 64 != 0
    || (!m.queues.isEmpty && m.queues.length != 8192 * l) || m.queuesAt.toNat % 8192 != 0
    || m.softAt.toNat % 65536 != 0 || m.entry.toNat % 8 != 0

/-- The dies a manifest takes: those it names, or the lowest-indexed eligible free ones (R588). -/
def State.pickDies (s : State) (m : Manifest) : Option (List Nat) :=
  let free := (List.range 4).filter (fun d => s.eligible d && (s.partOfDie d).isNone)
  match m.mask with
  | some k =>
    let want := (List.range 4).filter (fun d => k.getLsbD d)
    if want.all (fun d => free.contains d) then some want else none
  | none => if m.dies.val ≤ free.length then some (free.take m.dies.val) else none

/-- Two route tables give a device different routes. -/
def routesClash (a b : List RouteReq) : Bool := a.any (fun r => b.any (fun q => q.dev == r.dev && q != r))

/-- The manifest is in conflict with a job that holds a partition. -/
def JobSt.clash (j : JobSt) (m : Manifest) : Bool :=
  j.man.device != m.device || j.man.periodUs != m.periodUs || j.man.timeMaster != m.timeMaster
    || j.id.toNat % 2 ^ 56 == m.jobId.toNat % 2 ^ 56 || routesClash j.man.routes m.routes

/-- No start window opens: a way fence that has not taken effect stands in a cluster of a partition that holds a job
(R589), or the Stacker is at work on a request. -/
def State.windowShut (s : State) : Bool :=
  (List.finRange 4).any (fun p => (s.job[p]).isSome && (s.partClusters p.val).any (fun c => s.wayPending c != 0))
    || s.fld (stkReg 0x38) 0 0 == 1 || s.mgmt.mboxWait.any (· == some 0)

/-- The status with which a submit is refused before its window opens, the checks in the order of R587. -/
def State.submitRefusal (s : State) (m : Manifest) : Option Nat :=
  if badManifest m then some 3
  else if s.fld 0x300200 1 0 = 3 then some 13
  else if (s.pickDies m).isNone then some 4
  else if s.jobs.any (fun j => j.clash m) then some 5
  else if sha384 m.program ≠ m.sha then some 6
  else if s.windowShut then some 9
  else none

/-! Page tables (R339, R340). -/

/-- The window's work: it goes on, or it ends with a status and the state in which it failed. -/
abbrev Win := Except (Nat × State) State

/-- A table of level `l`, all zero, in a frame of the partition, near die `d`. -/
def State.newTable (s : State) (p d l : Nat) : Option (Nat × State) :=
  let n := tableBytes l
  let clear (t : State) (pa : Nat) : State := { t with
    mem := t.mem.zero pa (pa + n)
    poison := t.poison.filter (fun k => !(decide (pa < 64 * k + 64) && decide (64 * k < pa + n))) }
  match s.stk.tables.find? (fun (t : TableFrame) => t.part = p ∧ t.unit = n ∧ t.used + n ≤ 65536) with
  | some f =>
    let pa := 65536 * f.frame + f.used
    some (pa, clear (s.onStk (fun k => { k with
      tables := k.tables.map (fun (t : TableFrame) => if t.frame = f.frame then { t with used := t.used + n } else t) })) pa)
  | none =>
    (s.placeNear s.usedSpans d 1).map (fun (q : Nat × Bool) =>
      (65536 * q.1, clear (s.onStk (fun k => { k with tables := k.tables ++ [⟨p, q.1, n, n⟩] })) (65536 * q.1)))

/-- The tables on the way to the entry of level `stop` of an address, built where there is none. A leaf on the way stays:
its page is mapped. None when no frame is free. -/
def State.tablesDown (p d va stop : Nat) : Nat → Nat → Nat → State → Option State
  | 0, _, _, s => some s
  | fuel + 1, l, table, s =>
    if l = stop then some s
    else
      let ea := table + 8 * (va / 2 ^ (levelShift l).1 % (levelShift l).2)
      let e := s.entryAt ea
      if e % 2 = 1 then
        if e / 2 % 2 = 1 then some s else State.tablesDown p d va stop fuel (l + 1) (e / 256 % 2 ^ 40 * 256) s
      else
        match s.newTable p d (l + 1) with
        | none => none
        | some (t, s) => State.tablesDown p d va stop fuel (l + 1) t (s.store ea (leBytes 8 (1 + t)))

/-- The root of a partition's table. -/
def State.tableRoot (s : State) (p : Nat) : Nat := s.fld (0x300120 + 8 * p) 47 16 * 65536

/-- Tables for the pages of a range, whose leaves are of level `stop`. -/
def State.tablesFor (s : State) (p d va bytes stop : Nat) : Win :=
  let step := 2 ^ (levelShift (stop - 1)).1
  let n := (va + bytes + step - 1) / step - va / step
  (List.range n).foldlM (fun (s : State) i =>
    match State.tablesDown p d ((va / step + i) * step) stop 4 0 (s.tableRoot p) s with
    | some s => Except.ok s
    | none => Except.error (7, s)) s

/-- Firmware maps one pinned 2 MiB page, readable and writable, of a region kind. -/
def State.mapFixed (s : State) (p d va kind pa : Nat) : Win :=
  (s.tablesFor p d va (2 ^ 21) 2).bind (fun s =>
    match s.leafCheck p va 32 with
    | none => .ok (s.putLeaf p va 32 (leafWord pa 3 true + 64 * kind))
    | some _ => .error (3, s))

/-! Step 2 of R588. -/

/-- The partition takes its dies, with an empty page table. -/
def State.givePart (s : State) (p : Nat) (dies : List Nat) : Win :=
  let s := dies.foldl (fun (s : State) d => s.setFld 0x300100 (8 * d + 7) (8 * d) (128 + p)) s
  let s := dies.zipIdx.foldl (fun (s : State) (q : Nat × Nat) =>
    s.onStk (fun k => { k with lmap := k.lmap.set (Fin.ofNat 4 q.1) (some (p, q.2, false)) })) s
  match s.newTable p ((dies.head?).getD 0) 0 with
  | some (t, s) => .ok (s.setReg (0x300120 + 8 * p) (BitVec.ofNat 64 (t + 1)))
  | none => .error (7, s)

/-- One MEMORY allocation, through the Stacker (R360). -/
def State.allocMem (s : State) (p d : Nat) (r : MemReq) : Win :=
  (s.tablesFor p d (r.va.toNat / 65536 * 65536) (65536 * r.frames.toNat) (if r.big then 2 else 3)).bind (fun s =>
    let s := (s.setReg (stkReg 0x20) (BitVec.ofNat 64 (r.va.toNat / 65536 * 65536))).setReg (stkReg 0x28)
      (r.frames.setWidth 64)
    let s := s.stkReqWrite (pack [(1, 0), (1, 1), (b2n r.big, 4), (b2n r.shared, 5), (r.aff.val, 6), (b2n r.pin, 9),
      (r.perm.toNat, 10), (p, 62)])
    if s.fld (stkReg 0x38) 11 8 = 0 then .ok s else .error (7, s))

/-- The retention areas (R170, R171): logical cluster k's area at VBASE plus k times its size. -/
def State.mapRetention (s : State) (p : Nat) (dies : List Nat) (m : Manifest) : Win :=
  let pages : List (Nat × Nat × Nat) := dies.zipIdx.flatMap (fun (q : Nat × Nat) => (List.range 2).flatMap (fun k =>
    let c := 2 * q.1 + k
    (List.range (2 * s.retWays c m.retWays.val)).map (fun i =>
      (q.1, m.retVbase.toNat + (2 * q.2 + k) * m.retWays.val * 2 ^ 22 + i * 2 ^ 21,
        0x60000000000 + c * 2 ^ 27 + i * 2 ^ 21))))
  pages.foldlM (fun (s : State) (q : Nat × Nat × Nat) => s.mapFixed p q.1 q.2.1 2 q.2.2) s

/-- The slow tier (R178): the physical crystallizers of a logical die are those of its physical die. -/
def State.mapSlow (s : State) (p : Nat) (dies : List Nat) (m : Manifest) : Win :=
  let pages : List (Nat × Nat × Nat) := m.slow.flatMap (fun (r : SlowReq) =>
    let d := (dies[r.lx.val / 2]?).getD 0
    let x := 2 * d + r.lx.val % 2
    (List.range r.pages.toNat).map (fun i =>
      (d, r.va.toNat + i * 2 ^ 21, 2 ^ 42 + x * 2 ^ 38 + (r.base.toNat + i) * 2 ^ 21)))
  pages.foldlM (fun (s : State) (q : Nat × Nat × Nat) =>
    -- a page beyond the capacity of the live channels is not there to be mapped (R210)
    if (s.region q.2.2).isNone then .error (3, s) else s.mapFixed p q.1 q.2.1 1 q.2.2) s

/-- Firmware stores bytes at a virtual address of a partition; none where a page of them is not mapped. -/
def State.putVirt (s : State) (p va : Nat) (bs : List Byte) : Option State :=
  (pagePieces va (bs.length / 65536 + 2) 0 bs.length).foldlM (fun (s : State) (q : Nat × Nat) =>
    let w := s.walk p (va + q.1)
    match w.reason with
    | none => some (s.store (s.forward w.pa) ((bs.drop q.1).take q.2))
    | some _ => none) s

/-- As `putVirt`, in the window. -/
def State.loadVirt (s : State) (p va : Nat) (bs : List Byte) : Win :=
  match s.putVirt p va bs with
  | some s => .ok s
  | none => .error (3, s)

/-- The program at ENTRY, and the dies' group and receive-queue tables, each ORDINAL zero. -/
def State.loadTables (s : State) (p l : Nat) (m : Manifest) : Win :=
  ((s.loadVirt p m.entry.toNat m.program).bind (fun s => s.loadVirt p m.groupsAt.toNat m.groups)).bind (fun s =>
    ((List.range (m.groupCount.toNat * l)).foldlM (fun (s : State) g =>
      s.loadVirt p (m.groupsAt.toNat + 64 * g + 32) (List.replicate 8 0)) s).bind
        (fun s => s.loadVirt p m.queuesAt.toNat m.queues))

/-! Step 3 of R588. -/

/-- A route's entry (R487). -/
def State.routeWrite (s : State) (r : RouteReq) : State :=
  let i := r.dev.toNat
  let e := 2 ^ 15 + 256 * (match r.alt with
    | some a => a.val
    | none => 127) + r.primary.val
  s.setFld (optBase 0 + 0x20000 + 8 * (i / 4)) (16 * (i % 4) + 15) (16 * (i % 4)) e

/-- The connection table of a die: the manifest's entries, every other one cleared. -/
def State.connTable (s : State) (d : DieIx) (m : Manifest) : State :=
  let off (j : Nat) : Nat := optBase d.val + 0x8000 + 8 * j
  let s := (List.range 2048).foldl (fun (s : State) j => if s.reg (off j) = 0 then s else s.setReg (off j) 0) s
  m.conns.zipIdx.foldl (fun (s : State) (q : (BitVec 16 × Fin 4) × Nat) =>
    s.connWrite d q.2 (pack [(1, 63), (q.1.2.val, 16), (q.1.1.toNat, 0)])) s

/-- The registers that are the module's: left as a job that holds a partition has them, but for routes and ports added. -/
def State.moduleSettings (s : State) (m : Manifest) (alone : Bool) : State :=
  let s := m.routes.foldl State.routeWrite s
  let child := optBase 0 + 0x18
  if alone then
    let s := (s.setReg (optBase 0) (pack [(1, 16), (m.device.toNat, 0)])).setReg child m.children
    let s := s.setReg (optBase 0 + 0x10) (match m.parent with
      | some q => pack [(1, 6), (q.val, 0)]
      | none => 0)
    -- a follower joins once its period has taken effect (R37)
    let s := if m.timeMaster = m.device then (s.setFld 0x1020 63 48 m.timeMaster.toNat).setFld 0x1020 1 0 1
      else { s with tide := { s.tide with join := some m.timeMaster } }
    s.stage 0x1000 (match m.periodUs.toNat with
      | 5 => 0
      | 10 => 1
      | 20 => 2
      | _ => 3)
  else s.setReg child (s.reg child ||| m.children)

/-- The registers of logical die `l` on physical die `d`. -/
def State.dieSettings (s : State) (p : Nat) (m : Manifest) (l d : Nat) : State :=
  let s := s.connTable (Fin.ofNat 4 d) m
  let s := (List.range 2).foldl (fun (s : State) k =>
    let c := 2 * d + k
    let s := s.stage (clusterBase c + 0x80100) (BitVec.ofNat 64 m.retWays.val)
    let s := s.setReg (clusterBase c + 0x80108)
      (BitVec.ofNat 64 ((m.retVbase.toNat + (2 * l + k) * m.retWays.val * 2 ^ 22) % 2 ^ 56))
    s.setReg (xtlBase c + 0x10) (pack [(p, 8), (2 * l + k, 0)])) s
  let s := s.setReg (sluBase (2 * d) + 0x48) (BitVec.ofNat 64 (m.groupsAt.toNat + 64 * m.groupCount.toNat * l))
  let s := s.setReg (sluBase (2 * d) + 0x50) (m.groupCount.setWidth 64)
  let s := s.setReg (fabBase d + 0x100) (BitVec.ofNat 64 (m.queuesAt.toNat + 8192 * l))
  let s := s.setReg (brnReg (Fin.ofNat 4 d) 0x20) (BitVec.ofNat 64 (m.softAt.toNat + 65536 * l))
  s.brnEnable (Fin.ofNat 4 d)

/-- The partition's part of the gate unit as for a new job. -/
def State.gateClear (s : State) (p : Fin 4) : State :=
  { s with gate := { s.gate with
      slots := s.gate.slots.filter (fun (g : GateSlot) => g.part != p.val)
      horizon := s.gate.horizon.set p none
      ovf := s.gate.ovf.filter (fun (q : Nat × BitVec 64) => q.1 != p.val)
      late := s.gate.late.filter (fun (q : Nat × BitVec 64) => q.1 != p.val)
      killed := s.gate.killed.filter (fun (q : Nat × BitVec 64) => q.1 != p.val)
      early := s.gate.early.filter (fun (q : Nat × BitVec 64 × Nat × Bool × Bool) => q.1 != p.val) } }

/-- Opens or closes the queue pairs of a job's feeders (R592). -/
def State.feederQps (s : State) (m : Manifest) (open_ : Bool) : State :=
  m.feeders.foldl (fun (s : State) (q : Fin 256 × PortIx) =>
    s.setQp q.1.val (if open_ then { QpSt.reset with port := some q.2.val } else QpSt.reset)) s

/-- Registers whose old values a job's start keeps until the job runs: those of step 3 of R588. -/
def startSets (off : Nat) : Bool :=
  decide (off = 0x1000) || decide (off = 0x1020) || decide (off = 0x100010)
    || (match slotOf off with
      | some (.reg _ b _ r) =>
        (match b with
          | .opt _ => decide (r < 0x20) || decide (0x8000 ≤ r ∧ r < 0xC000) || decide (0x20000 ≤ r)
          | .pan _ => r == 0x80100 || r == 0x80108
          | .slu _ => r == 0x48 || r == 0x50
          | .fab _ => r == 0x100
          | .xtl _ => r == 0x10
          | .brn _ => r == 0x20
          | _ => false)
      | _ => false)

/-- What the registers of `startSets` held in `s`, where `t` holds or stages something else. -/
def State.savedRegs (s t : State) : List (Nat × BitVec 64) :=
  let offs := (s.regs.map (·.1) ++ t.regs.map (·.1) ++ t.staged.map (·.1)).eraseDups
  (offs.filter (fun o => startSets o && (s.reg o != t.reg o || (assoc o t.staged).isSome))).map (fun o => (o, s.reg o))

/-- A register takes back, in its writable fields, what it held: at once, or by a staged write. -/
def State.restoreReg (s : State) (q : Nat × BitVec 64) : State :=
  match slotOf q.1 with
  | some (.reg d _ _ _) =>
    let s := s.setReg q.1 ((s.reg q.1 &&& ~~~d.rw) ||| (q.2 &&& d.rw))
    if d.rwt = 0 then s else s.stage q.1 (q.2 &&& d.rwt)
  | _ => s

/-! The start (R588). -/

/-- The window of a start: steps 1 to 4. `dies` are the job's physical dies in logical order. -/
def State.startWindow (s : State) (p : Fin 4) (dies : List Nat) (m : Manifest) (seq : BitVec 64) : Win :=
  let alone := !s.otherJob p.val
  let d := (dies.head?).getD 0
  let lock (s : State) (b : Nat) : State := s.setFld 0x1030 0 0 b
  (((((lock s 0).givePart p.val dies).bind (fun t =>
    m.memory.foldlM (fun (t : State) r => t.allocMem p.val d r) t)).bind
      (fun t => t.mapRetention p.val dies m)).bind (fun t => t.mapSlow p.val dies m)).bind (fun t =>
    (t.loadTables p.val dies.length m).map (fun t =>
      let t := t.moduleSettings m alone
      let t := dies.zipIdx.foldl (fun (t : State) (q : Nat × Nat) => t.dieSettings p.val m q.2 q.1) t
      let t := (t.stage 0x100010 (BitVec.ofNat 64 (m.capW.toNat / 25))).gateClear p
      let t := t.feederQps m true
      let t := t.onMgmt (fun k => { k with
        grants := k.grants.set p (m.grants.map BitVec.toNat)
        broker := k.broker.set p 0
        brokerTide := k.brokerTide.set p t.tide.num })
      let job : JobSt :=
        { id := m.jobId
          devs := m.devices.map BitVec.toNat
          man := m
          phase := .starting
          seq := some seq
          start := none
          startAt := 0
          shared := false
          saved := s.savedRegs t.takeJoin }
      lock { t with seed := t.seed.set p m.seed, job := t.job.set p (some job) } 1))

/-- The module is aligned for a job (R37, R588): ALIGNED, or it is the job's time master. -/
def State.jobAligned (s : State) (m : Manifest) : Bool :=
  (s.fld 0x1020 6 6 == 1 && s.tide.join.isNone) || m.timeMaster == m.device

/-- Steps 6 to 8 of a start that waits, once ALIGNED. -/
def State.jobProceed (s : State) (p : Fin 4) : State :=
  match s.job[p] with
  | none => s
  | some j =>
    if j.phase ≠ .starting ∨ !s.jobAligned j.man then s
    else
      let at_ := s.tide.num + 1
      let s := { s with job := s.job.set p (some { j with phase := .running, startAt := at_, seq := none, saved := [] }) }
      let s := s.markWrite p.val at_
      let s := (s.partClusters p.val).foldl (fun (s : State) c =>
        match s.sequencer c with
        | some q => (s.coreWrite q 0x10 (j.man.entry.setWidth 64)).startCore q
        | none => s) s
      let mask := ((s.partDies p.val).map (fun d => 2 ^ d)).foldl (· + ·) 0
      let s := match j.seq with
        | some q => s.retireCmd q 0
        | none => s
      s.raiseMod 3 0x409 (pack [(p.val, 0), (mask, 2), (bitsOf j.id 47 0, 16)]) p.val

/-- What a refusal keeps of the state in which the start failed: events, counts, free values, and the Stacker's report. -/
def State.keepEvents (s t : State) : State :=
  let u : State := { s with fifo := t.fifo, fifoDrop := t.fifoDrop, ctr := t.ctr, free := t.free }
  [0x20, 0x28, 0x30, 0x38].foldl (fun (u : State) o => u.setReg (stkReg o) (t.reg (stkReg o))) u

/-- JOB_SUBMIT (R587, R588): refused with a status, leaving nothing behind, or started as far as ALIGNED. -/
def State.jobSubmit (s : State) (m : Manifest) (seq : BitVec 64) : State :=
  match s.submitRefusal m, (List.finRange 4).find? (fun p => (s.job[p]).isNone) with
  | some c, q =>
    let p := (q.map (·.val)).getD 0
    let free := ((List.range 4).filter (fun d => s.eligible d && (s.partOfDie d).isNone)).length
    let s := if c = 4 then s.raiseMod 7 0x1308 (pack [(p, 0), (min free 3, 2), (1, 6)]) p else s
    s.retireCmd seq c
  | none, none => s.retireCmd seq 4
  | none, some p =>
    match s.startWindow p ((s.pickDies m).getD []) m seq with
    | .ok t => t.jobProceed p
    | .error (c, t) => (s.keepEvents t).retireCmd seq c

/-! The end (R590). -/

/-- The partition's allocations, pages, dies and mailbox are free again; memory is not cleared (R380). -/
def State.freePart (s : State) (p : Fin 4) : State :=
  let dies := s.partDies p.val
  let mine (a : PageAlloc) : Bool := a.part == p.val
  let gone := (s.stk.allocs.filter mine).map (·.pa)
  let freeing := (s.stk.freeing).any (fun q => q.1 == p.val)
  let s := s.onStk (fun k => { k with
    allocs := k.allocs.filter (fun a => !mine a)
    heat := k.heat.map (fun (t : List HeatEntry) => t.filter (fun e => !gone.contains e.pa))
    moves := k.moves.filter (fun (m : PageMove) => m.part != p.val)
    stranded := k.stranded.filter (fun pa => !gone.contains pa)
    freeing := if freeing then none else k.freeing
    lmap := k.lmap.map (fun (q : Option (Nat × Nat × Bool)) => q.filter (fun r => r.1 != p.val))
    deadRaised := k.deadRaised.filter (fun d => !dies.contains d)
    tables := k.tables.filter (fun (t : TableFrame) => t.part != p.val) })
  let s := if freeing then s.stkEnd 2 0 0 else s
  let s := dies.foldl (fun (s : State) d => s.setFld 0x300100 (8 * d + 7) (8 * d) 0) s
  let s := ((s.setReg (0x300120 + 8 * p.val) 0).setFld (mboxReg p.val) 0 0 0).gateClear p
  let s := match s.job[p] with
    | some j => s.feederQps j.man false
    | none => s
  let s : State := { s with job := s.job.set p none }
  s.onMgmt (fun k => { k with grants := k.grants.set p [], mboxWait := k.mboxWait.set p none })

/-- JOB_LOCK clears when no job remains (R589). -/
def State.unlockIdle (s : State) : State := if s.jobs.isEmpty then s.setFld 0x1030 0 0 0 else s

/-- A start that waits is given up: its settings are taken back and its JOB_SUBMIT retires. -/
def State.undoStart (s : State) (p : Fin 4) (status : Nat) : State :=
  match s.job[p] with
  | none => s
  | some j =>
    let s : State := { s with tide := { s.tide with join := none } }
    let s := (s.partDies p.val).foldl (fun (s : State) d => s.brnDisable (Fin.ofNat 4 d)) s
    let s := (j.saved.foldl State.restoreReg s).freePart p
    let s := s.unlockIdle
    match j.seq with
    | some q => s.retireCmd q status
    | none => s

/-- A core has ended its work. -/
def CoreSt.idleMode (k : CoreSt) : Bool := k.mode == .halted || k.mode == .fenced

/-- KILL to every core of the partition that is not HALTED (R590). -/
def State.killPart (s : State) (p : Nat) : State :=
  (s.partCores p).foldl (fun (s : State) c => if s.core[c].idleMode || s.core[c].kill then s else s.killCore c) s

/-- SEALs that wait complete with error, and a crystallizer whose RUN waits for a decision that cannot come is reset. -/
def State.endGate (s : State) (p : Nat) : State :=
  let waiting := (s.gate.slots.filter (fun (g : GateSlot) => g.part == p)).flatMap (·.waiting)
  let s : State := { s with gate := { s.gate with
    slots := s.gate.slots.map (fun (g : GateSlot) => if g.part = p then { g with waiting := [] } else g) } }
  let s := waiting.foldl (fun (s : State) c => s.finish c true) s
  (s.partClusters p).foldl (fun (s : State) x =>
    match s.xtl[x].running with
    | some r => (match r.cmd.op, r.outcome with
      | .xtlRun .., none => s.xtlReset x true
      | _, _ => s)
    | none => s) s

/-- The end of a running job begins, with the reason of event 0x040A. -/
def State.beginEnd (s : State) (p : Fin 4) (reason : Nat) : State :=
  match s.job[p] with
  | some j =>
    if j.phase = .running then
      (({ s with job := s.job.set p (some { j with phase := .ending reason }) } : State).killPart p.val).endGate p.val
    else s
  | none => s

/-- Every pan, sluice, Brine and crystallizer queue that holds work of the partition is empty, its cores are halted and
no access of them is pending; its dies do not move (R590). -/
def State.partDrained (s : State) (p : Nat) : Bool :=
  (s.partClusters p).all (fun c =>
    let q := s.pan[c]
    let x := s.xtl[c]
    q.queue.isEmpty && q.running.isNone && q.ending.isEmpty && q.batches.isEmpty && q.fired.isEmpty && x.queue.isEmpty && x.running.isNone)
    && (s.partDies p).all (fun d =>
      let b := s.brn[Fin.ofNat 4 d]
      b.queue.isEmpty && b.batches.isEmpty && (List.range 8).all (fun i =>
        let u := s.slu[Fin.ofNat 32 (8 * d + i)]
        u.queue.isEmpty && u.running.isEmpty))
    && (s.partCores p).all (fun c => s.core[c].idleMode && s.core[c].acc.isEmpty)
    && !(s.stk.dieMove).any (fun (m : DieMove) => m.part == p)

/-- The end of a job whose partition is drained: steps 2 to 6. -/
def State.finishEnd (s : State) (p : Fin 4) (j : JobSt) (reason : Nat) : State :=
  let s := (s.partDies p.val).foldl (fun (s : State) d => s.brnDisable (Fin.ofNat 4 d)) s
  let at_ := s.tide.num + 1
  let w : EnergyWait := ⟨j.id, j.start, j.start.any (fun q => q.1 != j.startAt), at_, j.shared⟩
  let s := (s.markWrite p.val at_).onMgmt (fun k => { k with energyWait := k.energyWait.set p (some w) })
  (((s.freePart p).unlockIdle).raiseMod 3 0x40A (pack [(p.val, 0), (reason, 2), (bitsOf j.id 47 0, 16)]) p.val)

/-- Whether firmware has the cause to abort a running job that an aborting JOB_END names (R590). -/
def State.abortCause (s : State) (p : Fin 4) : EndWhy → Bool
  | .finish => false
  | .coreStopped => (s.partCores p.val).any (fun c => s.core[c].mode == .stopped)
  | .unreachable =>
    let dies := s.partDies p.val
    s.link.unreachable.any (fun (q : Nat × Nat) => dies.contains q.1 && dies.contains q.2)
  | .recordLost => s.fld 0x300000 7 7 == 1

/-- Reason of event 0x040A. -/
def endCode : EndWhy → Nat
  | .finish => 0
  | .coreStopped => 2
  | .unreachable => 3
  | .recordLost => 4

end Sys2Proof.Machine
end

