-- ==== Sys2Proof/Machine/Mgmt.lean ====
section
/-! DEFINITION. The management complex (R564 to R585, R595, R596): sessions, the command ring and what each command does,
the event ring, the watchdog's takeover, handover, and metrics. -/

namespace Sys2Proof.Machine

/-- Firmware serves: the module is in service and awake (R571, R554). -/
def State.serving (s : State) : Bool := s.board.phase == .run && s.awake

/-- The management core of the primary that makes firmware's own accesses of the window: the first of the two that R564 names.
Which of them it is, and so the CORE and SOURCE of event 0x0101 (R10), is the model's choice (log entry 78). -/
def State.primaryMc (s : State) : Nat := 2 * s.primary

/-- The answer to a session. -/
def State.answer (s : State) (ses : Nat) (r : Reply) : State := s.onMgmt (fun m => { m with reply := some (ses, r) })

/-! Sessions (R576). -/

/-- A certificate is accepted: its chain ends at the owner key in effect, or at the vendor key for field service in
PROVISIONED, and its subject names a role. -/
def State.certOk (s : State) (c : Cert) : Bool :=
  c.role != 0 && (match c.anchor with
    | some k => s.ownerKey == some k
    | none => c.role == 3 && s.fld 0x300200 1 0 == 1)

/-- A path that a session can come by (R22): MGMT0 and MGMT1 in service, MGMT0 alone in RECOVERY (R570), an optical port
that is UP, an Ethernet port whose link is up. -/
def State.pathOpen (s : State) : SesPath → Bool
  | .mgmt k => s.serving || (s.board.phase == .recovery && k == 0)
  | .tuimal p => s.serving && s.portState p == 3
  | .ethernet p => s.serving && s.portState (Fin.ofNat 64 p.val) == 6 && s.fld (ethReg p.val) 0 0 == 1

/-- SESSION_OPEN. Nothing reaches firmware on a path that is not open. -/
def execSessionOpen (ses : Fin 16) (o : SesOffer) (s : State) : Res :=
  let c := o.cert
  .next (if !s.pathOpen o.path then s
    else if s.certOk c then
      (s.onMgmt (fun m => { m with sessions := assocPut ses.val ⟨c.role.val, c.id⟩ m.sessions })).answer ses.val .opened
    else s.answer ses.val .denied)

/-! What the sequenced commands do (R578). -/

/-- The roles that may issue a command (1 owner, 2 operator, 3 field service). -/
def CtlBody.roleOk (role : Nat) : CtlBody → Bool
  | .jobSubmit _ => role == 2
  | .jobAbort _ => role == 2
  | .setCap .. => role == 2
  | .snapshot _ => role == 2
  | .powerState _ => role == 2
  | .laserRelease _ => role == 2 || role == 3
  | .xtlReset .. => role == 2
  | .fence .. => role == 2 || role == 3
  | .fwStage _ => role == 1 || role == 3
  | .fwActivate .. => role == 1
  | .ucode _ => role == 1 || role == 3
  | .classRaise _ => role == 1
  | .ownerRotate _ => role == 1
  | .lifecycle _ => role == 1
  | .debugUnlock _ => role == 3
  | .fuseProg .. => role == 3

/-- A command ends with a status that the spec does not name: a free value of the sixteen. -/
def State.retireFree (s : State) (seq : BitVec 64) : State :=
  let (v, s) := s.fresh
  s.retireCmd seq (v.toNat % 16)

/-- MGMT_ACTOR takes the session's role and identity before an RWL write (R576). -/
def State.actAs (s : State) (c : CtlCmd) : State := s.setReg 0x300020 (pack [(c.role, 0), (c.actor.toNat, 16)])

/-- An RWL write on a session's behalf: `full` says that its limit refuses it (R14, R573). -/
def State.rwlCmd (s : State) (c : CtlCmd) (full : State → Bool) (f : State → State) : State :=
  let s := s.actAs c
  (f s).retireCmd c.seq (if full s then 14 else 0)

/-- A rotation (R575): the hash goes to the next unused slot, and SLOT is raised to it. -/
def State.ownerRotate (s : State) (hash : List Byte) : State :=
  let n := max s.mgmt.ownerKeys.length (s.fld 0x300208 4 0) + 1
  if 16 < n then s
  else
    let s := s.onMgmt (fun m => { m with
      ownerKeys := m.ownerKeys ++ List.replicate (n - 1 - m.ownerKeys.length) [] ++ [hash] })
    s.ownerWrite n

/-- The bytes that an unlock token signs: DEV_SERIAL. -/
def State.serialBytes (s : State) : List Byte := leBytes 8 (s.reg 8).toNat

/-- A debug unlock (R578): DENIED unless the owner key in effect signed the token. -/
def State.debugCmd (s : State) (c : CtlCmd) (token : List Byte) : State :=
  if (s.ownerKey).any (fun k => Config.verifies k s.serialBytes token) then
    s.rwlCmd c (fun s => s.fld 0x300210 0 0 == 0 && decide (4 ≤ s.ledgerCount 2)) State.debugWrite
  else s.retireCmd c.seq 1

/-- The slot that is not the one booted. -/
def State.otherSlot (s : State) : Fin 2 := if s.fld 0x300000 5 5 = 0 then 1 else 0

/-- An image written to a slot of the flash, not yet GOOD. -/
def State.stageImage (s : State) (k : Fin 2) (i : SlotImage) : State :=
  s.onMgmt (fun m => { m with slots := m.slots.set k (some ⟨i, false, 0⟩) })

/-- The rings as a boot finds them: both sequences begin again (R579). -/
def State.freshRings (s : State) : State :=
  (((s.setReg 0x300030 0).setReg 0x300038 0).setReg 0x300040 0).onMgmt (fun m => { m with
    epoch := 0
    retired := []
    queue := []
    current := none
    sessions := []
    ring := []
    acked := 0
    lossRun := false
    reply := none
    handover := none
    waiting := [] })

/-- FW_STAGE: a verified image goes to the inactive slot; in RECOVERY to slot A, and stage 0 starts again (R570). -/
def State.fwStage (s : State) (c : CtlCmd) (i : SlotImage) : State :=
  if (s.imageBad i).isSome then s.retireFree c.seq
  else if s.board.phase = .recovery then
    (((s.stageImage 0 i).retireCmd c.seq 0).freshRings.setFld 0x300000 15 12 0).onBoard (fun b => { b with phase := .boot })
  else (s.stageImage s.otherSlot i).retireCmd c.seq 0

/-- FW_ACTIVATE (R595). -/
def State.fwActivate (s : State) (c : CtlCmd) (k : Fin 2) (t : BitVec 64) : State :=
  if s.fld 0x300000 7 7 = 1 then s.retireCmd c.seq 12
  else if (s.slotBad s.mgmt.slots[k]).isSome then s.retireFree c.seq
  else (s.onMgmt (fun m => { m with handover := some ⟨k, t⟩ })).retireCmd c.seq 0

/-- A signature as a slot image's: by the vendor key, and in OWNED by the owner key too (R569, R596). -/
def State.signedOk (s : State) (body vsig osig : List Byte) : Bool :=
  Config.verifies Config.vendorKey body vsig &&
    (s.fld 0x300200 1 0 != 2 || (s.ownerKey).any (fun k => Config.verifies k body osig))

/-- UCODE_LOAD (R596): microcode goes to the named units whose QUEUE reads 0. -/
def State.ucodeLoad (s : State) (c : CtlCmd) : Ucode → State
  | .brine dies image vsig osig =>
    if !s.signedOk image vsig osig then s.retireFree c.seq
    else
      let want := (List.finRange 4).filter (fun d => dies.getLsbD d.val)
      let free (d : Fin 4) : Bool := s.brn[d].queue.isEmpty && s.brn[d].batches.isEmpty
      let t := want.foldl (fun (s : State) (d : Fin 4) =>
        if free d then s.onMgmt (fun m => { m with ucode := m.ucode.set d image }) else s) s
      if want.all free then t.retireCmd c.seq 0 else t.retireFree c.seq
  | .calibration k data => (s.onMgmt (fun m => { m with calib := m.calib.set k data })).retireCmd c.seq 0

/-- JOB_ABORT (R590): a start that waits is given up and its JOB_SUBMIT retires ABORTED; a running job's end begins. -/
def State.jobAbort (s : State) (c : CtlCmd) (id : BitVec 64) : State :=
  match s.jobPart id with
  | none => s.retireFree c.seq
  | some p =>
    let s := match (s.job[p]).map (·.phase) with
      | some .starting => s.undoStart p 10
      | _ => s.beginEnd p 1
    s.retireCmd c.seq 0

/-- PWR_CAP, or PWR_CAP_SCHED for an edge (R533, R534). -/
def State.setCap (s : State) (cap : BitVec 9) : Option (BitVec 48) → State
  | none => s.fwWrite s.primaryMc 0x100010 (cap.setWidth 64)
  | some t => s.fwWrite s.primaryMc 0x100018 (pack [(cap.toNat, 0), (t.toNat, 16)])

/-- What a permitted, well-formed command does. -/
def State.perform (s : State) (c : CtlCmd) : State :=
  let ok (s : State) : State := s.retireCmd c.seq 0
  match c.body with
  | .jobSubmit m => s.jobSubmit m c.seq
  | .jobAbort id => s.jobAbort c id
  | .setCap cap t => ok (s.setCap cap t)
  | .snapshot t => ok (s.fwWrite s.primaryMc 0x1040 t)
  | .powerState t => ok (s.pwrReq t.val)
  | .laserRelease b => ok (s.laserRelease b.val)
  | .xtlReset x force => ok ((s.setFld (xtlReg x 8) 1 1 (b2n force)).xtlCtlReset x force)
  | .fence u set => ok (if set then s.fenceWrite u else s.fenceErase u)
  | .fwStage i => s.fwStage c i
  | .fwActivate k t => s.fwActivate c k t
  | .ucode u => s.ucodeLoad c u
  | .classRaise k =>
    s.rwlCmd c (fun s => decide (s.fld 0x100008 1 0 < k.val) && decide (8 ≤ s.ledgerCount 1)) (fun s => s.classWrite k.val)
  | .ownerRotate h => s.rwlCmd c (fun s => decide (16 ≤ max s.mgmt.ownerKeys.length (s.fld 0x300208 4 0)) ||
      decide (16 ≤ s.ledgerCount 4)) (fun s => s.ownerRotate h)
  | .lifecycle st => s.rwlCmd c (fun s => decide (s.fld 0x300200 1 0 < st.val) && decide (3 ≤ s.ledgerCount 5) &&
      !(st.val == 2 && s.fld 0x300208 4 0 == 0)) (fun s => s.lifecycleWrite st.val)
  | .debugUnlock tok => s.debugCmd c tok
  | .fuseProg p v => s.rwlCmd c (fun s => s.fld (panBase p.val + 0x38) 15 0 != bitsOf v 15 0 && s.mgmt.fuses.any
      (fun (q : Nat × BitVec 64) => q.1 == p.val && bitsOf q.2 15 9 == bitsOf v 15 9)) (fun s => s.fuseWrite p (v.setWidth 16))

/-- An accepted command begins: DENIED, BAD_BODY, or its effect (R580). -/
def State.runCmd (s : State) (c : CtlCmd) : State :=
  if !c.body.roleOk c.role then s.retireCmd c.seq 1
  else if c.bad then s.retireCmd c.seq 2
  else s.perform c

/-- Sequenced commands run one at a time in sequence order (R578); at most `n` begin. -/
def State.runQueueN : Nat → State → State
  | 0, s => s
  | n + 1, s =>
    match s.mgmt.current, s.mgmt.queue with
    | none, c :: l => State.runQueueN n ((s.onMgmt (fun m => { m with queue := l, current := some c })).runCmd c)
    | _, _ => s

def State.runQueue (s : State) : State := State.runQueueN (s.mgmt.queue.length + 1) s

/-! The command ring (R577 to R580). -/

/-- ACCEPTED_SEQ. -/
def State.acceptedSeq (s : State) : BitVec 64 := s.reg 0x300030

/-- A header refused with BAD_HEADER (R577). -/
def badHdr (h : CmdHdr) : Bool := h.rsv || decide (2 ^ 24 < h.len.toNat)

/-- The reply to HELLO (R579). -/
def State.helloReply (s : State) : Reply :=
  let last := s.reg 0x300040
  .hello (s.reg 0x300008) s.acceptedSeq (s.reg 0x300038) (((s.mgmt.ring.head?).map (·.1)).getD (last + 1)) (last + 1)
    s.mgmt.epoch

/-- A sequenced command that reaches the ring (R579, R580). -/
def State.sequenced (s : State) (h : CmdHdr) (bad imm : Bool) (body : CtlBody) (ses : Session) : State :=
  let n := h.ses.val
  let acc := s.acceptedSeq
  if h.epoch.toNat < s.mgmt.epoch.toNat then s.answer n .staleEpoch
  else if h.epoch ≠ s.mgmt.epoch then s.answer n .refused
  else if h.seq = acc + 1 then
    if 1024 + s.mgmt.retired.length ≤ acc.toNat then s.answer n .full
    else
      let s := ((s.setReg 0x300030 h.seq).count 0x300400 1).answer n (.accepted h.seq)
      let c : CtlCmd := ⟨h.seq, ses.role, ses.id, bad, body⟩
      if imm then (s.runCmd c).runQueue
      else (s.onMgmt (fun m => { m with queue := m.queue ++ [c] })).runQueue
  else if h.seq.toNat ≤ acc.toNat then s.answer n (.duplicate h.seq (assoc h.seq s.mgmt.retired))
  else s.answer n (.gap acc)

/-- What QUERY reads. -/
def State.queryReply (s : State) : Query → Reply × State
  | .job id => (.job ((s.jobPart id).map (fun p =>
      (p.val, BitVec.ofNat 4 (((s.partDies p.val).map (fun d => 2 ^ d)).foldl (· + ·) 0)))), s)
  | .partition p => (.partition ((s.job[p]).map (fun (j : JobSt) => j.id)), s)
  | .register off =>
    let (v, s) := s.fwRead s.primaryMc (off.setWidth 64)
    (.register v, s)
  | .slotId => (.slotId s.board.slotId, s)

/-- The header of a command. -/
def CtlReq.hdr : CtlReq → CmdHdr
  | .hello h => h
  | .evtAck h _ => h
  | .query h _ => h
  | .seq h .. => h
  | .imm h .. => h

/-- A command that firmware takes from its session. -/
def State.takeReq (s : State) (r : CtlReq) : State :=
  let n := r.hdr.ses.val
  match assoc n s.mgmt.sessions with
  | none => s
  | some ses =>
    if badHdr r.hdr then s.answer n .badHeader
    else
      match r with
      | .hello h =>
        if h.epoch.toNat < s.mgmt.epoch.toNat then s.answer n .staleEpoch
        else
          let s := s.onMgmt (fun m => { m with epoch := h.epoch })
          s.answer n s.helloReply
      | .evtAck _ q =>
        let a := min q.toNat (s.reg 0x300040).toNat
        (s.onMgmt (fun m => { m with acked := if m.acked.toNat < a then BitVec.ofNat 64 a else m.acked })).answer n
          (.acked q)
      | .query _ q =>
        let (a, s) := s.queryReply q
        s.answer n a
      | .seq h bad body => s.sequenced h bad false body ses
      | .imm h bad body => s.sequenced h bad true body ses

/-- The old primary has stopped accepting commands and the new one has not the role yet (R595). -/
def State.handingOver (s : State) : Bool := (s.mgmt.handover).any (fun h => decide (h.target.toNat ≤ s.tide.num.toNat))

/-- A command arrives on a session: taken at once, kept in the session while a handover runs, or, in RECOVERY, taken when
it is FW_STAGE (R570). -/
def State.request (s : State) (r : CtlReq) : State :=
  if s.board.phase = .recovery then
    (match r with
      | .seq _ _ (.fwStage _) => s.takeReq r
      | _ => s)
  else if !s.serving then s
  else if s.handingOver then s.onMgmt (fun m => { m with waiting := m.waiting ++ [r] })
  else s.takeReq r

def execHello (h : CmdHdr) (s : State) : Res := .next (s.request (.hello h))
def execEvtAck (h : CmdHdr) (n : BitVec 64) (s : State) : Res := .next (s.request (.evtAck h n))
def execQuery (h : CmdHdr) (q : Query) (s : State) : Res := .next (s.request (.query h q))

/-- JOB_SUBMIT (R586 to R588). -/
def execJobSubmit (h : CmdHdr) (bad : Bool) (m : Manifest) (s : State) : Res :=
  .next (s.request (.seq h bad (.jobSubmit m)))

/-- JOB_ABORT (R590): begins as soon as it is accepted. -/
def execJobAbort (h : CmdHdr) (bad : Bool) (id : BitVec 64) (s : State) : Res :=
  .next (s.request (.imm h bad (.jobAbort id)))

/-- SET_CAP. -/
def execSetCap (h : CmdHdr) (bad : Bool) (cap : BitVec 9) (target : Option (BitVec 48)) (s : State) : Res :=
  .next (s.request (.seq h bad (.setCap cap target)))

/-- SNAPSHOT (R49). -/
def execSnapshot (h : CmdHdr) (bad : Bool) (t : BitVec 64) (s : State) : Res :=
  .next (s.request (.seq h bad (.snapshot t)))

/-- POWER_STATE (R555). -/
def execPowerState (h : CmdHdr) (bad : Bool) (t : Fin 4) (s : State) : Res :=
  .next (s.request (.seq h bad (.powerState t)))

/-- LASER_RELEASE (R458). -/
def execLaserRelease (h : CmdHdr) (bad : Bool) (b : Fin 16) (s : State) : Res :=
  .next (s.request (.seq h bad (.laserRelease b)))

/-- XTL_RESET (R211). -/
def execXtlReset (h : CmdHdr) (bad : Bool) (x : XtlIx) (force : Bool) (s : State) : Res :=
  .next (s.request (.seq h bad (.xtlReset x force)))

/-- FENCE (R522). -/
def execFence (h : CmdHdr) (bad : Bool) (u : FenceUnit) (set : Bool) (s : State) : Res :=
  .next (s.request (.seq h bad (.fence u set)))

/-- FW_STAGE (R569, R570). -/
def execFwStage (h : CmdHdr) (bad : Bool) (i : SlotImage) (s : State) : Res :=
  .next (s.request (.seq h bad (.fwStage i)))

/-- FW_ACTIVATE (R595). -/
def execFwActivate (h : CmdHdr) (bad : Bool) (k : Fin 2) (t : BitVec 64) (s : State) : Res :=
  .next (s.request (.seq h bad (.fwActivate k t)))

/-- UCODE_LOAD (R596). -/
def execUcodeLoad (h : CmdHdr) (bad : Bool) (u : Ucode) (s : State) : Res :=
  .next (s.request (.seq h bad (.ucode u)))

/-- CLASS_RAISE (R532). -/
def execClassRaise (h : CmdHdr) (bad : Bool) (c : Fin 4) (s : State) : Res :=
  .next (s.request (.seq h bad (.classRaise c)))

/-- OWNER_ROTATE (R575). -/
def execOwnerRotate (h : CmdHdr) (bad : Bool) (hash : List Byte) (s : State) : Res :=
  .next (s.request (.seq h bad (.ownerRotate hash)))

/-- LIFECYCLE (R574). -/
def execLifecycle (h : CmdHdr) (bad : Bool) (st : Fin 4) (s : State) : Res :=
  .next (s.request (.seq h bad (.lifecycle st)))

/-- DEBUG_UNLOCK (R573). -/
def execDebugUnlock (h : CmdHdr) (bad : Bool) (token : List Byte) (s : State) : Res :=
  .next (s.request (.seq h bad (.debugUnlock token)))

/-- FUSE_PROG (R143). -/
def execFuseProg (h : CmdHdr) (bad : Bool) (p : ClusterIx) (v : BitVec 64) (s : State) : Res :=
  .next (s.request (.seq h bad (.fuseProg p v)))

/-! Jobs as firmware carries them on (R587, R590). -/

/-- JOB_END (R590): firmware aborts a running job for a cause it has, or completes an end that has begun: cores that a
late granule started are killed too, and once the partition is drained it is freed. -/
def execJobEnd (p : PartIx) (why : EndWhy) (s : State) : Res :=
  .next (if !s.serving then s
    else
      match s.job[p] with
      | none => s
      | some j =>
        match why, j.phase with
        | .finish, .ending r =>
          let s := s.killPart p.val
          if s.partDrained p.val then (s.finishEnd p j r).runQueue else s
        | .finish, _ => s
        | w, _ => if s.abortCause p w then s.beginEnd p (endCode w) else s)

/-- ALIGN_TIMEOUT (R587): 10 s from a start without ALIGNED. -/
def execAlignTimeout (p : PartIx) (s : State) : Res :=
  .next (if !s.serving then s
    else
      match s.job[p] with
      | some j => if j.phase = .starting ∧ !s.jobAligned j.man then (s.undoStart p 8).runQueue else s
      | none => s)

/-! The watchdog and handover (R566, R567, R595). -/

/-- A command in progress at a takeover retires INTERRUPTED (R567); a start that it was waiting for is given up. -/
def State.interrupt (s : State) : State :=
  match s.mgmt.current with
  | none => s
  | some c =>
    match (List.finRange 4).find? (fun p => (s.job[p]).any (fun (j : JobSt) => j.phase == .starting && j.seq == some c.seq)) with
    | some p => s.undoStart p 11
    | none => s.retireCmd c.seq 11

/-- HEARTBEAT_TIMEOUT: D1 takes over from D0, booting anew during boot; a failure of the primary on D1 asserts FAULT_L. -/
def execHeartbeatTimeout (s : State) : Res :=
  let ph := s.board.phase
  .next (if !(s.awake || ph == .recovery) || s.board.d1Failed then s
    else if s.primary = 1 then (s.onBoard (fun b => { b with d1Failed := true })).faultLog 4 0
    else
      let s := (s.setFld 0x300000 9 8 1).setFld 0x300000 7 7 1
      let s := s.onBoard (fun b => { b with mcHeld := true })
      if ph = .run then
        let late := s.mgmt.waiting
        let s := s.interrupt.onMgmt (fun m => { m with handover := none, waiting := [] })
        late.foldl State.takeReq (s.raiseMod 3 0x404 (pack [(1, 0)])).runQueue
      else (s.freshRings.setFld 0x300000 15 12 0).onBoard (fun b => { b with phase := .boot, tookInBoot := true }))

/-- FW_HANDOVER (R595): after the target edge the new instance has the role, or (`ok` false) the old primary resumes;
commands that arrived meanwhile are taken. -/
def execFwHandover (ok : Bool) (s : State) : Res :=
  .next (match s.mgmt.handover with
    | none => s
    | some h =>
      if !s.serving || !s.handingOver then s
      else
        let late := s.mgmt.waiting
        let s := s.onMgmt (fun m => { m with handover := none, waiting := [] })
        let s := if ok then
            ((s.setFld 0x300000 9 8 (1 - s.primary)).setFld 0x300000 5 5 h.slot.val).onMgmt
              (fun m => { m with version := ((m.slots[h.slot]).map (fun (f : FlashSlot) => f.image.version)).getD m.version })
          else s
        let s := s.raiseMod 3 0x40C (pack [(b2n ok, 0), (h.slot.val, 1)])
        late.foldl State.takeReq s)

/-! The event ring (R583 to R585). -/

/-- Records of the ring. -/
def ringSize : Nat := 262144

/-- A record goes before another: its stamp, then its die. -/
def recBefore (a b : Nat × EvRec) : Bool :=
  if a.2.tide ≠ b.2.tide then decide (a.2.tide.toNat < b.2.tide.toNat)
  else if a.2.ns ≠ b.2.ns then decide (a.2.ns < b.2.ns)
  else decide (a.1 < b.1)

/-- A record in its place, after those that stand equal with it. -/
def insRec (x : Nat × EvRec) : List (Nat × EvRec) → List (Nat × EvRec)
  | [] => [x]
  | y :: l => if recBefore x y then x :: y :: l else y :: insRec x l

/-- The records present in the four FIFOs, in the order of R584. -/
def State.fifoRecords (s : State) : List EvRec :=
  (((List.finRange 4).flatMap (fun d => (s.fifo[d]).map (fun r => (d.val, r)))).foldl
    (fun (l : List (Nat × EvRec)) x => insRec x l) []).map (·.2)

/-- One record takes the next sequence number. One that overwrites an unacknowledged record begins or continues a run of
overwrites, and the run's first raises event 0x0406 (R585). -/
def State.ringAppend (s : State) (r : EvRec) : State :=
  let n := s.reg 0x300040 + 1
  let s := (s.setReg 0x300040 n).count 0x300410 1
  if s.mgmt.ring.length < ringSize then s.onMgmt (fun m => { m with ring := m.ring ++ [(n, r)], lossRun := false })
  else
    let lost := ((s.mgmt.ring.head?).map (·.1)).getD 0
    let loss := decide (s.mgmt.acked.toNat < lost.toNat)
    let first := loss && !s.mgmt.lossRun
    let s := s.onMgmt (fun m => { m with ring := m.ring.drop 1 ++ [(n, r)], lossRun := loss })
    if first then s.raiseMod 3 0x406 lost else s

/-- EVENT_RING_APPEND: the FIFOs are emptied into the ring, and drops reported. -/
def execEventRingAppend (s : State) : Res :=
  .next (if !s.serving then s
    else
      let l := s.fifoRecords
      let s := l.foldl State.ringAppend { s with fifo := Vector.replicate 4 [] }
      (List.finRange 4).foldl (fun (s : State) (d : Fin 4) =>
        if s.fifoDrop[d] = 0 then s
        else ({ s with fifoDrop := s.fifoDrop.set d 0 } : State).raiseMod 3 0x405
          (pack [(d.val, 0), (low 32 s.fifoDrop[d], 32)])) s)

/-! Metrics (R594). -/

/-- METRICS_GET: every counter's shadow, with the tide number of the snapshot. HTTPS carries no session of the ring. -/
def execMetricsGet (s : State) : Res :=
  .next (if s.serving then
      let s := openKeys.foldl State.latchOpen s
      s.answer 16 (.metrics (s.reg 0x1010) s.shadow)
    else s)

end Sys2Proof.Machine
end

