-- ==== Sys2Proof/Machine/Mailbox.lean ====
section
/-! DEFINITION. The partitions' mailboxes and the checkpoint service (R591, R593). -/

namespace Sys2Proof.Machine

/-! The request block. -/

/-- The virtual address in MGMT_MBOX_p. -/
def State.mboxVa (s : State) (p : Nat) : Nat := s.fld (mboxReg p) 55 6 * 64

/-- The physical address of the block; none when its page is not mapped. -/
def State.mboxPa (s : State) (p : Nat) : Option Nat :=
  let w := s.walk p (s.mboxVa p)
  match w.reason with
  | none => some (s.forward w.pa)
  | some _ => none

/-- BUSY clears: the request has completed, and is counted. -/
def State.mboxClear (s : State) (p : Fin 4) : State :=
  ((s.setFld (mboxReg p.val) 0 0 0).count 0x300430 1).onMgmt (fun m => { m with mboxWait := m.mboxWait.set p none })

/-- The completion SEND: to QUEUE on the issuing die, none for 0xFF. A full ring holds it, and BUSY with it. -/
def State.mboxSend (s : State) (p : Fin 4) (queue status : Nat) : State :=
  if queue = 0xFF then s.mboxClear p
  else
    let d := s.mgmt.mboxDie[p]
    let bs := leBytes 8 (s.mboxVa p.val) ++ leBytes 4 status ++ List.replicate 20 0
    match s.performSend d d queue s.device d bs with
    | (s, none) => s.onMgmt (fun m => { m with mboxWait := m.mboxWait.set p (some status) })
    | (s, some _) => s.mboxClear p

/-- The end of a request: STATUS, the SEND, BUSY. -/
def State.mboxEnd (s : State) (p : Fin 4) (status : Nat) : State :=
  match s.mboxPa p.val with
  | none => s.mboxClear p
  | some pa =>
    let queue := (s.rdByte (pa + 2)).toNat
    (s.store (pa + 4) (leBytes 4 status)).mboxSend p queue status

/-- A failure for which the spec gives no result code: 0x100 and a free value. -/
def State.mboxFail (s : State) (p : Fin 4) : State :=
  let (v, s) := s.fresh
  s.mboxEnd p (0x100 + v.toNat % 256)

/-- Firmware serves partition p's request when it is the operation `op`: `f` gets the block's bytes. A block that cannot be
read ends the request with no STATUS; an operation that R591 does not list fails it; a SEND that was held is sent. -/
def State.mboxServe (s : State) (p : Fin 4) (op : Nat) (f : State → List Byte → State) : State :=
  if !s.serving ∨ s.fld (mboxReg p.val) 0 0 = 0 then s
  else
    match s.mboxPa p.val with
    | none => s.mboxClear p
    | some pa =>
      let b := s.rdBytes pa 64
      let code := recNat b 0 2
      if code = 0 ∨ 7 < code then s.mboxFail p
      else if code ≠ op then s
      else
        match s.mgmt.mboxWait[p] with
        | some (st + 1) => s.mboxSend p (recNat b 2 1) (st + 1)
        | _ => f s b

/-! END, ALLOC, FREE, MOVE, SNAPSHOT. -/

/-- MBOX_END (R590): the request completes and the job's end begins. -/
def execMboxEnd (p : PartIx) (s : State) : Res :=
  .next (s.mboxServe p 1 (fun s _ => (s.mboxEnd p 1).beginEnd p 0))

/-- A Stacker request ends the mailbox request with its RESULT. -/
def State.mboxStkDone (s : State) (p : Fin 4) : State :=
  let r := s.fld (stkReg 0x38) 11 8
  s.mboxEnd p (if r = 0 then 1 else 0x100 + r)

/-- ALLOC, FREE or MOVE: the block's Stacker fields are written for the partition, and the request ends when the Stacker
has ended its own. While the Stacker is at work on another request this one waits. -/
def State.mboxStacker (s : State) (p : Fin 4) (op : Nat) (b : List Byte) : State :=
  let busy (s : State) : Bool := s.fld (stkReg 0x38) 0 0 == 1
  match s.mgmt.mboxWait[p] with
  | some _ => if busy s then s else s.mboxStkDone p
  | none =>
    if busy s || s.mgmt.mboxWait.any (· == some 0) then s
    else
      let word (i : Nat) : BitVec 64 := BitVec.ofNat 64 (recNat b i 8)
      let s := (s.setReg (stkReg 0x20) (word 16 &&& 0x00FFFFFFFFFF0000)).setReg (stkReg 0x28) (word 24 &&& 0x1FFFFFF)
      let s := s.stkReqWrite (stkGo op (setBits (word 8) 63 62 p.val))
      if busy s then s.onMgmt (fun m => { m with mboxWait := m.mboxWait.set p (some 0) })
      else s.mboxStkDone p

def execMboxAlloc (p : PartIx) (s : State) : Res := .next (s.mboxServe p 2 (fun s b => s.mboxStacker p 1 b))
def execMboxFree (p : PartIx) (s : State) : Res := .next (s.mboxServe p 3 (fun s b => s.mboxStacker p 2 b))
def execMboxMove (p : PartIx) (s : State) : Res := .next (s.mboxServe p 4 (fun s b => s.mboxStacker p 3 b))

/-- MBOX_SNAPSHOT: SNAP_REQ written with the target tide; a target that has passed is refused (R51). -/
def execMboxSnapshot (p : PartIx) (s : State) : Res :=
  .next (s.mboxServe p 7 (fun s b =>
    let t := BitVec.ofNat 64 (recNat b 8 8)
    let s' := s.fwWrite s.primaryMc 0x1040 t
    if t.toNat ≤ s.tide.num.toNat then s'.mboxFail p else s'.mboxEnd p 1))

/-- MBOX_CLEAR_DROPPED: a write of the mailbox with bit 1 set. -/
def execMboxClearDropped (p : PartIx) (s : State) : Res := .next (if s.awake then s.mboxWrite p.val 2 else s)

/-! Checkpoints (R593). -/

/-- The tap a region's sluice feeds: its read or its write tap, or that of the crystallizer's check-value unit. -/
def ckptTap (r : CkptRegion) (write : Bool) : Nat :=
  match r.slow with
  | some x => 0x2000 + 2 * x.val + b2n write
  | none => 0x1000 + 32 * (r.slu.val / 8) + (if write then 9 else 1) + r.slu.val % 8

/-- The first tap of a plan that another owner than the checkpoint service holds: the resource and its holder. -/
def State.tapHeld (s : State) (plan : List CkptRegion) (write : Bool) : Option (Nat × Nat) :=
  plan.findSome? (fun r =>
    match assoc (ckptTap r write) s.int.claims with
    | some h => if h = 0xC0 then none else some (ckptTap r write, h)
    | none => none)

/-- The context of a region's sluice for the partition that owns its die. -/
def State.ckptCtx (s : State) (r : CkptRegion) : XCtx :=
  { XCtx.start s 2 (s.sluSrc r.slu.val) none 0 with die := r.slu.val / 8 }

/-- The index of a checkpoint: (VA, length, kind, CRC-64) of each region, and the CRC-64 of those entries. -/
def ckptIndexOf (l : List (CkptRegion × BitVec 64)) : List Byte :=
  let es := l.flatMap (fun (q : CkptRegion × BitVec 64) =>
    leBytes 8 q.1.va.toNat ++ leBytes 8 q.1.len.toNat ++ leBytes 8 (b2n q.1.slow.isSome) ++ leBytes 8 q.2.toNat)
  es ++ leBytes 8 (crc64 es).toNat

/-- Bytes written to a checkpoint's target, `off` bytes from its address; none when it has no connection. -/
def State.ckptSend (s : State) (d off : Nat) (bs : List Byte) : CkptTarget → Option State
  | .roce q port addr =>
    let s := s.setQp q.val { QpSt.reset with port := some port.val }
    some { s with link := { s.link with qpOut := s.link.qpOut ++ [(q.val, addr.toNat + off, bs)] } }
  | .tuimal dev die addr =>
    (s.connOf d dev.toNat die.val).map (fun j =>
      (chunks 4096 bs.length bs).zipIdx.foldl (fun (s : State) (q : List Byte × Nat) =>
        s.sendConn d j ⟨0, 0, q.1.length, 0, 0, 0, 0, 0, 0, 0, addr.toNat + off + 4096 * q.2, 0, []⟩ (.bytes q.1) none) s)

/-- The regions of a plan in turn, each read and sent behind the one before it: the CRCs found, and whether every region
was read and sent. -/
def State.ckptRegions (s : State) (d : Nat) (t : CkptTarget) :
    List CkptRegion → Nat → List (CkptRegion × BitVec 64) → State × Nat × List (CkptRegion × BitVec 64) × Bool
  | [], off, acc => (s, off, acc, true)
  | r :: l, off, acc =>
    let (bs, x) := (s.ckptCtx r).rdLong r.va.toNat r.len.toNat
    let (s, ok) := x.received
    if !ok then (s, off, acc, false)
    else
      match s.ckptSend d off bs t with
      | none => (s, off, acc, false)
      | some s => s.ckptRegions d t l (off + bs.length) (acc ++ [(r, crc64 bs)])

/-- CLAIM_BUSY ends a checkpoint request before anything is sent; the refused claim raises event 0x0407 (R598). -/
def State.ckptBusy (s : State) (p : Fin 4) (q : Nat × Nat) : State :=
  (s.raiseMod 3 0x407 (pack [(q.1, 0), (0xC0, 16), (q.2, 24)])).mboxEnd p 0x101

/-- A plan whose every sluice lies on a die of the partition. -/
def State.planOk (s : State) (p : Nat) (plan : List CkptRegion) : Bool :=
  plan.all (fun r => s.partOfDie (r.slu.val / 8) == some p)

/-- CKPT_WRITE: the plan at the block's address names `plan` and `t`. -/
def execCkptWrite (p : PartIx) (plan : List CkptRegion) (t : CkptTarget) (s : State) : Res :=
  .next (s.mboxServe p 5 (fun s _ =>
    match s.tapHeld plan false with
    | some q => s.ckptBusy p q
    | none =>
      if !s.planOk p.val plan then s.mboxFail p
      else
        let d := s.mgmt.mboxDie[p]
        let (s, off, l, ok) := s.ckptRegions d t plan 0 []
        if !ok then s.mboxFail p
        else
          let ix := ckptIndexOf l
          match s.ckptSend d off ix t with
          | none => s.mboxFail p
          | some s => (s.onMgmt (fun m => { m with ckptIndex := ix })).mboxEnd p 1))

/-- One region restored: written through its sluice, its CRC compared; whether it was written whole and matched. -/
def State.ckptRestore (s : State) (p : Nat) (r : CkptRegion) (bs : List Byte) (crc : BitVec 64) : State × Bool :=
  let (s, ok) := ((s.ckptCtx r).wrLong r.va.toNat (bs.take r.len.toNat)).received
  if crc64 (bs.take r.len.toNat) = crc then (s, ok)
  else (s.raiseMod 3 0x40B (pack [(r.va.toNat, 0), (p, 56)]) p, false)

/-- CKPT_READ: `back` is what the target holds for each region of the plan, with the CRC its index gives. -/
def execCkptRead (p : PartIx) (plan : List CkptRegion) (back : List (List Byte × BitVec 64)) (s : State) : Res :=
  .next (s.mboxServe p 6 (fun s _ =>
    match s.tapHeld plan true with
    | some q => s.ckptBusy p q
    | none =>
      if !s.planOk p.val plan then s.mboxFail p
      else
        let (s, ok) := (plan.zip back).foldl (fun (a : State × Bool) (q : CkptRegion × List Byte × BitVec 64) =>
          let (s, ok) := a.1.ckptRestore p.val q.1 q.2.1 q.2.2
          (s, a.2 && ok)) (s, true)
        if ok then s.mboxEnd p 1 else s.mboxFail p))

end Sys2Proof.Machine
end

