-- ==== Sys2Proof/Machine/Perform.lean ====
section
/-! DEFINITION. ACCESS_PERFORMED: an issued access of a core is performed at its home slice, or at the window (R290, R302,
R303), with the failed attempts of its words (R350, R351, R505). -/

namespace Sys2Proof.Machine

/-- The physical address space maps the bytes of an access (R353). -/
def State.mapped (s : State) (a : Access) : Bool := (s.region a.pa).isSome

/-- The i-th pending access may be performed now: window accesses in program order (R290), the accesses to one 64-byte
line in program order (R302), others in any order (R303); none to a die out of reach (R451). -/
def State.mayPerform (s : State) (c : CoreIx) (i : Nat) (a : Access) : Bool :=
  let before := s.core[c].acc.take i
  if a.op.isCtl then before.all (fun b => !b.op.isCtl)
  else !s.cutOff (c.val / 32) (s.forward a.pa) &&
    before.all (fun b => b.op.isCtl || decide (s.forward b.pa / 64 ≠ s.forward a.pa / 64))

/-- Performs a virtual-space access whose words took failed attempts. A line that fails on the core port of a read is
poisoned for the reader alone (R505); a written one stays poisoned. -/
def State.performTried (s : State) (c : CoreIx) (i : Nat) (a : Access) (tries : Tries) : State :=
  let pa := s.forward a.pa
  let s1 := s.stackTries pa tries.stack.val false
  -- a read's failed attempts come first: its result is what a poisoned line reads as
  let read := { (s1.pathTries pa 1 tries.path.val).performOne c i a with poison := s1.poison }
  match a.op with
  | .ld .. => read
  | .vld .. => read
  | .amo .. => (s1.performOne c i a).pathTries pa 1 tries.path.val
  | _ => ((s.performOne c i a).stackTries pa tries.stack.val true).pathTries pa 1 tries.path.val

/-- What an access that has been performed lets go on: the core's own wait, barriers, and a FREE of its page. -/
def State.afterAccess (s : State) (c : CoreIx) : State :=
  ((s.settle c).settleBars (Fin.ofNat 8 (c.val / 16))).stkSettle

/-- ACCESS_PERFORMED (R302): the `i`-th pending access of core `c` is performed. -/
def execAccessPerformed (c : CoreIx) (i : Nat) (tries : Tries) (s : State) : Res :=
  if !s.clocked then .next s
  else
    match s.core[c].acc[i]? with
    | none => .next s
    | some a =>
      if !s.mayPerform c i a then .next s
      else if a.op.isCtl then
        .next (((s.onCore c (fun k => { k with acc := k.acc.eraseIdx i })).ctlPerform c a.op).afterAccess c)
      else if !s.mapped { a with pa := s.forward a.pa } then .fault (.noSuchAddress (s.forward a.pa))
      else .next ((s.performTried c i a tries).afterAccess c)

end Sys2Proof.Machine
end

