-- ==== Sys2Proof/Machine/Pins.lean ====
section
/-! DEFINITION. The pins that the island and firmware drive, the I3C target and the JTAG port (R612 to R615, R619 to
R621). -/

namespace Sys2Proof.Machine

/-! Driven pins. -/

/-- ALERT_L and FAULT_L: high impedance, or driven. -/
inductive Line where
  | hiZ
  | high
  | low
  deriving DecidableEq, Repr

/-- The island drives its pins: not while the module is off or in reset (R608). -/
def State.islandDrives (s : State) : Bool := s.islandOn && s.board.phase != .reset

/-- FAULT_L (R612). -/
def State.faultPin (s : State) : Line := if !s.islandDrives then .hiZ else if s.faultL then .low else .high

/-- ALERT_L (R608, R613): low while any bit of the alert register is set, and while tripped. -/
def State.alertPin (s : State) : Line :=
  if !s.islandDrives then .hiZ else if s.board.alert ≠ 0 ∨ s.board.phase = .tripped then .low else .high

/-- STATUS[2:0]: floating, driven, or as another firmware feature that holds the pins defines it (R614). -/
inductive StatusPins where
  | float
  | driven (v : Fin 8)
  | feature (owner : Nat)
  deriving DecidableEq, Repr

/-- STATUS[2:0] of R614. -/
def State.statusPins (s : State) : StatusPins :=
  match s.board.phase with
  | .boot => .driven 1
  | .recovery => .driven 6
  | .run =>
    if s.pstate = 3 then .float
    else
      match assoc 0x5000 s.int.claims with
      | some 0xC4 =>
        .driven (if s.mgmt.handover.isSome then 7 else if s.pstate = 1 then 4 else if s.pstate = 2 then 5
          else if s.jobs.isEmpty then 2 else 3)
      | some o => .feature o
      | none => .float
  | _ => .float

/-! The alert register (R613). -/

/-- Whether the cause of an alert bit is still present. -/
def State.alertCause (s : State) (bit : Fin 5) : Bool :=
  match bit with
  | 0 => s.pwr.vinOut
  | 1 => s.powered && (List.finRange 4).any (fun d => decide (s.tStep ≤ s.pwr.die[d].tj))
  | 2 => (List.range 16).any (fun b => s.laser b == 5)
  | 3 => s.faultL
  | _ => false

/-- The board clears bits; a bit whose cause is still present sets again. -/
def State.alertClear (s : State) (v : BitVec 5) : State :=
  let s := s.onBoard (fun b => { b with alert := b.alert &&& ~~~v })
  (List.finRange 5).foldl (fun (s : State) b => if v.getLsbD b.val && s.alertCause b then s.alert b else s) s

/-! The I3C target (R619, R620). -/

/-- The target answers: from the island's start, whatever state the module is in. -/
def State.i3cUp (s : State) : Bool := s.islandDrives

/-- A command to the module's dynamic address. -/
def State.i3cTo (s : State) (f : State → State) : Res :=
  .next (if s.i3cUp && s.board.dynAddr.isSome then f s else s)

/-- The provisioned ID. -/
def State.provisionedId (s : State) : BitVec 48 :=
  BitVec.ofNat 48 (0x4B47 * 2 ^ 33 + 0xF801 * 2 ^ 16 + s.board.slotId.toNat * 2 ^ 10 + (s.reg 8).toNat % 2 ^ 10)

/-- The provisioned ID as the bus carries it, most significant byte first. -/
def State.idBytes (s : State) : List Byte := (leBytes 6 s.provisionedId.toNat).reverse

def State.i3cReply (s : State) (l : List Byte) : State := s.onBoard (fun b => { b with i3cOut := l })

/-- State of register 0x10. -/
def State.i3cState (s : State) : Nat :=
  match s.board.phase with
  | .tripped => 0xFF
  | .reset => 7
  | .run => s.pstate
  | _ => 6

/-- A die has power. -/
def State.diePowered (s : State) : Bool :=
  (s.powered || s.board.phase == .recovery) && !s.domainsOff && s.pstate != 3

/-- The register map of R620. -/
def State.i3cByte (s : State) (i : Nat) : Byte :=
  let byte (v : BitVec 64) (k : Nat) : Byte := BitVec.ofNat 8 (v.toNat / 2 ^ (8 * k))
  let last := s.board.log.getLast?
  if i < 8 then byte (s.reg 0) i
  else if i < 0x10 then byte (s.reg 8) (i - 8)
  else if i = 0x10 then BitVec.ofNat 8 s.i3cState
  else if i = 0x11 then s.board.alert.setWidth 8
  else if i < 0x14 then byte (BitVec.ofNat 64 s.board.vin) (i - 0x12)
  else if i < 0x16 then byte (BitVec.ofNat 64 s.board.watts) (i - 0x14)
  else if i < 0x1A then (if s.diePowered then BitVec.ofNat 8 (s.pwr.die[Fin.ofNat 4 (i - 0x16)]).tj else 0xFF)
  else if i = 0x1A then s.board.slotId.setWidth 8
  else if i = 0x20 then
    (match last with
      | some r => BitVec.ofNat 8 r.cause
      | none => 0xFF)
  else if i = 0x21 then
    (match last with
      | some r => if r.cause = 2 then BitVec.ofNat 8 r.die else 0
      | none => 0)
  else if 0x28 ≤ i ∧ i < 0x30 then
    (match last with
      | some r => byte r.tide (i - 0x28)
      | none => 0)
  else 0

/-- I3C_PRIVATE_WRITE (R620): the first byte is the index; only the alert register takes a write. -/
def execI3cPrivateWrite (bytes : List Byte) (s : State) : Res :=
  s.i3cTo (fun s =>
    match bytes with
    | [] => s
    | i :: l =>
      let s := s.onBoard (fun b => { b with i3cIx := i.toNat })
      l.zipIdx.foldl (fun (s : State) (q : Byte × Nat) =>
        if i.toNat + q.2 = 0x11 then s.alertClear (q.1.setWidth 5) else s) s)

/-- I3C_PRIVATE_READ (R620). -/
def execI3cPrivateRead (n : BitVec 8) (s : State) : Res :=
  s.i3cTo (fun s =>
    let i := s.board.i3cIx
    (s.i3cReply ((List.range n.toNat).map (fun k => s.i3cByte (i + k)))).onBoard
      (fun b => { b with i3cIx := i + n.toNat }))

/-- ENEC and DISEC: bit 0 of the event byte is in-band interrupts. -/
def execEnec (events : BitVec 8) (s : State) : Res :=
  .next (if s.i3cUp then s.onBoard (fun b => { b with ibiEn := b.ibiEn || events.getLsbD 0 }) else s)
def execDisec (events : BitVec 8) (s : State) : Res :=
  .next (if s.i3cUp then s.onBoard (fun b => { b with ibiEn := b.ibiEn && !events.getLsbD 0 }) else s)

/-- RSTDAA. -/
def execRstdaa (s : State) : Res := .next (if s.i3cUp then s.onBoard (fun b => { b with dynAddr := none }) else s)

/-- The device characteristics register: the spec gives no value. -/
def State.dcr (_ : State) : Byte := Config.i3cDcr

/-- ENTDAA: the module without an address offers its provisioned ID, and the controller assigns one. -/
def execEntdaa (a : BitVec 7) (s : State) : Res :=
  .next (if s.i3cUp && s.board.dynAddr.isNone then
      (s.i3cReply (s.idBytes ++ [0x06, s.dcr])).onBoard (fun b => { b with dynAddr := some a })
    else s)

/-- SETDASA at a static address: the module's is 0x2A. -/
def execSetdasa (static_ a : BitVec 7) (s : State) : Res :=
  .next (if s.i3cUp ∧ static_ = 0x2A ∧ s.board.dynAddr.isNone then s.onBoard (fun b => { b with dynAddr := some a }) else s)

def execGetpid (s : State) : Res := s.i3cTo (fun s => s.i3cReply s.idBytes)
def execGetbcr (s : State) : Res := s.i3cTo (fun s => s.i3cReply [0x06])
def execGetdcr (s : State) : Res := s.i3cTo (fun s => s.i3cReply [s.dcr])

/-- GETSTATUS: the spec gives its two bytes no content. -/
def execGetstatus (s : State) : Res :=
  s.i3cTo (fun s =>
    let (v, s) := s.fresh
    s.i3cReply (leBytes 2 v.toNat))

/-! JTAG (R621). -/

/-- An instruction of the port, which is active whenever the island has power. -/
def State.jtag (s : State) (f : State → State) : Res := .next (if s.islandOn then f s else s)

/-- SAMPLE/PRELOAD: the pins captured, the cells preloaded. -/
def State.sample (s : State) (ir : BitVec 8) (pins cells : BitVec 13) : State :=
  s.onBoard (fun b => { b with ir := ir, capture := pins, bscan := cells, dr := pins.setWidth 32 })

/-- EXTEST: as SAMPLE/PRELOAD, and while RESET_L is low the cells drive the signals. -/
def execExtest (pins cells : BitVec 13) (s : State) : Res := s.jtag (fun s => s.sample 0x00 pins cells)

/-- What the boundary cells drive, where they do. -/
def State.cellsDrive (s : State) : Option (BitVec 13) :=
  if s.board.phase = .reset ∧ s.board.ir = 0 then some s.board.bscan else none

def execIdcode (s : State) : Res := s.jtag (fun s => s.onBoard (fun b => { b with ir := 0x01, dr := 0x1F80112F }))

def execSamplePreload (pins cells : BitVec 13) (s : State) : Res := s.jtag (fun s => s.sample 0x02 pins cells)

/-- BYPASS: one bit that captures 0. -/
def execBypass (s : State) : Res := s.jtag (fun s => s.onBoard (fun b => { b with ir := 0xFF, dr := 0 }))

/-- DBG_ACCESS: while MGMT_STATUS.DEBUG is 1 the debug modules of the management cores answer, with what the spec does not
say; otherwise it acts as BYPASS. -/
def execDbgAccess (s : State) : Res :=
  s.jtag (fun s =>
    if s.fld 0x300000 6 6 = 1 then
      let (v, s) := s.fresh
      s.onBoard (fun b => { b with ir := 0x20, dr := v.setWidth 32 })
    else s.onBoard (fun b => { b with ir := 0x20, dr := 0 }))

/-- TAP_RESET: the port stands at IDCODE. -/
def execTapReset (s : State) : Res := s.jtag (fun s => s.onBoard (fun b => { b with ir := 0x01, dr := 0x1F80112F }))

end Sys2Proof.Machine
end

