-- ==== Sys2Proof/Machine/Replay.lean ====
section
/-! DEFINITION. Replays, third runs and write-backs of suspect units (R507 to R514). -/

namespace Sys2Proof.Machine

/-- Whether a pan may run for a partition: not wholly fenced, of width 1 or more, in the partition (R510). -/
def State.canReplay (s : State) (part : Option Nat) (p : ClusterIx) : Bool :=
  s.partOfDie (p.val / 2) == part && part.isSome && !s.pan[p].whole && decide (1 ≤ s.pan[p].width)

/-- The candidates for runs of a unit, in order (R510). -/
def State.candidates (s : State) (orig : ClusterIx) : List ClusterIx :=
  let d := orig.val / 2
  let far := [1, 2, 3].flatMap (fun i => [Fin.ofNat 8 (2 * ((d + i) % 4)), Fin.ofNat 8 (2 * ((d + i) % 4) + 1)])
  let all := if s.fld 0x210000 4 4 = 0 then twinOf orig :: far else far ++ [twinOf orig]
  all.filter (s.canReplay (s.partOfDie d))

/-- The product of a record, built again from its commands at full width (R511): none where an operand's descriptor or
record is refused or cannot be read. -/
def XCtx.replayJob (x : XCtx) (r : RepRec) : Option (PanJob × Rake) × XCtx :=
  let q := PanSt.reset
  match r.cmds with
  | [] => (none, x)
  | cmd :: _ =>
    let got (j : Read (PanJob × Rake) × XCtx) : Option (PanJob × Rake) × XCtx :=
      match j with
      | (.ok p, x) => (some p, x)
      | (_, x) => (none, x)
    match cmd.op with
    | .panStr _ win slot =>
      (match r.lds with
        | none => (none, x)
        | some l =>
          match l.op with
          | .panLds turn narrow _ =>
            (match x.buildLds q 1 l turn narrow .fold1 with
              | (.ok (t, src), x) => got (x.buildStr q cmd win slot r.rake { t with nOff := t.nOff } |> fun (a, x) =>
                  (match a with
                    | .ok (j, k) => .ok ({ j with stat := src }, k)
                    | o => o, x))
              | (_, x) => (none, x))
          | .panFill turn _ =>
            (match x.panDesc (l.va 0) with
              | (.ok d, x) =>
                let t : Tile := ⟨true, [0], d.fmt, d.field, (ldsClass d.fmt false).getD 0, 1, (l.word 2).toNat,
                  (l.word 3).toNat, (l.word 4).toNat, [], some l⟩
                got (x.buildStr q cmd win slot r.rake t |> fun (a, x) =>
                  (match a with
                    | .ok (j, k) => .ok ({ j with stat := .mem d turn (l.word 1).toNat (l.word 2).toNat }, k)
                    | o => o, x))
              | (_, x) => (none, x))
          | _ => (none, x))
    | .panMm turn win slot _ => got (x.buildMm q 1 cmd turn win slot .fold1 r.rake)
    | .panFill turn slot =>
      let (fs, x) := x.collect (fun x c =>
        match x.checkFill q 1 c slot r.rake with
        | (.ok f, x) => (some f, x)
        | (_, x) => (none, x)) r.cmds
      if fs.all Option.isSome then got (x.buildFill q 1 (fs.filterMap id) turn slot r.rake) else (none, x)
    | .panTwin turn xt xs _ acc gs _ =>
      (match x.checkTwin 4 4 cmd acc xs gs (if r.role = 1 then r.rake else none) (if r.role = 2 then r.rake else none) with
        | (.ok o, x) =>
          if r.role = 1 then (some (crossJob q cmd o turn r.rake none, o.rx), x)
          else (some (gatherJob q cmd o xt acc r.rake, o.rg), x)
        | (_, x) => (none, x))
    | _ => (none, x)

/-- What a run of a unit gives: signatures, overflow, engines that mismatched, tally mismatches, passes, writes. -/
structure RunOut where
  sigs : Sigs
  ovf : List (BitVec 64)
  engines : List Nat
  fails : Nat
  passes : Nat
  plans : List Plan
  ovfs : Nat
  deriving Repr

/-- A unit run once more on a pan, at its width in force (R511); none where an operand cannot be read. -/
def State.runUnit (s : State) (p : ClusterIx) (r : RepRec) (ups : List Upset) : Option RunOut × XCtx :=
  let cmd := r.cmds.head?
  let x := s.panCtx p ((cmd.map (·.core.val)).getD 0)
  let (j, x) := x.replayJob r
  match j with
  | none => (none, x)
  | some (j, rk) =>
    let q := s.pan[p]
    let j := { j with fold := 1, engCols := q.cols }
    let passes := q.passes (q.arrays 1) j.cls 1 j.k j.n false r.unit
    let (o, eng, x) := passes.foldl (fun (a : PassOut × List Nat × XCtx) ps =>
      let (o, eng, x) := a
      let (o, x) := XCtx.runPass x j ps ups ((s.reg (panReg p 8)).getLsbD 0) { o with groups := [] }
      (o, (o.groups.flatMap (j.engines ps.array)).foldl (fun a e => setAdd e a) eng, x)) (PassOut.start [] [], ([] : List Nat), x)
    let part := x.part.getD 0
    let (sig, _) := x.opSig j rk r.unit
    let ((outs, plans, _), x) := x.rakeUnits j rk [r.unit] o.acc (j.spans rk) (s.seed[Fin.ofNat 4 part]).toNat
    if x.fault.isSome ∨ x.badRecord then (none, x)
    else
      let w : RakeOut := (outs.head?).getD ⟨[], []⟩
      (some ⟨⟨sig, w.sig⟩, uniq (w.ovf ++ o.nonFinite), eng, o.fails, passes.length, plans.map (·.plan), x.ovfs⟩, x)

/-- What a run counts on its pan: passes, mismatches, a soft start, and INT_REPLAY_RUN_CNT. -/
def State.countRun (s : State) (p : ClusterIx) (o : Option RunOut) : State :=
  let s := s.count 0x210410 1
  match o with
  | none => s
  | some o =>
    let s := (s.count (panReg p 0x400) o.passes).count (panReg p 0x440) o.fails
    if s.pan[p].gated then (s.onPan p (fun q => { q with gated := false })).count (panReg p 0x4B0) 1 else s

/-- Replaces a record of a die. -/
def State.putRec (s : State) (d : DieIx) (r r' : RepRec) : State :=
  s.onRecs d (fun l => l.map (fun o => if o = r then r' else o))

/-- REPLAY_RUN (R510 to R512): record `i` of die `d` is run on the first candidate, after the command in progress
there. With no candidate the unit is UNREPLAYABLE. -/
def execReplayRun (d : DieIx) (i : Fin 16) (ups : List Upset) (s : State) : Res :=
  match s.int.recs[d][i.val]? with
  | none => .next s
  | some r =>
    if r.phase ≠ .replay then .next s
    else
      match s.candidates r.pan with
      | [] => .next (s.decideUnit d r 5 [])
      | p :: _ =>
        if s.pan[p].passing then .next s
        else
          let (o, x) := s.runUnit p r ups
          let s := { x.s with mem := s.mem, poison := s.poison }.countRun p o
          let r1 := { r with replayPan := some p }
          let s := s.putRec d r r1
          match o with
          | none => .next (s.decideUnit d r1 4 [])
          | some o =>
            if o.sigs.op ≠ r.sigs.op then .next (s.decideUnit d r1 4 [])
            else if o.sigs.res = r.sigs.res then .next (s.decideUnit d r1 1 r.ovf)
            else .next (s.putRec d r1 { r1 with phase := .third, repSigs := o.sigs, repEngines := o.engines })

/-- THIRD_RUN (R510, R512): the first candidate that neither the original nor the replay used. -/
def execThirdRun (d : DieIx) (i : Fin 16) (ups : List Upset) (s : State) : Res :=
  match s.int.recs[d][i.val]? with
  | none => .next s
  | some r =>
    if r.phase ≠ .third then .next s
    else
      match (s.candidates r.pan).filter (fun p => some p ≠ r.replayPan) with
      | [] => .next (s.decideUnit d r 5 [])
      | p :: _ =>
        if s.pan[p].passing then .next s
        else
          let (o, x) := s.runUnit p r ups
          let s := { x.s with mem := s.mem, poison := s.poison }.countRun p o
          let r1 := { r with thirdPan := some p }
          let s := s.putRec d r r1
          match o with
          | none => .next (s.decideUnit d r1 4 [])
          | some o =>
            if o.sigs.op ≠ r.sigs.op then .next (s.decideUnit d r1 4 [])
            else if o.sigs.res = r.sigs.res then .next (s.decideUnit d r1 1 r.ovf)
            else if o.sigs.res = r.repSigs.res then .next (s.putRec d r1 { r1 with phase := .writeBack })
            else .next (s.decideUnit d r1 3 [])

/-- WRITE_BACK (R513): the replay pan, else the third pan, else the first other candidate writes the winning result;
a RESSIG that differs makes the decision FAILED and the elements written unspecified. -/
def execWriteBack (d : DieIx) (i : Fin 16) (ups : List Upset) (s : State) : Res :=
  match s.int.recs[d][i.val]? with
  | none => .next s
  | some r =>
    if r.phase ≠ .writeBack then .next s
    else
      let cs := s.candidates r.pan
      let pick := [r.replayPan, r.thirdPan].find? (fun o => match o with
        | some p => cs.contains p
        | none => false)
      match (match pick with
        | some (some p) => some p
        | _ => cs.head?) with
      | none => .next (s.decideUnit d r 5 [])
      | some p =>
        if s.pan[p].passing then .next s
        else
          let (o, x) := s.runUnit p r ups
          match o with
          | none => .next (({ x.s with mem := s.mem, poison := s.poison }.countRun p none).decideUnit d r 4 [])
          | some o =>
            let s0 := x.s.countRun p (some o)
            let x := o.plans.foldl XCtx.put { x with s := s0.count (panReg p 0x470) o.ovfs }
            if x.fault.isSome then .next (({ s0 with mem := s.mem, poison := s.poison } : State).decideUnit d r 4 [])
            else if o.sigs.res ≠ r.repSigs.res then
              .next ((o.plans.foldl XCtx.scramble x).close.decideUnit d r 3 [])
            else .next (x.close.decideUnit d r 2 o.ovf)

/-- REPLAY_RECORD_FREED (R509): with a record free, a unit of the lowest held pan of the die takes it. -/
def execReplayRecordFreed (d : DieIx) (s : State) : Res :=
  if 16 ≤ s.int.recs[d].length then .next s
  else
    let pans : List ClusterIx := [Fin.ofNat 8 (2 * d.val), Fin.ofNat 8 (2 * d.val + 1)]
    match pans.find? (fun p => !s.pan[p].held.isEmpty) with
    | none => .next s
    | some p =>
      match s.pan[p].held with
      | [] => .next s
      | r :: l => .next (((s.onPan p (fun q => { q with held := l })).onRecs d (fun rs => rs ++ [r])).settleRecs d)

end Sys2Proof.Machine
end

