-- ==== Sys2Proof/Machine/Scalar.lean ====
section
/-! DEFINITION. The scalar instructions (R264 to R266). -/

namespace Sys2Proof.Machine

/-- A scalar operation on s[RA] and operand B. -/
def scalar2 (c : CoreIx) (rd ra : RegIx) (b : SOp) (f : BitVec 64 → BitVec 64 → BitVec 64) (s : State) : Res :=
  issueReg c (rd :: ra :: b.regs) [] (fun k => k.sput rd (f (k.sget ra) (b.value k))) s

/-- A shift of s[RA]. -/
def shift2 (c : CoreIx) (rd ra : RegIx) (b : ShOp) (f : BitVec 64 → Nat → BitVec 64) (s : State) : Res :=
  issueReg c (rd :: ra :: b.regs) [] (fun k => k.sput rd (f (k.sget ra) (b.amount k))) s

/-- A multiply or divide, which has REG form only. -/
def mul2 (c : CoreIx) (rd ra rb : RegIx) (f : BitVec 64 → BitVec 64 → BitVec 64) (s : State) : Res :=
  issueReg c [rd, ra, rb] [] (fun k => k.sput rd (f (k.sget ra) (k.sget rb))) s

def bitWord (b : Bool) : BitVec 64 := if b then 1 else 0

/-- Quotient of DIV (R265): toward zero; all ones for a zero divisor; −2^63 by −1 wraps. -/
def sdiv (a b : BitVec 64) : BitVec 64 :=
  if b = 0 then BitVec.allOnes 64 else BitVec.ofInt 64 (a.toInt.tdiv b.toInt)

/-- Remainder of REM (R264, R265): the sign of a; a for a zero divisor. -/
def srem (a b : BitVec 64) : BitVec 64 :=
  if b = 0 then a else BitVec.ofInt 64 (a.toInt.tmod b.toInt)

def udiv (a b : BitVec 64) : BitVec 64 := if b = 0 then BitVec.allOnes 64 else BitVec.ofNat 64 (a.toNat / b.toNat)

def urem (a b : BitVec 64) : BitVec 64 := if b = 0 then a else BitVec.ofNat 64 (a.toNat % b.toNat)

/-- High 64 bits of the signed product. -/
def mulhS (a b : BitVec 64) : BitVec 64 := BitVec.ofInt 64 (a.toInt * b.toInt / 2 ^ 64)

/-- High 64 bits of the unsigned product. -/
def mulhU (a b : BitVec 64) : BitVec 64 := BitVec.ofNat 64 (a.toNat * b.toNat / 2 ^ 64)

def execAdd (c : CoreIx) (rd ra : RegIx) (b : SOp) (s : State) : Res := scalar2 c rd ra b (· + ·) s
def execSub (c : CoreIx) (rd ra : RegIx) (b : SOp) (s : State) : Res := scalar2 c rd ra b (· - ·) s
def execAnd (c : CoreIx) (rd ra : RegIx) (b : SOp) (s : State) : Res := scalar2 c rd ra b (· &&& ·) s
def execOr (c : CoreIx) (rd ra : RegIx) (b : SOp) (s : State) : Res := scalar2 c rd ra b (· ||| ·) s
def execXor (c : CoreIx) (rd ra : RegIx) (b : SOp) (s : State) : Res := scalar2 c rd ra b (· ^^^ ·) s
def execSll (c : CoreIx) (rd ra : RegIx) (b : ShOp) (s : State) : Res := shift2 c rd ra b (· <<< ·) s
def execSrl (c : CoreIx) (rd ra : RegIx) (b : ShOp) (s : State) : Res := shift2 c rd ra b (· >>> ·) s
def execSra (c : CoreIx) (rd ra : RegIx) (b : ShOp) (s : State) : Res := shift2 c rd ra b BitVec.sshiftRight s
def execSlt (c : CoreIx) (rd ra : RegIx) (b : SOp) (s : State) : Res :=
  scalar2 c rd ra b (fun x y => bitWord (x.slt y)) s
def execSltu (c : CoreIx) (rd ra : RegIx) (b : SOp) (s : State) : Res :=
  scalar2 c rd ra b (fun x y => bitWord (x.ult y)) s
def execMin (c : CoreIx) (rd ra : RegIx) (b : SOp) (s : State) : Res :=
  scalar2 c rd ra b (fun x y => if x.slt y then x else y) s
def execMax (c : CoreIx) (rd ra : RegIx) (b : SOp) (s : State) : Res :=
  scalar2 c rd ra b (fun x y => if x.slt y then y else x) s
def execMinu (c : CoreIx) (rd ra : RegIx) (b : SOp) (s : State) : Res :=
  scalar2 c rd ra b (fun x y => if x.ult y then x else y) s
def execMaxu (c : CoreIx) (rd ra : RegIx) (b : SOp) (s : State) : Res :=
  scalar2 c rd ra b (fun x y => if x.ult y then y else x) s
def execMul (c : CoreIx) (rd ra rb : RegIx) (s : State) : Res := mul2 c rd ra rb (· * ·) s
def execMulh (c : CoreIx) (rd ra rb : RegIx) (s : State) : Res := mul2 c rd ra rb mulhS s
def execMulhu (c : CoreIx) (rd ra rb : RegIx) (s : State) : Res := mul2 c rd ra rb mulhU s
def execDiv (c : CoreIx) (rd ra rb : RegIx) (s : State) : Res := mul2 c rd ra rb sdiv s
def execDivu (c : CoreIx) (rd ra rb : RegIx) (s : State) : Res := mul2 c rd ra rb udiv s
def execRem (c : CoreIx) (rd ra rb : RegIx) (s : State) : Res := mul2 c rd ra rb srem s
def execRemu (c : CoreIx) (rd ra rb : RegIx) (s : State) : Res := mul2 c rd ra rb urem s

/-- LI (R266): the immediate sign-extended from 48 bits. -/
def execLi (c : CoreIx) (rd : RegIx) (v : BitVec 48) (s : State) : Res :=
  issueReg c [rd] [] (fun k => k.sput rd (v.signExtend 64)) s

/-- LIH (R266): bits [63:48] replaced. -/
def execLih (c : CoreIx) (rd : RegIx) (v : BitVec 16) (s : State) : Res :=
  issueReg c [rd] [] (fun k => k.sput rd (setBits (k.sget rd) 63 48 v.toNat)) s

end Sys2Proof.Machine
end

