-- ==== Sys2Proof/Machine/TimeDist.lean ====
section
/-! DEFINITION. TIME between modules (R35 to R38, R493 to R495), and the balancing of caps (R550). -/

namespace Sys2Proof.Machine

/-! TIME messages. -/

/-- The payload of a TIME segment (R493). -/
def timePayload (master seq hops : Nat) (tide : BitVec 64) (origin corr : Nat) : List Byte :=
  leBytes 2 master ++ leBytes 2 seq ++ leBytes 1 hops ++ [0, 0, 0] ++ leBytes 8 tide.toNat ++ leBytes 4 origin ++
    leBytes 4 corr ++ List.replicate 8 0

/-- TIME goes out on a port that is UP, to the device at its other end. -/
def State.timeOn (s : State) (p : PortIx) (data : List Byte) : State :=
  if s.portState p = 3 then
    s.sendOn p (s.plainSeg 6 (p.val / 16) (s.fld (linkReg p 0) 63 48) 0 0 0 data)
  else s

/-- The ports of TU_TIME_CHILD. -/
def State.timeChildren (s : State) : List PortIx :=
  (List.finRange 64).filter (fun p => (s.reg (optBase 0 + 0x18)).getLsbD p.val)

/-- TIME_SEND (R494): the time master sends TIME at an edge whose number is a multiple of 64. `origin` is each port's
transmit stamp after that edge, in 1/16 ns. -/
def execTimeSend (origin : Vector (BitVec 32) 64) (s : State) : Res :=
  .next (if !s.awake ∨ s.fld 0x1020 1 0 ≠ 1 ∨ s.tide.num.toNat % 64 ≠ 0 then s
    else
      let seq := s.link.timeSeq
      let s : State := { s with link := { s.link with timeSeq := seq + 1 } }
      s.timeChildren.foldl (fun (s : State) p =>
        s.timeOn p (timePayload s.device seq.toNat 0 s.tide.num origin[p].toNat 0)) s)

/-- A time in 1/16 ns rounded to the nearest ns, halves away from zero, within 32 bits (R495). -/
def roundNs (e : Int) : BitVec 32 :=
  let m : Int := (e.natAbs + 8) / 16
  BitVec.ofInt 32 (max (-(2 ^ 31)) (min (2 ^ 31 - 1) (if e < 0 then -m else m)))

/-- ALIGNED. -/
def State.setAligned (s : State) (b : Bool) : State := s.setFld 0x1020 6 6 (b2n b)

/-- The step that a measured offset asks for (R36): the whole tides k and the phase φ. The next tide takes φ, and its end,
two edges from here, takes the number that the master gives it. -/
def State.stepTide (s : State) (err : Int) : State :=
  let period : Int := 16000 * s.periodUs
  let k := (err + period / 2) / period
  let phi := err - k * period
  { s with tide := { s.tide with
      slew := 0
      step := some (phi, BitVec.ofInt 64 (s.tide.num.toNat + 2 + k), roundNs err) } }

/-- A follower's measurement (R35, R36, R495), in 1/16 ns. -/
def State.timeMeasure (s : State) (err : Int) : State :=
  let s := s.setReg 0x1028 ((roundNs err).setWidth 64)
  let far := decide (err < -400 ∨ 400 < err)
  let s := if far then
      let s : State := { s.setAligned false with tide := { s.tide with alignRun := 0 } }
      if s.tide.excursion then s
      else
        ((({ s with tide := { s.tide with excursion := true } } : State).count 0x1200 1).raiseMod 0 0x103
          ((roundNs err).setWidth 64))
    else
      let run := s.tide.alignRun + 1
      let s : State := { s with tide := { s.tide with alignRun := run, excursion := false } }
      if 16 ≤ run then s.setAligned true else s
  if err < -16000 ∨ 16000 < err then s.stepTide err
  else { s with tide := { s.tide with slew := err } }

/-- The arrival after the module's own edge `t`, in 1/16 ns: `ago` before the moment of the command. -/
def State.arrival (s : State) (t : BitVec 64) (ago : BitVec 32) : Int :=
  16 * (((s.tide.num.toNat : Int) - t.toNat) * (1000 * s.periodUs) + s.tide.ns) - ago.toNat

/-- Starts that wait for ALIGNED go on when it reads 1. -/
def State.alignedStarts (s : State) : State :=
  ((List.finRange 4).foldl (fun (s : State) p => s.jobProceed p) s).runQueue

/-- SEG_TIME (R494, R495): `ago` is how long before the command the first flit arrived, `resid` the module's residence
time towards each child port. -/
def execSegTime (p : PortIx) (ago : BitVec 32) (resid : Vector (BitVec 32) 64) (s : State) : Res :=
  s.take p 6 (fun s g u =>
    let s := s.consume p 2 u
    let parent := s.reg (optBase 0 + 0x10)
    if g.data.length ≠ 32 then s.dropSeg (p.val / 16) p.val g 1
    else if s.fld 0x1020 1 0 ≠ 2 ∨ !parent.getLsbD 6 ∨ bitsOf parent 5 0 ≠ p.val ∨ recNat g.data 0 2 ≠ s.fld 0x1020 63 48
    then s
    else
      let s := s.count (optBase (p.val / 16) + 0x420) 1
      let tide := BitVec.ofNat 64 (recNat g.data 8 8)
      let origin := recNat g.data 16 4
      let delay := s.fld (linkReg p 0x10) 31 0
      let corr := recNat g.data 20 4
      let err : Int := (origin : Int) + corr + delay - s.arrival tide ago
      let s := s.timeChildren.foldl (fun (s : State) q =>
        s.timeOn q (timePayload (recNat g.data 0 2) (recNat g.data 2 2) (recNat g.data 4 1 + 1) tide origin
          (corr + delay + resid[q].toNat))) s
      (s.timeMeasure err).alignedStarts)

/-! Balancing (R550). -/

/-- Insertion by ascending number. -/
def insNat (x : Nat) : List Nat → List Nat
  | [] => [x]
  | y :: l => if x < y then x :: y :: l else y :: insNat x l

/-- The median; of an even number, the lower of the two in the middle. -/
def lowerMedian (l : List Nat) : Nat :=
  (((l.foldl (fun a x => insNat x a) [])[(l.length - 1) / 2]?).getD 0)

/-- What a donor gives, in 25 W steps: at most 100 W, and not below its floor. A refused reduction gives nothing. -/
def donation (m : Nat) (b : BalPart) : Nat :=
  if m < b.wait.toNat ∧ !b.refused then min 4 (b.cap.toNat - b.floor.toNat) else 0

/-- What a module with less than the median wait receives of an equal share. -/
def receives (m share : Nat) (b : BalPart) : Nat :=
  if b.wait.toNat < m then min share (b.cls.toNat - b.cap.toNat) else 0

/-- The remainder goes back to the donors in ascending device id; what comes back to device `dev`. -/
def returned (m : Nat) (dev : Nat) : List BalPart → Nat → Nat
  | [], _ => 0
  | b :: l, rest =>
    let back := min rest (donation m b)
    if b.dev.toNat = dev then back else returned m dev l (rest - back)

/-- Parts in ascending device id. -/
def sortParts (l : List BalPart) : List BalPart :=
  l.foldl (fun (a : List BalPart) b =>
    a.takeWhile (fun c => decide (c.dev.toNat ≤ b.dev.toNat)) ++ b :: a.dropWhile (fun c => decide (c.dev.toNat ≤ b.dev.toNat))) []

/-- The change of a device's cap in a round, in 25 W steps. -/
def balance (parts : List BalPart) (dev : Nat) : Int :=
  let l := sortParts parts
  let m := lowerMedian (l.map (fun b => b.wait.toNat))
  let pool := (l.map (donation m)).foldl (· + ·) 0
  let n := (l.filter (fun b => decide (b.wait.toNat < m))).length
  let share := if n = 0 then 0 else pool / n
  let used := (l.map (receives m share)).foldl (· + ·) 0
  match l.find? (fun b => b.dev.toNat = dev) with
  | none => 0
  | some b => (receives m share b : Int) - donation m b + returned m dev l (pool - used)

/-- BALANCE_ROUND: the round that the broker decides for edge T: this module's reduction takes effect at T, an increase at
T + 64. -/
def execBalanceRound (p : PartIx) (parts : List BalPart) (t : BitVec 64) (s : State) : Res :=
  .next (match s.job[p] with
    | none => s
    | some j =>
      if !s.serving ∨ !j.man.balance ∨ t.toNat < s.tide.num.toNat + 200 then s
      else
        let s := s.onMgmt (fun m => { m with brokerTide := m.brokerTide.set p s.tide.num })
        let d := balance parts s.device
        let cap : Int := s.fld 0x100010 8 0
        let at_ := if d < 0 then t else t + 64
        if d = 0 then s else s.capSchedWrite (pack [((cap + d).toNat % 512, 0), (low 48 at_.toNat, 16)]))

/-- BROKER_TAKEOVER: after 1000 tides without a message of the broker, the next lowest device id takes its place. -/
def execBrokerTakeover (p : PartIx) (s : State) : Res :=
  .next (match s.job[p] with
    | none => s
    | some j =>
      if !s.serving ∨ !j.man.balance ∨ s.tide.num.toNat < s.mgmt.brokerTide[p].toNat + 1000 then s
      else s.onMgmt (fun m => { m with
        broker := m.broker.set p ((m.broker[p] + 1) % max 1 j.devs.length)
        brokerTide := m.brokerTide.set p s.tide.num }))

end Sys2Proof.Machine
end

