-- ==== Sys2Proof/Machine/Vector.lean ====
section
/-! DEFINITION. Vector, predicate and special-function instructions (R277 to R283). Each has its effect when it
issues: its buffer is empty again before the next command, and its result is in its register. -/

namespace Sys2Proof.Machine

/-- An operation on lanes of VA. -/
def lanes1 (c : CoreIx) (vd va : RegIx) (p : PredIx) (t : VTy) (f : Nat → Nat × Flags) (s : State) : Res :=
  issueReg c [] [vd, va] (fun k => k.mapLanes vd p t (fun i => f (laneGet t.width (k.vget va) i))) s

/-- An operation on lanes of VA and operand B. -/
def lanes2 (c : CoreIx) (vd va : RegIx) (b : VB) (p : PredIx) (t : VTy) (f : Nat → Nat → Nat × Flags) (s : State) :
    Res :=
  issueReg c b.sregs (vd :: va :: b.vregs)
    (fun k => k.mapLanes vd p t (fun i => f (laneGet t.width (k.vget va) i) (b.lane k t.width i))) s

/-- An operation on lanes of VA, operand B and VC. -/
def lanes3 (c : CoreIx) (vd va : RegIx) (b : VB) (vc : RegIx) (p : PredIx) (t : VTy)
    (f : Nat → Nat → Nat → Nat × Flags) (s : State) : Res :=
  issueReg c b.sregs (vd :: va :: vc :: b.vregs)
    (fun k => k.mapLanes vd p t (fun i =>
      f (laneGet t.width (k.vget va) i) (b.lane k t.width i) (laneGet t.width (k.vget vc) i))) s

def execVadd (c : CoreIx) (vd va : RegIx) (b : VB) (p : PredIx) (t : FTy) (s : State) : Res :=
  lanes2 c vd va b p t.ty t.layout.addF s
def execVsub (c : CoreIx) (vd va : RegIx) (b : VB) (p : PredIx) (t : FTy) (s : State) : Res :=
  lanes2 c vd va b p t.ty t.layout.subF s
def execVmul (c : CoreIx) (vd va : RegIx) (b : VB) (p : PredIx) (t : FTy) (s : State) : Res :=
  lanes2 c vd va b p t.ty t.layout.mulF s
def execVfma (c : CoreIx) (vd va : RegIx) (b : VB) (vc : RegIx) (p : PredIx) (t : FTy) (s : State) : Res :=
  lanes3 c vd va b vc p t.ty (t.layout.fmaF false false) s
def execVfms (c : CoreIx) (vd va : RegIx) (b : VB) (vc : RegIx) (p : PredIx) (t : FTy) (s : State) : Res :=
  lanes3 c vd va b vc p t.ty (t.layout.fmaF false true) s
def execVfnma (c : CoreIx) (vd va : RegIx) (b : VB) (vc : RegIx) (p : PredIx) (t : FTy) (s : State) : Res :=
  lanes3 c vd va b vc p t.ty (t.layout.fmaF true false) s
def execVmin (c : CoreIx) (vd va : RegIx) (b : VB) (p : PredIx) (t : FTy) (s : State) : Res :=
  lanes2 c vd va b p t.ty (t.layout.minMaxF false) s
def execVmax (c : CoreIx) (vd va : RegIx) (b : VB) (p : PredIx) (t : FTy) (s : State) : Res :=
  lanes2 c vd va b p t.ty (t.layout.minMaxF true) s
def execVabs (c : CoreIx) (vd va : RegIx) (p : PredIx) (t : FTy) (s : State) : Res :=
  lanes1 c vd va p t.ty t.layout.absF s
def execVneg (c : CoreIx) (vd va : RegIx) (p : PredIx) (t : FTy) (s : State) : Res :=
  lanes1 c vd va p t.ty t.layout.negF s
def execVdiv (c : CoreIx) (vd va : RegIx) (b : VB) (p : PredIx) (t : FTy) (s : State) : Res :=
  lanes2 c vd va b p t.ty t.layout.divF s
def execVsqrt (c : CoreIx) (vd va : RegIx) (p : PredIx) (t : FTy) (s : State) : Res :=
  lanes1 c vd va p t.ty t.layout.sqrtF s

/-! Integer functions (R279). -/

def execVaddInt (c : CoreIx) (vd va : RegIx) (b : VB) (p : PredIx) (t : ITy) (s : State) : Res :=
  lanes2 c vd va b p t.ty (fun x y => noFlags ((x + y) % 2 ^ t.ty.width)) s
def execVsubInt (c : CoreIx) (vd va : RegIx) (b : VB) (p : PredIx) (t : ITy) (s : State) : Res :=
  lanes2 c vd va b p t.ty (fun x y => noFlags ((x + 2 ^ t.ty.width - y) % 2 ^ t.ty.width)) s
def execVmulInt (c : CoreIx) (vd va : RegIx) (b : VB) (p : PredIx) (t : ITy) (s : State) : Res :=
  lanes2 c vd va b p t.ty (fun x y => noFlags (x * y % 2 ^ t.ty.width)) s
def execVminInt (c : CoreIx) (vd va : RegIx) (b : VB) (p : PredIx) (t : ITy) (s : State) : Res :=
  lanes2 c vd va b p t.ty (fun x y => noFlags (intMinMax t.ty.width false true x y)) s
def execVmaxInt (c : CoreIx) (vd va : RegIx) (b : VB) (p : PredIx) (t : ITy) (s : State) : Res :=
  lanes2 c vd va b p t.ty (fun x y => noFlags (intMinMax t.ty.width true true x y)) s
def execVminu (c : CoreIx) (vd va : RegIx) (b : VB) (p : PredIx) (t : ITy) (s : State) : Res :=
  lanes2 c vd va b p t.ty (fun x y => noFlags (intMinMax t.ty.width false false x y)) s
def execVmaxu (c : CoreIx) (vd va : RegIx) (b : VB) (p : PredIx) (t : ITy) (s : State) : Res :=
  lanes2 c vd va b p t.ty (fun x y => noFlags (intMinMax t.ty.width true false x y)) s
def execVand (c : CoreIx) (vd va : RegIx) (b : VB) (p : PredIx) (t : ITy) (s : State) : Res :=
  lanes2 c vd va b p t.ty (fun x y => noFlags (Nat.land x y)) s
def execVor (c : CoreIx) (vd va : RegIx) (b : VB) (p : PredIx) (t : ITy) (s : State) : Res :=
  lanes2 c vd va b p t.ty (fun x y => noFlags (Nat.lor x y)) s
def execVxor (c : CoreIx) (vd va : RegIx) (b : VB) (p : PredIx) (t : ITy) (s : State) : Res :=
  lanes2 c vd va b p t.ty (fun x y => noFlags (Nat.xor x y)) s
def execVsll (c : CoreIx) (vd va : RegIx) (b : VB) (p : PredIx) (t : ITy) (s : State) : Res :=
  lanes2 c vd va b p t.ty (fun x y => noFlags (intSll t.ty.width x y)) s
def execVsrl (c : CoreIx) (vd va : RegIx) (b : VB) (p : PredIx) (t : ITy) (s : State) : Res :=
  lanes2 c vd va b p t.ty (fun x y => noFlags (intSrl t.ty.width x y)) s
def execVsra (c : CoreIx) (vd va : RegIx) (b : VB) (p : PredIx) (t : ITy) (s : State) : Res :=
  lanes2 c vd va b p t.ty (fun x y => noFlags (intSra t.ty.width x y)) s

/-! Comparison, conversion, permutes and reductions (R280 to R282). -/

/-- VCMP (R281): enabled bits written, disabled bits kept, bits at or above the lane count cleared. -/
def CoreSt.compare (k : CoreSt) (va : RegIx) (b : VB) (pd p : PredIx) (sel : CmpSel) : CoreSt :=
  let w := sel.ty.width
  let g := k.pget p
  let old := k.pget pd
  let bit (i : Nat) : Bool :=
    if predBit g i then sel.holds (laneGet w (k.vget va) i) (b.lane k w i) else predBit old i
  k.pput pd (BitVec.ofNat 256 (sel.ty.indices.foldl (fun a i => a + b2n (bit i) * 2 ^ i) 0))

def execVcmp (c : CoreIx) (pd : PredIx) (va : RegIx) (b : VB) (p : PredIx) (sel : CmpSel) (s : State) : Res :=
  issueReg c b.sregs (va :: b.vregs) (fun k => k.compare va b pd p sel) s

/-- VCVT's lanes (R280): lane `i` pairs wider element `i` with narrower element `PART·n + i`. -/
def CoreSt.convertLanes (k : CoreSt) (vd va : RegIx) (p : PredIx) (t t2 : VTy) (part : Nat) : CoreSt :=
  let n := 2048 / max t.width t2.width
  let g := k.pget p
  let r := (List.range n).foldl (fun (acc : BitVec 2048 × Flags) i =>
      let si := if t.width < t2.width then part * n + i else i
      let di := if t2.width < t.width then part * n + i else i
      if predBit g di then
        let (x, fl) := convert t t2 (laneGet t.width (k.vget va) si)
        (laneSet t2.width acc.1 di x, acc.2.or fl)
      else acc) (k.vget vd, Flags.none)
  (k.vput vd r.1).orFlags r.2

/-- The word of a VCVT, for TRAP_INFO. -/
def vcvtWord (vd va : RegIx) (p : PredIx) (t t2 : VTy) (part : BitVec 2) : BitVec 64 :=
  pack [(0x23, 57), (vd.val, 52), (va.val, 47), (p.val, 34), (t.code, 31), (t2.code, 16), (part.toNat, 14)]

/-- VCVT: PART must be below the ratio of the widths, else cause 0x01 (R280). -/
def execVcvt (c : CoreIx) (vd va : RegIx) (p : PredIx) (t t2 : VTy) (part : BitVec 2) (s : State) : Res :=
  issueWhen c [] [vd, va] (fun s =>
    if part.toNat < max t.width t2.width / min t.width t2.width then
      s.retire c (fun k => k.convertLanes vd va p t t2 part.toNat)
    else s.precise c 1 (vcvtWord vd va p t t2 part)) s

def execVbcast (c : CoreIx) (vd sr : RegIx) (p : PredIx) (t : ATy) (s : State) : Res :=
  issueReg c [sr] [vd] (fun k => k.mapLanes vd p t.ty (fun _ => noFlags ((k.sget sr).toNat % 2 ^ t.ty.width))) s

def execVext (c : CoreIx) (rd va sr : RegIx) (t : ATy) (s : State) : Res :=
  issueReg c [rd, sr] [va] (fun k =>
    k.sput rd (BitVec.ofNat 64 (laneGet t.ty.width (k.vget va) ((k.sget sr).toNat % t.ty.lanes)))) s

def execVperm (c : CoreIx) (vd va : RegIx) (b : VB) (p : PredIx) (t : ATy) (s : State) : Res :=
  issueReg c b.sregs (vd :: va :: b.vregs) (fun k => k.mapLanes vd p t.ty (fun i =>
    noFlags (laneGet t.ty.width (k.vget va) (b.lane k t.ty.width i % t.ty.lanes)))) s

/-- VSLIDEUP: element `i` takes element `i − s[SR]`; vacated elements are zero. -/
def execVslideup (c : CoreIx) (vd va sr : RegIx) (p : PredIx) (t : ATy) (s : State) : Res :=
  issueReg c [sr] [vd, va] (fun k => k.mapLanes vd p t.ty (fun i =>
    let n := (k.sget sr).toNat
    noFlags (if n ≤ i then laneGet t.ty.width (k.vget va) (i - n) else 0))) s

/-- VSLIDEDN: element `i` takes element `i + s[SR]`. -/
def execVslidedn (c : CoreIx) (vd va sr : RegIx) (p : PredIx) (t : ATy) (s : State) : Res :=
  issueReg c [sr] [vd, va] (fun k => k.mapLanes vd p t.ty (fun i =>
    let n := (k.sget sr).toNat
    noFlags (if i + n < t.ty.lanes then laneGet t.ty.width (k.vget va) (i + n) else 0))) s

/-- A reduction of the enabled elements in ascending order: the first through `g`, each later one combined by `f`;
`e` with none (R282). -/
def CoreSt.reduce (k : CoreSt) (vd va : RegIx) (p : PredIx) (t : VTy) (e : Nat) (g : Nat → Nat × Flags)
    (f : Nat → Nat → Nat × Flags) : CoreSt :=
  let r : Nat × Flags :=
    match k.enabled p t with
    | [] => noFlags e
    | i :: l => l.foldl (fun (acc : Nat × Flags) j =>
        let (x, fl) := f acc.1 (laneGet t.width (k.vget va) j)
        (x, acc.2.or fl)) (g (laneGet t.width (k.vget va) i))
  (k.vput vd (lane0 r.1)).orFlags r.2

/-- A code with a NaN made canonical. -/
def FFmt.canon (f : FFmt) (c : Nat) : Nat := if (f.decode c).isNan then f.nan else c

def execVredAdd (c : CoreIx) (vd va : RegIx) (p : PredIx) (t : ATy) (s : State) : Res :=
  issueReg c [] [vd, va] (fun k =>
    match t with
    | .f f => k.reduce vd va p t.ty 0 (fun x => noFlags (f.layout.canon x)) f.layout.addF
    | .i _ => k.reduce vd va p t.ty 0 noFlags (fun x y => noFlags ((x + y) % 2 ^ t.ty.width))) s

def execVredMax (c : CoreIx) (vd va : RegIx) (p : PredIx) (t : ATy) (s : State) : Res :=
  issueReg c [] [vd, va] (fun k =>
    match t with
    | .f f => k.reduce vd va p t.ty (f.layout.infCode + 2 ^ (t.ty.width - 1)) (fun x => f.layout.minMaxF true x x)
        (f.layout.minMaxF true)
    | .i _ => k.reduce vd va p t.ty (2 ^ (t.ty.width - 1)) noFlags
        (fun x y => noFlags (intMinMax t.ty.width true true x y))) s

def execVredMin (c : CoreIx) (vd va : RegIx) (p : PredIx) (t : ATy) (s : State) : Res :=
  issueReg c [] [vd, va] (fun k =>
    match t with
    | .f f => k.reduce vd va p t.ty f.layout.infCode (fun x => f.layout.minMaxF false x x) (f.layout.minMaxF false)
    | .i _ => k.reduce vd va p t.ty (2 ^ (t.ty.width - 1) - 1) noFlags
        (fun x y => noFlags (intMinMax t.ty.width false true x y))) s

def execViota (c : CoreIx) (vd : RegIx) (p : PredIx) (t : ITy) (s : State) : Res :=
  issueReg c [] [vd] (fun k => k.mapLanes vd p t.ty (fun i => noFlags i)) s

/-! Predicate functions (R282). -/

/-- A predicate function of PA and PB. -/
def pred2 (c : CoreIx) (pd pa pb : PredIx) (f : BitVec 256 → BitVec 256 → BitVec 256) (s : State) : Res :=
  issueReg c [] [] (fun k => k.pput pd (f (k.pget pa) (k.pget pb))) s

def execPand (c : CoreIx) (pd pa pb : PredIx) (s : State) : Res := pred2 c pd pa pb (· &&& ·) s
def execPor (c : CoreIx) (pd pa pb : PredIx) (s : State) : Res := pred2 c pd pa pb (· ||| ·) s
def execPxor (c : CoreIx) (pd pa pb : PredIx) (s : State) : Res := pred2 c pd pa pb (· ^^^ ·) s
def execPandn (c : CoreIx) (pd pa pb : PredIx) (s : State) : Res := pred2 c pd pa pb (fun a b => a &&& ~~~b) s
def execPnot (c : CoreIx) (pd pa : PredIx) (s : State) : Res := pred2 c pd pa pa (fun a _ => ~~~a) s
def execPset (c : CoreIx) (pd : PredIx) (s : State) : Res := pred2 c pd 0 0 (fun _ _ => BitVec.allOnes 256) s
def execPclr (c : CoreIx) (pd : PredIx) (s : State) : Res := pred2 c pd 0 0 (fun _ _ => 0) s

def execPcnt (c : CoreIx) (rd : RegIx) (pa : PredIx) (s : State) : Res :=
  issueReg c [rd] [] (fun k => k.sput rd (BitVec.ofNat 64 (popcount 256 (k.pget pa).toNat))) s

/-- PFIRST: the index of the lowest set bit, or −1. -/
def execPfirst (c : CoreIx) (rd : RegIx) (pa : PredIx) (s : State) : Res :=
  issueReg c [rd] [] (fun k => k.sput rd
    (match (List.range 256).find? (predBit (k.pget pa)) with
      | some i => BitVec.ofNat 64 i
      | none => BitVec.allOnes 64)) s

/-! Special functions (R283). -/

def execVsfExp (c : CoreIx) (vd va : RegIx) (p : PredIx) (s : State) : Res := lanes1 c vd va p .f32 (sfLane 0) s
def execVsfExp2 (c : CoreIx) (vd va : RegIx) (p : PredIx) (s : State) : Res := lanes1 c vd va p .f32 (sfLane 1) s
def execVsfLog (c : CoreIx) (vd va : RegIx) (p : PredIx) (s : State) : Res := lanes1 c vd va p .f32 (sfLane 2) s
def execVsfLog2 (c : CoreIx) (vd va : RegIx) (p : PredIx) (s : State) : Res := lanes1 c vd va p .f32 (sfLane 3) s
def execVsfRecip (c : CoreIx) (vd va : RegIx) (p : PredIx) (s : State) : Res := lanes1 c vd va p .f32 (sfLane 4) s
def execVsfSqrt (c : CoreIx) (vd va : RegIx) (p : PredIx) (s : State) : Res := lanes1 c vd va p .f32 (sfLane 5) s
def execVsfRsqrt (c : CoreIx) (vd va : RegIx) (p : PredIx) (s : State) : Res := lanes1 c vd va p .f32 (sfLane 6) s
def execVsfSin (c : CoreIx) (vd va : RegIx) (p : PredIx) (s : State) : Res := lanes1 c vd va p .f32 (sfLane 7) s
def execVsfCos (c : CoreIx) (vd va : RegIx) (p : PredIx) (s : State) : Res := lanes1 c vd va p .f32 (sfLane 8) s
def execVsfTanh (c : CoreIx) (vd va : RegIx) (p : PredIx) (s : State) : Res := lanes1 c vd va p .f32 (sfLane 9) s
def execVsfSigmoid (c : CoreIx) (vd va : RegIx) (p : PredIx) (s : State) : Res := lanes1 c vd va p .f32 (sfLane 10) s
def execVsfErf (c : CoreIx) (vd va : RegIx) (p : PredIx) (s : State) : Res := lanes1 c vd va p .f32 (sfLane 11) s

end Sys2Proof.Machine
end

