-- ==== Sys2Proof/Machine/Words.lean ====
section
/-! DEFINITION. Which 64-bit words are assigned (R260 to R297), and the trap of one that is not (R261, R262). -/

namespace Sys2Proof.Machine

/-- Bits [hi:lo] of a word are zero. -/
def zeroIn (w : BitVec 64) (hi lo : Nat) : Bool := bitsOf w hi lo == 0

/-- REG, IMM and LI forms (R264 to R266). -/
def scalarWord (w : BitVec 64) : Nat → Bool
  | 0x01 =>
    let fn := bitsOf w 41 36
    (decide (fn ≤ 0x12 ∧ fn ≠ 0x0E ∧ fn ≠ 0x0F) || decide (0x14 ≤ fn ∧ fn ≤ 0x17)) && zeroIn w 35 0
  | 0x02 =>
    let fn := bitsOf w 46 41
    decide (fn ≤ 0x0D) && zeroIn w 40 32 && (!(decide (5 ≤ fn ∧ fn ≤ 7)) || zeroIn w 31 6)
  | 0x03 => zeroIn w 50 48 && (!w.getLsbD 51 || zeroIn w 47 16)
  | _ => false

/-- Branches, jumps and TRET (R267, R269). -/
def branchWord (w : BitVec 64) : Nat → Bool
  | 0x08 => decide (bitsOf w 56 54 ≤ 5) && zeroIn w 53 52 && zeroIn w 41 32
  | 0x09 => zeroIn w 51 32
  | 0x0A =>
    zeroIn w 40 32 &&
      (match bitsOf w 46 41 with
        | 0 => true
        | 1 => zeroIn w 56 47 && zeroIn w 31 0
        | _ => false)
  | _ => false

/-- Loads, stores, handles and atomics (R270 to R276, R284). -/
def memWord (w : BitVec 64) : Nat → Bool
  | 0x10 => zeroIn w 46 44 && zeroIn w 41 41 && zeroIn w 38 32
  | 0x11 => zeroIn w 46 44 && zeroIn w 41 41 && zeroIn w 39 32
  | 0x12 => zeroIn w 39 32
  | 0x13 => zeroIn w 39 32
  | 0x14 => zeroIn w 47 42 && zeroIn w 35 0
  | 0x15 => zeroIn w 40 0
  | 0x16 => zeroIn w 40 0
  | 0x17 =>
    zeroIn w 47 41 && zeroIn w 33 0 &&
      (match bitsOf w 35 34 with
        | 0 => zeroIn w 40 36
        | 3 => false
        | _ => zeroIn w 56 52)
  | 0x30 =>
    decide (bitsOf w 36 34 ≤ 4) && decide (bitsOf w 33 32 ≤ 2) && zeroIn w 31 0 &&
      (bitsOf w 36 34 == 4 || zeroIn w 41 37)
  | _ => false

/-- Width of a type code (R277). -/
def codeWidth (t : Nat) : Nat :=
  match t with
  | 0 => 32
  | 3 => 32
  | 1 => 16
  | 2 => 16
  | 4 => 16
  | _ => 8

/-- Operand B (R277): a vector, or a broadcast scalar. -/
def operandB (w : BitVec 64) : Bool := if w.getLsbD 19 then zeroIn w 46 42 else zeroIn w 24 20

/-- VEC form (R277 to R283). -/
def vecWord (w : BitVec 64) (opc : Nat) : Bool :=
  let t := bitsOf w 33 31
  let fn := bitsOf w 30 25
  let noVc := zeroIn w 41 37
  let noB := zeroIn w 46 42 && zeroIn w 24 19
  let noT2 := zeroIn w 18 14
  zeroIn w 13 0 &&
    (match opc with
      | 0x20 =>
        decide (fn ≤ 11) && decide (t ≤ 2) && noT2 && (decide (3 ≤ fn ∧ fn ≤ 5) || noVc) &&
          (if fn = 8 ∨ fn = 9 ∨ fn = 11 then noB else operandB w)
      | 0x21 => decide (fn ≤ 12) && decide (3 ≤ t ∧ t ≤ 5) && noT2 && noVc && operandB w
      | 0x22 =>
        decide (fn ≤ 8) && decide (t ≤ 5) && noT2 && noVc && operandB w && zeroIn w 56 55 &&
          (if fn = 6 then decide (t ≤ 2) else if 7 ≤ fn then decide (3 ≤ t) else true)
      | 0x23 =>
        let a := codeWidth t
        let b := codeWidth (bitsOf w 18 16)
        fn == 0 && noVc && noB && decide (bitsOf w 15 14 < max a b / min a b)
      | 0x24 =>
        noVc && noT2 && decide (t ≤ 5) &&
          (match fn with
            | 0 => zeroIn w 51 42 && zeroIn w 19 19
            | 1 => zeroIn w 46 42 && zeroIn w 19 19 && zeroIn w 36 34
            | 2 => operandB w
            | 3 => zeroIn w 46 42 && zeroIn w 19 19
            | 4 => zeroIn w 46 42 && zeroIn w 19 19
            | 5 => noB
            | 6 => noB
            | 7 => noB
            | 8 => noB && zeroIn w 51 47 && decide (3 ≤ t)
            | _ => false)
      | 0x25 =>
        decide (fn ≤ 8) && noVc && noT2 && zeroIn w 36 31 && zeroIn w 24 19 && zeroIn w 51 50 && zeroIn w 46 45 &&
          (decide (7 ≤ fn) || zeroIn w 56 55) && (decide (fn ≤ 3) || zeroIn w 46 42) &&
          (!(decide (fn = 5 ∨ fn = 6)) || zeroIn w 51 47)
      | 0x28 => decide (fn ≤ 11) && t == 0 && noVc && noB && noT2
      | _ => false)

/-- Synchronisation and system words (R285 to R291). -/
def sysWord (w : BitVec 64) : Nat → Bool
  | 0x38 =>
    let k0 := zeroIn w 51 49
    let tgt0 := zeroIn w 48 46
    let rd0 := zeroIn w 45 41
    let ra0 := zeroIn w 40 36
    zeroIn w 35 32 &&
      (match bitsOf w 56 52 with
        | 0 => zeroIn w 51 0
        | 1 => zeroIn w 51 0
        | 2 => zeroIn w 51 0
        | 3 =>
          rd0 && ra0 && zeroIn w 31 1 &&
            (if w.getLsbD 0 then tgt0 else k0 && decide (3 ≤ bitsOf w 48 46 ∧ bitsOf w 48 46 ≤ 6))
        | 4 => k0 && tgt0 && (if w.getLsbD 0 then ra0 && !zeroIn w 31 1 else zeroIn w 31 1)
        | 5 => zeroIn w 51 36 && zeroIn w 31 4
        | 6 => zeroIn w 48 0
        | 7 => tgt0 && ra0 && zeroIn w 31 0
        | _ => false)
  | 0x3C =>
    let rd0 := zeroIn w 56 52
    let ra0 := zeroIn w 51 47
    let rb0 := zeroIn w 46 42
    zeroIn w 35 32 &&
      (match bitsOf w 41 36 with
        | 0 => ra0 && rb0 && zeroIn w 31 12
        | 1 => rd0 && rb0 && zeroIn w 31 12
        | 2 => rb0 && zeroIn w 31 0
        | 3 => rd0 && zeroIn w 31 0
        | 4 => zeroIn w 56 42
        | 5 => zeroIn w 56 42 && zeroIn w 31 0
        | _ => false)
  | _ => false

/-- UNIT form (R292 to R297). -/
def unitWord (w : BitVec 64) (opc : Nat) : Bool :=
  let fn := bitsOf w 56 52
  let slot (hi lo : Nat) : Bool := decide (bitsOf w hi lo ≤ 4)
  let noBase := zeroIn w 48 30
  match opc with
  | 0x40 =>
    match fn with
    | 0 => zeroIn w 29 7 && zeroIn w 4 2
    | 1 => zeroIn w 29 5 && slot 4 2
    | 2 => zeroIn w 29 7 && slot 4 2
    | 3 => zeroIn w 29 2
    | 4 => zeroIn w 29 6 && zeroIn w 1 1 && slot 4 2 && (!w.getLsbD 5 || (noBase && zeroIn w 4 0))
    | 5 => zeroIn w 29 13 && slot 4 2 && slot 9 7
    | _ => false
  | 0x48 =>
    slot 2 0 &&
      (match fn with
        | 0 => zeroIn w 29 5 && decide (bitsOf w 4 3 ≤ 2)
        | 1 => zeroIn w 29 3
        | 2 => zeroIn w 29 6 && zeroIn w 4 3
        | 3 => zeroIn w 29 8 && zeroIn w 5 3 && decide (bitsOf w 7 6 ≤ 2)
        | 4 => zeroIn w 29 11 && zeroIn w 5 3 && decide (bitsOf w 7 6 ≤ 2) && decide (bitsOf w 10 8 ≤ 3)
        | 5 => zeroIn w 29 14 && zeroIn w 10 3 && decide (bitsOf w 13 11 ≤ 3)
        | 6 => zeroIn w 29 3
        | _ => false)
  | 0x50 => fn == 0 && zeroIn w 29 0
  | 0x58 =>
    match fn with
    | 0 => zeroIn w 43 30 && zeroIn w 29 19
    | 1 => zeroIn w 43 30 && zeroIn w 29 4 && zeroIn w 2 0
    | 2 => zeroIn w 29 11
    | 3 => noBase && zeroIn w 29 11
    | 4 => zeroIn w 29 13
    | 5 => zeroIn w 29 11
    | 6 => zeroIn w 29 11
    | _ => false
  | _ => false

/-- Whether a word names an instruction (R261, R262). -/
def wordAssigned (w : BitVec 64) : Bool :=
  let opc := bitsOf w 63 57
  scalarWord w opc || branchWord w opc || memWord w opc || vecWord w opc || sysWord w opc || unitWord w opc

/-- UNASSIGNED_OPCODE (R261, R262): a word that names no instruction takes cause 0x01 with the word in TRAP_INFO. A
word that does name one is that instruction's own command, and nothing happens here. -/
def execUnassignedOpcode (c : CoreIx) (w : BitVec 64) (s : State) : Res :=
  if wordAssigned w then .next s else issueWhen c [] [] (fun s => s.precise c 1 w) s

end Sys2Proof.Machine
end

