-- ==== Sys2Proof/Machine/Dispatch.lean ====
section
/-! DEFINITION. The meaning of every command: one arm for each constructor of Instr. -/

namespace Sys2Proof.Machine

def exec (i : Instr) (s : State) : Host.Outcome State Fault Refusal :=
  match i with
  | .tideEdge e => Sys2Proof.Machine.execTideEdge e s
  | .snapshotTaken => Sys2Proof.Machine.execSnapshotTaken s
  | .energyMarkLatch p => Sys2Proof.Machine.execEnergyMarkLatch p s
  | .capScheduleApply => Sys2Proof.Machine.execCapScheduleApply s
  | .alarmWake => Sys2Proof.Machine.execAlarmWake s
  | .fillTimeout p => Sys2Proof.Machine.execFillTimeout p s
  | .holdWarnReached p ix => Sys2Proof.Machine.execHoldWarnReached p ix s
  | .issueStallWarn c => Sys2Proof.Machine.execIssueStallWarn c s
  | .syncWaitWarn c => Sys2Proof.Machine.execSyncWaitWarn c s
  | .collWarn ix => Sys2Proof.Machine.execCollWarn ix s
  | .forwardStallWarn p => Sys2Proof.Machine.execForwardStallWarn p s
  | .heatDecay => Sys2Proof.Machine.execHeatDecay s
  | .batchDeadline d => Sys2Proof.Machine.execBatchDeadline d s
  | .ppsAbsent => Sys2Proof.Machine.execPpsAbsent s
  | .timeSend origin => Sys2Proof.Machine.execTimeSend origin s
  | .balSlackLatch => Sys2Proof.Machine.execBalSlackLatch s
  | .metricsSnapshotArm t => Sys2Proof.Machine.execMetricsSnapshotArm t s
  | .errorWindowEnd k => Sys2Proof.Machine.execErrorWindowEnd k s
  | .channelPermanent c => Sys2Proof.Machine.execChannelPermanent c s
  | .selfTest u fault => Sys2Proof.Machine.execSelfTest u fault s
  | .fenceTakeEffect u => Sys2Proof.Machine.execFenceTakeEffect u s
  | .driftEnter => Sys2Proof.Machine.execDriftEnter s
  | .driftExit => Sys2Proof.Machine.execDriftExit s
  | .thermalLift d => Sys2Proof.Machine.execThermalLift d s
  | .droopCeilingLift d => Sys2Proof.Machine.execDroopCeilingLift d s
  | .thermalEmergency d tj => Sys2Proof.Machine.execThermalEmergency d tj s
  | .thermalTrip d tj => Sys2Proof.Machine.execThermalTrip d tj s
  | .inputTrip k => Sys2Proof.Machine.execInputTrip k s
  | .vinExcursion vin => Sys2Proof.Machine.execVinExcursion vin s
  | .droopDetect d => Sys2Proof.Machine.execDroopDetect d s
  | .droopEscalate d => Sys2Proof.Machine.execDroopEscalate d s
  | .pwrEnAssert vin slot => Sys2Proof.Machine.execPwrEnAssert vin slot s
  | .pwrEnDeassert => Sys2Proof.Machine.execPwrEnDeassert s
  | .resetLAssert => Sys2Proof.Machine.execResetLAssert s
  | .resetLRelease slot => Sys2Proof.Machine.execResetLRelease slot s
  | .refclkLoss => Sys2Proof.Machine.execRefclkLoss s
  | .refclkLock => Sys2Proof.Machine.execRefclkLock s
  | .ppsEdge err => Sys2Proof.Machine.execPpsEdge err s
  | .boot e => Sys2Proof.Machine.execBoot e s
  | .heartbeatTimeout => Sys2Proof.Machine.execHeartbeatTimeout s
  | .wakeLLow => Sys2Proof.Machine.execWakeLLow s
  | .lightWake p => Sys2Proof.Machine.execLightWake p s
  | .knockMatch p bits => Sys2Proof.Machine.execKnockMatch p bits s
  | .mgmtEnergyWake => Sys2Proof.Machine.execMgmtEnergyWake s
  | .segmentWake => Sys2Proof.Machine.execSegmentWake s
  | .m1Entry => Sys2Proof.Machine.execM1Entry s
  | .m2EntryComplete => Sys2Proof.Machine.execM2EntryComplete s
  | .m3EntryComplete => Sys2Proof.Machine.execM3EntryComplete s
  | .m1Exit => Sys2Proof.Machine.execM1Exit s
  | .m2Exit => Sys2Proof.Machine.execM2Exit s
  | .m3Exit => Sys2Proof.Machine.execM3Exit s
  | .laserLoss b pulled => Sys2Proof.Machine.execLaserLoss b pulled s
  | .laserInsert b hours => Sys2Proof.Machine.execLaserInsert b hours s
  | .laserWarmDone b ok => Sys2Proof.Machine.execLaserWarmDone b ok s
  | .laserReleaseComplete b => Sys2Proof.Machine.execLaserReleaseComplete b s
  | .laneSignalLoss p k => Sys2Proof.Machine.execLaneSignalLoss p k s
  | .laneRetire p k => Sys2Proof.Machine.execLaneRetire p k s
  | .portTrainingComplete p t => Sys2Proof.Machine.execPortTrainingComplete p t s
  | .portTrainingFail p why => Sys2Proof.Machine.execPortTrainingFail p why s
  | .portDownRetry p => Sys2Proof.Machine.execPortDownRetry p s
  | .firstLight p => Sys2Proof.Machine.execFirstLight p s
  | .flitReceive p f bad => Sys2Proof.Machine.execFlitReceive p f bad s
  | .retrainTimeout p => Sys2Proof.Machine.execRetrainTimeout p s
  | .idleFlitTimer p => Sys2Proof.Machine.execIdleFlitTimer p s
  | .laneRecalibrate p k => Sys2Proof.Machine.execLaneRecalibrate p k s
  | .segWrite p => Sys2Proof.Machine.execSegWrite p s
  | .segRead p => Sys2Proof.Machine.execSegRead p s
  | .segReadData p => Sys2Proof.Machine.execSegReadData p s
  | .segRed p => Sys2Proof.Machine.execSegRed p s
  | .segSend p => Sys2Proof.Machine.execSegSend p s
  | .segAck p failed => Sys2Proof.Machine.execSegAck p failed s
  | .segTime p ago resid => Sys2Proof.Machine.execSegTime p ago resid s
  | .segCtrl p => Sys2Proof.Machine.execSegCtrl p s
  | .segStatus p => Sys2Proof.Machine.execSegStatus p s
  | .segmentForward p v => Sys2Proof.Machine.execSegmentForward p v s
  | .segmentRetxTimeout d j => Sys2Proof.Machine.execSegmentRetxTimeout d j s
  | .statusResend => Sys2Proof.Machine.execStatusResend s
  | .ackTimer d j => Sys2Proof.Machine.execAckTimer d j s
  | .ethFrameReceive p f => Sys2Proof.Machine.execEthFrameReceive p f s
  | .qpError q syndrome => Sys2Proof.Machine.execQpError q syndrome s
  | .ethLinkFault p => Sys2Proof.Machine.execEthLinkFault p s
  | .fabricFlitReceive d j m a => Sys2Proof.Machine.execFabricFlitReceive d j m a s
  | .pageMoveComplete ix => Sys2Proof.Machine.execPageMoveComplete ix s
  | .mmuInvComplete d => Sys2Proof.Machine.execMmuInvComplete d s
  | .evacuationEnd k p => Sys2Proof.Machine.execEvacuationEnd k p s
  | .add c rd ra b => Sys2Proof.Machine.execAdd c rd ra b s
  | .sub c rd ra b => Sys2Proof.Machine.execSub c rd ra b s
  | .and c rd ra b => Sys2Proof.Machine.execAnd c rd ra b s
  | .or c rd ra b => Sys2Proof.Machine.execOr c rd ra b s
  | .xor c rd ra b => Sys2Proof.Machine.execXor c rd ra b s
  | .sll c rd ra b => Sys2Proof.Machine.execSll c rd ra b s
  | .srl c rd ra b => Sys2Proof.Machine.execSrl c rd ra b s
  | .sra c rd ra b => Sys2Proof.Machine.execSra c rd ra b s
  | .slt c rd ra b => Sys2Proof.Machine.execSlt c rd ra b s
  | .sltu c rd ra b => Sys2Proof.Machine.execSltu c rd ra b s
  | .min c rd ra b => Sys2Proof.Machine.execMin c rd ra b s
  | .max c rd ra b => Sys2Proof.Machine.execMax c rd ra b s
  | .minu c rd ra b => Sys2Proof.Machine.execMinu c rd ra b s
  | .maxu c rd ra b => Sys2Proof.Machine.execMaxu c rd ra b s
  | .mul c rd ra rb => Sys2Proof.Machine.execMul c rd ra rb s
  | .mulh c rd ra rb => Sys2Proof.Machine.execMulh c rd ra rb s
  | .mulhu c rd ra rb => Sys2Proof.Machine.execMulhu c rd ra rb s
  | .div c rd ra rb => Sys2Proof.Machine.execDiv c rd ra rb s
  | .divu c rd ra rb => Sys2Proof.Machine.execDivu c rd ra rb s
  | .rem c rd ra rb => Sys2Proof.Machine.execRem c rd ra rb s
  | .remu c rd ra rb => Sys2Proof.Machine.execRemu c rd ra rb s
  | .li c rd v => Sys2Proof.Machine.execLi c rd v s
  | .lih c rd v => Sys2Proof.Machine.execLih c rd v s
  | .beq c ra rb off => Sys2Proof.Machine.execBeq c ra rb off s
  | .bne c ra rb off => Sys2Proof.Machine.execBne c ra rb off s
  | .blt c ra rb off => Sys2Proof.Machine.execBlt c ra rb off s
  | .bge c ra rb off => Sys2Proof.Machine.execBge c ra rb off s
  | .bltu c ra rb off => Sys2Proof.Machine.execBltu c ra rb off s
  | .bgeu c ra rb off => Sys2Proof.Machine.execBgeu c ra rb off s
  | .jal c rd off => Sys2Proof.Machine.execJal c rd off s
  | .jalr c rd ra imm => Sys2Proof.Machine.execJalr c rd ra imm s
  | .tret c => Sys2Proof.Machine.execTret c s
  | .ld c rd ra sz sgn loc imm => Sys2Proof.Machine.execLd c rd ra sz sgn loc imm s
  | .st c rs ra sz loc imm => Sys2Proof.Machine.execSt c rs ra sz loc imm s
  | .vld c vd ra p t loc imm => Sys2Proof.Machine.execVld c vd ra p t loc imm s
  | .vst c vd ra p t loc imm => Sys2Proof.Machine.execVst c vd ra p t loc imm s
  | .thl c th kind ra rc => Sys2Proof.Machine.execThl c th kind ra rc s
  | .tld c vd th p t adv => Sys2Proof.Machine.execTld c vd th p t adv s
  | .tst c vd th p t adv => Sys2Proof.Machine.execTst c vd th p t adv s
  | .thcRead c rd th => Sys2Proof.Machine.execThcRead c rd th s
  | .thcSet c th rc => Sys2Proof.Machine.execThcSet c th rc s
  | .thcAdd c th rc => Sys2Proof.Machine.execThcAdd c th rc s
  | .vadd c vd va b p t => Sys2Proof.Machine.execVadd c vd va b p t s
  | .vsub c vd va b p t => Sys2Proof.Machine.execVsub c vd va b p t s
  | .vmul c vd va b p t => Sys2Proof.Machine.execVmul c vd va b p t s
  | .vfma c vd va b vc p t => Sys2Proof.Machine.execVfma c vd va b vc p t s
  | .vfms c vd va b vc p t => Sys2Proof.Machine.execVfms c vd va b vc p t s
  | .vfnma c vd va b vc p t => Sys2Proof.Machine.execVfnma c vd va b vc p t s
  | .vmin c vd va b p t => Sys2Proof.Machine.execVmin c vd va b p t s
  | .vmax c vd va b p t => Sys2Proof.Machine.execVmax c vd va b p t s
  | .vabs c vd va p t => Sys2Proof.Machine.execVabs c vd va p t s
  | .vneg c vd va p t => Sys2Proof.Machine.execVneg c vd va p t s
  | .vdiv c vd va b p t => Sys2Proof.Machine.execVdiv c vd va b p t s
  | .vsqrt c vd va p t => Sys2Proof.Machine.execVsqrt c vd va p t s
  | .vaddInt c vd va b p t => Sys2Proof.Machine.execVaddInt c vd va b p t s
  | .vsubInt c vd va b p t => Sys2Proof.Machine.execVsubInt c vd va b p t s
  | .vmulInt c vd va b p t => Sys2Proof.Machine.execVmulInt c vd va b p t s
  | .vminInt c vd va b p t => Sys2Proof.Machine.execVminInt c vd va b p t s
  | .vmaxInt c vd va b p t => Sys2Proof.Machine.execVmaxInt c vd va b p t s
  | .vminu c vd va b p t => Sys2Proof.Machine.execVminu c vd va b p t s
  | .vmaxu c vd va b p t => Sys2Proof.Machine.execVmaxu c vd va b p t s
  | .vand c vd va b p t => Sys2Proof.Machine.execVand c vd va b p t s
  | .vor c vd va b p t => Sys2Proof.Machine.execVor c vd va b p t s
  | .vxor c vd va b p t => Sys2Proof.Machine.execVxor c vd va b p t s
  | .vsll c vd va b p t => Sys2Proof.Machine.execVsll c vd va b p t s
  | .vsrl c vd va b p t => Sys2Proof.Machine.execVsrl c vd va b p t s
  | .vsra c vd va b p t => Sys2Proof.Machine.execVsra c vd va b p t s
  | .vcmp c pd va b p k => Sys2Proof.Machine.execVcmp c pd va b p k s
  | .vcvt c vd va p t t2 part => Sys2Proof.Machine.execVcvt c vd va p t t2 part s
  | .vbcast c vd sr p t => Sys2Proof.Machine.execVbcast c vd sr p t s
  | .vext c rd va sr t => Sys2Proof.Machine.execVext c rd va sr t s
  | .vperm c vd va b p t => Sys2Proof.Machine.execVperm c vd va b p t s
  | .vslideup c vd va sr p t => Sys2Proof.Machine.execVslideup c vd va sr p t s
  | .vslidedn c vd va sr p t => Sys2Proof.Machine.execVslidedn c vd va sr p t s
  | .vredAdd c vd va p t => Sys2Proof.Machine.execVredAdd c vd va p t s
  | .vredMax c vd va p t => Sys2Proof.Machine.execVredMax c vd va p t s
  | .vredMin c vd va p t => Sys2Proof.Machine.execVredMin c vd va p t s
  | .viota c vd p t => Sys2Proof.Machine.execViota c vd p t s
  | .pand c pd pa pb => Sys2Proof.Machine.execPand c pd pa pb s
  | .por c pd pa pb => Sys2Proof.Machine.execPor c pd pa pb s
  | .pxor c pd pa pb => Sys2Proof.Machine.execPxor c pd pa pb s
  | .pandn c pd pa pb => Sys2Proof.Machine.execPandn c pd pa pb s
  | .pnot c pd pa => Sys2Proof.Machine.execPnot c pd pa s
  | .pset c pd => Sys2Proof.Machine.execPset c pd s
  | .pclr c pd => Sys2Proof.Machine.execPclr c pd s
  | .pcnt c rd pa => Sys2Proof.Machine.execPcnt c rd pa s
  | .pfirst c rd pa => Sys2Proof.Machine.execPfirst c rd pa s
  | .vsfExp c vd va p => Sys2Proof.Machine.execVsfExp c vd va p s
  | .vsfExp2 c vd va p => Sys2Proof.Machine.execVsfExp2 c vd va p s
  | .vsfLog c vd va p => Sys2Proof.Machine.execVsfLog c vd va p s
  | .vsfLog2 c vd va p => Sys2Proof.Machine.execVsfLog2 c vd va p s
  | .vsfRecip c vd va p => Sys2Proof.Machine.execVsfRecip c vd va p s
  | .vsfSqrt c vd va p => Sys2Proof.Machine.execVsfSqrt c vd va p s
  | .vsfRsqrt c vd va p => Sys2Proof.Machine.execVsfRsqrt c vd va p s
  | .vsfSin c vd va p => Sys2Proof.Machine.execVsfSin c vd va p s
  | .vsfCos c vd va p => Sys2Proof.Machine.execVsfCos c vd va p s
  | .vsfTanh c vd va p => Sys2Proof.Machine.execVsfTanh c vd va p s
  | .vsfSigmoid c vd va p => Sys2Proof.Machine.execVsfSigmoid c vd va p s
  | .vsfErf c vd va p => Sys2Proof.Machine.execVsfErf c vd va p s
  | .amoAdd c rd ra rb sz => Sys2Proof.Machine.execAmoAdd c rd ra rb sz s
  | .amoMin c rd ra rb sz => Sys2Proof.Machine.execAmoMin c rd ra rb sz s
  | .amoMax c rd ra rb sz => Sys2Proof.Machine.execAmoMax c rd ra rb sz s
  | .amoSwp c rd ra rb sz => Sys2Proof.Machine.execAmoSwp c rd ra rb sz s
  | .amoCas c rd ra rb rc sz => Sys2Proof.Machine.execAmoCas c rd ra rb rc sz s
  | .fenceL c => Sys2Proof.Machine.execFenceL c s
  | .fenceS c => Sys2Proof.Machine.execFenceS c s
  | .fenceA c => Sys2Proof.Machine.execFenceA c s
  | .fenceUQueue c t => Sys2Proof.Machine.execFenceUQueue c t s
  | .fenceUToken c k => Sys2Proof.Machine.execFenceUToken c k s
  | .tideWait c rd target => Sys2Proof.Machine.execTideWait c rd target s
  | .bar c id => Sys2Proof.Machine.execBar c id s
  | .tokenSet c k => Sys2Proof.Machine.execTokenSet c k s
  | .tokenWait c k rd => Sys2Proof.Machine.execTokenWait c k rd s
  | .csrRd c rd csr => Sys2Proof.Machine.execCsrRd c rd csr s
  | .csrWr c ra csr => Sys2Proof.Machine.execCsrWr c ra csr s
  | .ctlRd c rd ra => Sys2Proof.Machine.execCtlRd c rd ra s
  | .ctlWr c ra rb => Sys2Proof.Machine.execCtlWr c ra rb s
  | .trap c imm => Sys2Proof.Machine.execTrap c imm s
  | .halt c => Sys2Proof.Machine.execHalt c s
  | .deferredTrapArrive c => Sys2Proof.Machine.execDeferredTrapArrive c s
  | .trapEntry c parity => Sys2Proof.Machine.execTrapEntry c parity s
  | .issueResume c => Sys2Proof.Machine.execIssueResume c s
  | .commandEnqueue c t => Sys2Proof.Machine.execCommandEnqueue c t s
  | .tokenCompletion c => Sys2Proof.Machine.execTokenCompletion c s
  | .granuleComplete cl cost => Sys2Proof.Machine.execGranuleComplete cl cost s
  | .panLds c tk rb loff turn narrow fold => Sys2Proof.Machine.execPanLds c tk rb loff turn narrow fold s
  | .panStr c tk rb loff swap win slot => Sys2Proof.Machine.execPanStr c tk rb loff swap win slot s
  | .panMm c tk rb loff turn win slot fold => Sys2Proof.Machine.execPanMm c tk rb loff turn win slot fold s
  | .panRake c tk rb loff slot => Sys2Proof.Machine.execPanRake c tk rb loff slot s
  | .panFill c tk rb loff turn slot => Sys2Proof.Machine.execPanFill c tk rb loff turn slot s
  | .panFillFlush c tk => Sys2Proof.Machine.execPanFillFlush c tk s
  | .panTwin c tk rb loff turn xt xslot side acc gslot tw => Sys2Proof.Machine.execPanTwin c tk rb loff turn xt xslot side acc gslot tw s
  | .panCommandBegin p => Sys2Proof.Machine.execPanCommandBegin p s
  | .panPassComplete p ups => Sys2Proof.Machine.execPanPassComplete p ups s
  | .panCommandComplete p => Sys2Proof.Machine.execPanCommandComplete p s
  | .panClockGate p => Sys2Proof.Machine.execPanClockGate p s
  | .replayRun d ix ups => Sys2Proof.Machine.execReplayRun d ix ups s
  | .thirdRun d ix ups => Sys2Proof.Machine.execThirdRun d ix ups s
  | .writeBack d ix ups => Sys2Proof.Machine.execWriteBack d ix ups s
  | .replayRecordFreed d => Sys2Proof.Machine.execReplayRecordFreed d s
  | .sluCopy c tk rb loff sl press => Sys2Proof.Machine.execSluCopy c tk rb loff sl press s
  | .sluGather c tk rb loff sl => Sys2Proof.Machine.execSluGather c tk rb loff sl s
  | .sluScatter c tk rb loff sl add => Sys2Proof.Machine.execSluScatter c tk rb loff sl add s
  | .sluReduce c tk rb loff sl op => Sys2Proof.Machine.execSluReduce c tk rb loff sl op s
  | .sluAllReduce c tk rb loff sl op => Sys2Proof.Machine.execSluAllReduce c tk rb loff sl op s
  | .sluReduceScatter c tk rb loff sl op => Sys2Proof.Machine.execSluReduceScatter c tk rb loff sl op s
  | .sluAllGather c tk rb loff sl op => Sys2Proof.Machine.execSluAllGather c tk rb loff sl op s
  | .sluAllToAll c tk rb loff sl op => Sys2Proof.Machine.execSluAllToAll c tk rb loff sl op s
  | .sluXmitWrite c tk rb loff sl => Sys2Proof.Machine.execSluXmitWrite c tk rb loff sl s
  | .sluXmitRead c tk rb loff sl => Sys2Proof.Machine.execSluXmitRead c tk rb loff sl s
  | .sluXmitRed c tk rb loff sl => Sys2Proof.Machine.execSluXmitRed c tk rb loff sl s
  | .sluXmitSend c tk rb loff sl => Sys2Proof.Machine.execSluXmitSend c tk rb loff sl s
  | .sluWait c tk rb loff sl => Sys2Proof.Machine.execSluWait c tk rb loff sl s
  | .sluWaitSatisfied d n => Sys2Proof.Machine.execSluWaitSatisfied d n s
  | .sluCommandStart ix => Sys2Proof.Machine.execSluCommandStart ix s
  | .sluCommandComplete ix k => Sys2Proof.Machine.execSluCommandComplete ix k s
  | .collChunkReceive d => Sys2Proof.Machine.execCollChunkReceive d s
  | .brnBatch c tk rb loff => Sys2Proof.Machine.execBrnBatch c tk rb loff s
  | .batchBegin d => Sys2Proof.Machine.execBatchBegin d s
  | .dictLoadComplete d => Sys2Proof.Machine.execDictLoadComplete d s
  | .recordArrive d k res ix array tries => Sys2Proof.Machine.execRecordArrive d k res ix array tries s
  | .decodeComplete d k ns => Sys2Proof.Machine.execDecodeComplete d k ns s
  | .decodeOverBudget d k ns => Sys2Proof.Machine.execDecodeOverBudget d k ns s
  | .batchComplete d => Sys2Proof.Machine.execBatchComplete d s
  | .xtlRun c tk rb lx first last => Sys2Proof.Machine.execXtlRun c tk rb lx first last s
  | .xtlRunBegin x tries cut => Sys2Proof.Machine.execXtlRunBegin x tries cut s
  | .xtlSeal c tk rb skip => Sys2Proof.Machine.execXtlSeal c tk rb skip s
  | .sealDrain c => Sys2Proof.Machine.execSealDrain c s
  | .localStatusFinal p ix => Sys2Proof.Machine.execLocalStatusFinal p ix s
  | .xtlBind c tk rb loff lx slot => Sys2Proof.Machine.execXtlBind c tk rb loff lx slot s
  | .xtlUnbind c tk lx slot => Sys2Proof.Machine.execXtlUnbind c tk lx slot s
  | .xtlEntry c tk rb loff lx group => Sys2Proof.Machine.execXtlEntry c tk rb loff lx group s
  | .xtlInit c tk rb loff lx slot => Sys2Proof.Machine.execXtlInit c tk rb loff lx slot s
  | .xtlGather c tk rb loff lx slot => Sys2Proof.Machine.execXtlGather c tk rb loff lx slot s
  | .xtlResetComplete x => Sys2Proof.Machine.execXtlResetComplete x s
  | .registerWrite m off v => Sys2Proof.Machine.execRegisterWrite m off v s
  | .tidePeriodWrite v => Sys2Proof.Machine.execTidePeriodWrite v s
  | .snapReqWrite t => Sys2Proof.Machine.execSnapReqWrite t s
  | .grqTailWrite c t => Sys2Proof.Machine.execGrqTailWrite c t s
  | .coreKill c => Sys2Proof.Machine.execCoreKill c s
  | .coreStart c => Sys2Proof.Machine.execCoreStart c s
  | .xtlCtlReset x force => Sys2Proof.Machine.execXtlCtlReset x force s
  | .panFuseProgWrite p v => Sys2Proof.Machine.execPanFuseProgWrite p v s
  | .stkAlloc v => Sys2Proof.Machine.execStkAlloc v s
  | .stkFree v => Sys2Proof.Machine.execStkFree v s
  | .stkMove v => Sys2Proof.Machine.execStkMove v s
  | .stkMoveComplete => Sys2Proof.Machine.execStkMoveComplete s
  | .mmuInvalidate d v => Sys2Proof.Machine.execMmuInvalidate d v s
  | .evacRetry k => Sys2Proof.Machine.execEvacRetry k s
  | .brineEnable d => Sys2Proof.Machine.execBrineEnable d s
  | .brineDisable d => Sys2Proof.Machine.execBrineDisable d s
  | .softCompletion d entry status => Sys2Proof.Machine.execSoftCompletion d entry status s
  | .linkEnable p v => Sys2Proof.Machine.execLinkEnable p v s
  | .linkUnretire p => Sys2Proof.Machine.execLinkUnretire p s
  | .knockSend p => Sys2Proof.Machine.execKnockSend p s
  | .laserCtlRelease b => Sys2Proof.Machine.execLaserCtlRelease b s
  | .tuConnValidWrite d j die dev => Sys2Proof.Machine.execTuConnValidWrite d j die dev s
  | .redoRelease step p => Sys2Proof.Machine.execRedoRelease step p s
  | .fenceSet u => Sys2Proof.Machine.execFenceSet u s
  | .fenceClear u => Sys2Proof.Machine.execFenceClear u s
  | .intModeWrite v => Sys2Proof.Machine.execIntModeWrite v s
  | .cvEnable n v => Sys2Proof.Machine.execCvEnable n v s
  | .cvContextStart n k v => Sys2Proof.Machine.execCvContextStart n k v s
  | .cvValWrite n k v => Sys2Proof.Machine.execCvValWrite n k v s
  | .traceEnable d v => Sys2Proof.Machine.execTraceEnable d v s
  | .pwrClassWrite c => Sys2Proof.Machine.execPwrClassWrite c s
  | .pwrCapSchedWrite v => Sys2Proof.Machine.execPwrCapSchedWrite v s
  | .pwrOrderWrite v => Sys2Proof.Machine.execPwrOrderWrite v s
  | .pwrFloorWrite v => Sys2Proof.Machine.execPwrFloorWrite v s
  | .energyMarkWrite p t => Sys2Proof.Machine.execEnergyMarkWrite p t s
  | .pwrReqM0 => Sys2Proof.Machine.execPwrReqM0 s
  | .pwrReqM1 => Sys2Proof.Machine.execPwrReqM1 s
  | .pwrReqM2 => Sys2Proof.Machine.execPwrReqM2 s
  | .pwrReqM3 => Sys2Proof.Machine.execPwrReqM3 s
  | .heartbeatWrite v => Sys2Proof.Machine.execHeartbeatWrite v s
  | .secLifecycleWrite st => Sys2Proof.Machine.execSecLifecycleWrite st s
  | .secOwnerKeyWrite k => Sys2Proof.Machine.execSecOwnerKeyWrite k s
  | .secDebugUnlock => Sys2Proof.Machine.execSecDebugUnlock s
  | .claim o r => Sys2Proof.Machine.execClaim o r s
  | .claimRelease o r => Sys2Proof.Machine.execClaimRelease o r s
  | .claimQuery o r => Sys2Proof.Machine.execClaimQuery o r s
  | .mboxEnd p => Sys2Proof.Machine.execMboxEnd p s
  | .mboxAlloc p => Sys2Proof.Machine.execMboxAlloc p s
  | .mboxFree p => Sys2Proof.Machine.execMboxFree p s
  | .mboxMove p => Sys2Proof.Machine.execMboxMove p s
  | .ckptWrite p plan t => Sys2Proof.Machine.execCkptWrite p plan t s
  | .ckptRead p plan back => Sys2Proof.Machine.execCkptRead p plan back s
  | .mboxSnapshot p => Sys2Proof.Machine.execMboxSnapshot p s
  | .mboxClearDropped p => Sys2Proof.Machine.execMboxClearDropped p s
  | .sessionOpen ses o => Sys2Proof.Machine.execSessionOpen ses o s
  | .hello h => Sys2Proof.Machine.execHello h s
  | .evtAck h n => Sys2Proof.Machine.execEvtAck h n s
  | .query h q => Sys2Proof.Machine.execQuery h q s
  | .jobSubmit h bad m => Sys2Proof.Machine.execJobSubmit h bad m s
  | .jobAbort h bad id => Sys2Proof.Machine.execJobAbort h bad id s
  | .jobEnd p why => Sys2Proof.Machine.execJobEnd p why s
  | .setCap h bad cap target => Sys2Proof.Machine.execSetCap h bad cap target s
  | .snapshot h bad t => Sys2Proof.Machine.execSnapshot h bad t s
  | .powerState h bad t => Sys2Proof.Machine.execPowerState h bad t s
  | .laserRelease h bad b => Sys2Proof.Machine.execLaserRelease h bad b s
  | .xtlReset h bad x force => Sys2Proof.Machine.execXtlReset h bad x force s
  | .fence h bad u set => Sys2Proof.Machine.execFence h bad u set s
  | .fwStage h bad ix => Sys2Proof.Machine.execFwStage h bad ix s
  | .fwActivate h bad k t => Sys2Proof.Machine.execFwActivate h bad k t s
  | .fwHandover ok => Sys2Proof.Machine.execFwHandover ok s
  | .ucodeLoad h bad u => Sys2Proof.Machine.execUcodeLoad h bad u s
  | .classRaise h bad c => Sys2Proof.Machine.execClassRaise h bad c s
  | .ownerRotate h bad hash => Sys2Proof.Machine.execOwnerRotate h bad hash s
  | .lifecycle h bad st => Sys2Proof.Machine.execLifecycle h bad st s
  | .debugUnlock h bad token => Sys2Proof.Machine.execDebugUnlock h bad token s
  | .fuseProg h bad p v => Sys2Proof.Machine.execFuseProg h bad p v s
  | .eventRingAppend => Sys2Proof.Machine.execEventRingAppend s
  | .balanceRound p parts t => Sys2Proof.Machine.execBalanceRound p parts t s
  | .metricsGet => Sys2Proof.Machine.execMetricsGet s
  | .i3cPrivateWrite bytes => Sys2Proof.Machine.execI3cPrivateWrite bytes s
  | .i3cPrivateRead n => Sys2Proof.Machine.execI3cPrivateRead n s
  | .enec events => Sys2Proof.Machine.execEnec events s
  | .disec events => Sys2Proof.Machine.execDisec events s
  | .rstdaa => Sys2Proof.Machine.execRstdaa s
  | .entdaa a => Sys2Proof.Machine.execEntdaa a s
  | .setdasa static_ a => Sys2Proof.Machine.execSetdasa static_ a s
  | .getpid => Sys2Proof.Machine.execGetpid s
  | .getbcr => Sys2Proof.Machine.execGetbcr s
  | .getdcr => Sys2Proof.Machine.execGetdcr s
  | .getstatus => Sys2Proof.Machine.execGetstatus s
  | .extest pins cells => Sys2Proof.Machine.execExtest pins cells s
  | .idcode => Sys2Proof.Machine.execIdcode s
  | .samplePreload pins cells => Sys2Proof.Machine.execSamplePreload pins cells s
  | .dbgAccess => Sys2Proof.Machine.execDbgAccess s
  | .bypass => Sys2Proof.Machine.execBypass s
  | .tapReset => Sys2Proof.Machine.execTapReset s
  | .ethLinkUp p => Sys2Proof.Machine.execEthLinkUp p s
  | .vinReturn vin slot => Sys2Proof.Machine.execVinReturn vin slot s
  | .droopRecovery d n => Sys2Proof.Machine.execDroopRecovery d n s
  | .lswWindowEnd w => Sys2Proof.Machine.execLswWindowEnd w s
  | .laserRemoved b => Sys2Proof.Machine.execLaserRemoved b s
  | .knockComplete p => Sys2Proof.Machine.execKnockComplete p s
  | .accessPerformed c ix tries => Sys2Proof.Machine.execAccessPerformed c ix tries s
  | .xtlCommandComplete x tries => Sys2Proof.Machine.execXtlCommandComplete x tries s
  | .unassignedOpcode c w => Sys2Proof.Machine.execUnassignedOpcode c w s
  | .alignTimeout p => Sys2Proof.Machine.execAlignTimeout p s
  | .brokerTakeover p => Sys2Proof.Machine.execBrokerTakeover p s

end Sys2Proof.Machine
end

