-- ==== Sys2Proof/Safety.lean ====
section
/-! DEFINITION. What counts as a safe run, in the terms the statements use: the canonical form of everything that State
holds sparsely, a step that goes on, and the state in which an instruction of a core leaves the machine when it does
nothing but change that core's registers. -/

namespace Sys2Proof.Machine

/-- Memory as plain data in its one canonical form: addresses strictly rise, and no entry holds the 0 that an unlisted
address reads as (R353, R380); where an unlisted byte is unspecified, every byte written is listed. -/
def Memory.wf (m : Memory) : Bool := mapSorted none m.cells && m.cells.all (fun q => q.2 != 0 || m.open_ q.1)

/-- Keys that rise strictly: the poisoned lines. -/
def keysWf (l : List Nat) : Bool := mapSorted none (l.map (fun k => (k, ())))

/-- Every sparse part of State in canonical form: memory, registers, counters, shadows, poisoned lines, and the local
memory of each core. -/
def State.wf (s : State) : Bool :=
  Memory.wf s.mem && mapWf regReset s.regs && mapWf zero64 s.ctr && mapWf zero64 s.shadow && mapWf zero64 s.edgeCtr
    && keysWf s.poison && s.core.toList.all (fun k => Memory.wf k.local_)

/-- No event FIFO holds more than 4096 records (R583), no core more than 8 deferred trap records (R256). -/
def State.bounded (s : State) : Bool :=
  s.fifo.toList.all (fun l => decide (l.length ≤ 4096)) && s.core.toList.all (fun k => decide (k.recs.length ≤ 8))

/-- The next state exists: no fault and no refusal. -/
def State.live (s : State) : Prop := ∃ t, step s = .next t

/-- Core `c` has issued the instruction at its PC, which left the core as `k`: CORE_INSN_CNT counts it and the next word
is at PC + 8 (R260). Everything else is as it was. -/
def State.done (s : State) (c : CoreIx) (k : CoreSt) : State :=
  { s with
    core := s.core.set c { k with pc := s.core[c].pc + 8 }
    ctr := mapPut zero64 (coreCtr c 0x400) (mapGet zero64 s.ctr (coreCtr c 0x400) + 1) s.ctr }

/-- As `done`, with the next word at `pc` (a branch or jump, R267). -/
def State.doneAt (s : State) (c : CoreIx) (k : CoreSt) (pc : BitVec 64) : State :=
  { s with
    core := s.core.set c { k with pc := pc }
    ctr := mapPut zero64 (coreCtr c 0x400) (mapGet zero64 s.ctr (coreCtr c 0x400) + 1) s.ctr }

/-- Core `c` has issued an instruction that waits: counted, its PC still at the instruction (R241, R285). -/
def State.waiting (s : State) (c : CoreIx) (w : WaitKind) : State :=
  { s with
    core := s.core.set c { s.core[c] with wait := some ⟨w, s.tide.num, false⟩ }
    ctr := mapPut zero64 (coreCtr c 0x400) (mapGet zero64 s.ctr (coreCtr c 0x400) + 1) s.ctr }

/-- Core `c` changed alone. -/
def State.setCore (s : State) (c : CoreIx) (k : CoreSt) : State := { s with core := s.core.set c k }

/-- Nothing but registers differs. -/
def State.regsOnly (s t : State) : Prop := t = { s with regs := t.regs }

/-- Nothing but registers, event FIFOs and counters differs. -/
def State.eventsOnly (s t : State) : Prop :=
  t = { s with regs := t.regs, fifo := t.fifo, fifoDrop := t.fifoDrop, ctr := t.ctr }

/-- Nothing but the links, registers, event FIFOs and counters differs. -/
def State.linksOnly (s t : State) : Prop :=
  t = { s with regs := t.regs, fifo := t.fifo, fifoDrop := t.fifoDrop, ctr := t.ctr, link := t.link }

/-- Core `c` has taken a trap (R255 to R257): its trap registers written, TRAP_ACTIVE set, the PC at the handler,
CORE_TRAP_CNT counted. -/
def State.trapped (s : State) (c : CoreIx) (k : CoreSt) (cause code : Nat) (info epc : BitVec 64) : State :=
  { s with
    core := s.core.set c { k with
      trapEpc := epc &&& 0x00FFFFFFFFFFFFF8
      trapCause := BitVec.ofNat 64 (code * 65536 + cause)
      trapInfo := info
      trapActive := true
      pc := k.trapVec
      stall := none
      wait := none }
    ctr := mapPut zero64 (coreCtr c 0x430) (mapGet zero64 s.ctr (coreCtr c 0x430) + 1) s.ctr }

/-- What a vector instruction leaves of its core `k`: destination `vd` holds `v` and the sticky flags are `f`; every other
register is as it was (R236, R237). -/
def CoreSt.vecDone (k : CoreSt) (vd : RegIx) (v : BitVec 2048) (f : BitVec 5) : CoreSt :=
  { k with vreg := k.vreg.set vd v, fstat := f }

/-- `v` holds `f i` in every lane that predicate `p` enables, and what `old` held in the others (R237). -/
def lanesAre (t : VTy) (p : BitVec 256) (old v : BitVec 2048) (f : Nat → Nat) : Prop :=
  ∀ i < t.lanes, laneGet t.width v i = if p.getLsbD i then f i % 2 ^ t.width else laneGet t.width old i

/-- `f` holds the sticky flags `old` and those of every lane that predicate `p` enables (R236). -/
def stickyAre (t : VTy) (p : BitVec 256) (old f : BitVec 5) (g : Nat → Flags) : Prop :=
  ∀ b < 5, f.getLsbD b = (old.getLsbD b || t.indices.any (fun i => p.getLsbD i && (g i).bits.testBit b))

/-- Core `c` issues the instruction `i`, which writes `f` to each enabled lane of `vd` and adds the lane's flags to the
sticky ones; no other register, no memory and no other unit changes (R236, R237). -/
def writesLanes (s : State) (c : CoreIx) (i : Instr) (vd : RegIx) (p : PredIx) (t : VTy) (f : Nat → Nat × Flags) : Prop :=
  ∃ v fl, exec i s = .next (s.done c (s.core[c].vecDone vd v fl)) ∧
    lanesAre t (s.core[c].pget p) (s.core[c].vget vd) v (fun j => (f j).1) ∧
    stickyAre t (s.core[c].pget p) s.core[c].fstat fl (fun j => (f j).2)

/-- `i` is the row of the sequenced management command with this body, header `h`, and `bad` when the body is malformed. -/
def isCtlRow (h : CmdHdr) (bad : Bool) (i : Instr) : CtlBody → Prop
  | .jobSubmit m => i = .jobSubmit h bad m
  | .jobAbort id => i = .jobAbort h bad id
  | .setCap cap t => i = .setCap h bad cap t
  | .snapshot t => i = .snapshot h bad t
  | .powerState t => i = .powerState h bad t
  | .laserRelease b => i = .laserRelease h bad b
  | .xtlReset x force => i = .xtlReset h bad x force
  | .fence u set => i = .fence h bad u set
  | .fwStage im => i = .fwStage h bad im
  | .fwActivate k t => i = .fwActivate h bad k t
  | .ucode u => i = .ucodeLoad h bad u
  | .classRaise c => i = .classRaise h bad c
  | .ownerRotate hash => i = .ownerRotate h bad hash
  | .lifecycle st => i = .lifecycle h bad st
  | .debugUnlock token => i = .debugUnlock h bad token
  | .fuseProg p v => i = .fuseProg h bad p v

/-- A sequenced command with header `h` is next on an open session `ses` of a ring that has room and is idle (R579, R580). -/
def State.accepts (s : State) (h : CmdHdr) (ses : Session) : Prop :=
  s.serving = true ∧ s.handingOver = false ∧ assoc h.ses.val s.mgmt.sessions = some ses ∧ badHdr h = false ∧
    h.epoch = s.mgmt.epoch ∧ h.seq = s.acceptedSeq + 1 ∧ s.acceptedSeq.toNat < 1024 + s.mgmt.retired.length ∧
    s.mgmt.queue = [] ∧ s.mgmt.current = none

/-- The command is accepted, and in progress. -/
def State.took (s : State) (h : CmdHdr) (c : CtlCmd) : State :=
  (((s.setReg 0x300030 h.seq).count 0x300400 1).answer h.ses.val (.accepted h.seq)).onMgmt
    (fun m => { m with current := some c })

end Sys2Proof.Machine
end

