-- ==== Sys2Proof/Certificates/Slice0/Obligations.lean ====
section
/-! DEFINITION. The statements for the provers. -/

open Sys2Proof Sys2Proof.Machine

/-- A step with a command at the front of the queue is that command's meaning on the state with the queue's rest.

With an empty queue a nanosecond of the tide passes, or nothing when the tide is over: the model's own choice (log
entry 11). Nothing but the offset within the tide changes. -/
def Obligations.StepTakesFront : Prop :=
  (∀ (s : State) (i : Instr) (rest : List Instr), s.pending = i :: rest → step s = exec i { s with pending := rest }) ∧
  (∀ s : State, s.pending = [] →
     step s = .next { s with tide := { s.tide with
       ns := if (16 * (s.tide.ns + 1) : Int) < 16000 * s.periodUs + s.tide.adj then s.tide.ns + 1 else s.tide.ns } })

/-- Reset is in canonical form, and keeps the bounds of the FIFOs and the trap queues. -/
def Obligations.ResetIsWellFormed : Prop :=
  State.reset.wf = true ∧ State.reset.bounded = true

/-- Every step keeps memory, local memories, registers, counters, shadows and the poison list in their one canonical
form. -/
def Obligations.EveryStepKeepsCanonicalForm : Prop :=
  ∀ s t : State, s.wf = true → step s = .next t → t.wf = true

/-- Every step keeps each event FIFO within 4096 records (R583) and each core's deferred trap queue within 8 (R256). -/
def Obligations.EveryStepKeepsQueueBounds : Prop :=
  ∀ s t : State, s.bounded = true → step s = .next t → t.bounded = true

/-- ADD to MAXU (R264, R265) in both forms: RD takes the value, the PC moves on, nothing else changes; a result for s0
is discarded.

SLL, SRL and SRA (R264, R265): the amount is bits [5:0] of the operand.

MUL to REMU (R265), with the values for a zero divisor and for the least dividend by −1.

LI sign-extends its 48-bit immediate; LIH replaces bits [63:48] (R266). -/
def Obligations.ScalarResults : Prop :=
  (∀ (s : State) (c : CoreIx) (rd ra : RegIx) (b : SOp), s.canIssue c (rd :: ra :: b.regs) [] = true →
     let k := s.core[c]
     let x := k.sget ra
     let y := b.value k
     exec (.add c rd ra b) s = .next (s.done c (k.sput rd (BitVec.ofNat 64 (x.toNat + y.toNat)))) ∧
     exec (.sub c rd ra b) s = .next (s.done c (k.sput rd (BitVec.ofInt 64 (x.toInt - y.toInt)))) ∧
     exec (.and c rd ra b) s = .next (s.done c (k.sput rd (x &&& y))) ∧
     exec (.or c rd ra b) s = .next (s.done c (k.sput rd (x ||| y))) ∧
     exec (.xor c rd ra b) s = .next (s.done c (k.sput rd (x ^^^ y))) ∧
     exec (.slt c rd ra b) s = .next (s.done c (k.sput rd (if x.toInt < y.toInt then 1 else 0))) ∧
     exec (.sltu c rd ra b) s = .next (s.done c (k.sput rd (if x.toNat < y.toNat then 1 else 0))) ∧
     exec (.min c rd ra b) s = .next (s.done c (k.sput rd (if x.toInt < y.toInt then x else y))) ∧
     exec (.max c rd ra b) s = .next (s.done c (k.sput rd (if x.toInt < y.toInt then y else x))) ∧
     exec (.minu c rd ra b) s = .next (s.done c (k.sput rd (if x.toNat < y.toNat then x else y))) ∧
     exec (.maxu c rd ra b) s = .next (s.done c (k.sput rd (if x.toNat < y.toNat then y else x)))) ∧
  (∀ (s : State) (c : CoreIx) (rd ra : RegIx) (b : ShOp), s.canIssue c (rd :: ra :: b.regs) [] = true →
     let k := s.core[c]
     let x := k.sget ra
     let n := match b with
       | .reg rb => (k.sget rb).toNat % 64
       | .imm v => v.toNat
     exec (.sll c rd ra b) s = .next (s.done c (k.sput rd (BitVec.ofNat 64 (x.toNat * 2 ^ n)))) ∧
     exec (.srl c rd ra b) s = .next (s.done c (k.sput rd (BitVec.ofNat 64 (x.toNat / 2 ^ n)))) ∧
     exec (.sra c rd ra b) s = .next (s.done c (k.sput rd (BitVec.ofInt 64 (x.toInt / 2 ^ n))))) ∧
  (∀ (s : State) (c : CoreIx) (rd ra rb : RegIx), s.canIssue c [rd, ra, rb] [] = true →
     let k := s.core[c]
     let x := k.sget ra
     let y := k.sget rb
     let ones := BitVec.allOnes 64
     exec (.mul c rd ra rb) s = .next (s.done c (k.sput rd (BitVec.ofInt 64 (x.toInt * y.toInt)))) ∧
     exec (.mulh c rd ra rb) s = .next (s.done c (k.sput rd (BitVec.ofInt 64 (x.toInt * y.toInt / 2 ^ 64)))) ∧
     exec (.mulhu c rd ra rb) s = .next (s.done c (k.sput rd (BitVec.ofNat 64 (x.toNat * y.toNat / 2 ^ 64)))) ∧
     exec (.div c rd ra rb) s = .next (s.done c (k.sput rd
       (if y = 0 then ones else BitVec.ofInt 64 (x.toInt.tdiv y.toInt)))) ∧
     exec (.divu c rd ra rb) s = .next (s.done c (k.sput rd (if y = 0 then ones else BitVec.ofNat 64 (x.toNat / y.toNat)))) ∧
     exec (.rem c rd ra rb) s = .next (s.done c (k.sput rd
       (if y = 0 then x else BitVec.ofInt 64 (x.toInt.tmod y.toInt)))) ∧
     exec (.remu c rd ra rb) s = .next (s.done c (k.sput rd (if y = 0 then x else BitVec.ofNat 64 (x.toNat % y.toNat))))) ∧
  (∀ (s : State) (c : CoreIx) (rd : RegIx) (v : BitVec 48) (h : BitVec 16), s.canIssue c [rd] [] = true →
     let k := s.core[c]
     exec (.li c rd v) s = .next (s.done c (k.sput rd (BitVec.ofInt 64 v.toInt))) ∧
     exec (.lih c rd h) s = .next (s.done c (k.sput rd
       (BitVec.ofNat 64 (h.toNat * 2 ^ 48 + (k.sget rd).toNat % 2 ^ 48)))))

/-- The hard-wired registers: s0 reads 0 and p0 reads all ones whatever they hold, and a write to either changes
nothing. -/
def Obligations.HardWiredRegisters : Prop :=
  ∀ (k : CoreSt) (v : BitVec 64) (p : BitVec 256),
    k.sget 0 = 0 ∧ k.sput 0 v = k ∧ k.pget 0 = BitVec.allOnes 256 ∧ k.pput 0 p = k

/-- BEQ to BGEU, JAL and JALR (R267): the target is PC + 8·OFF, or s[RA] + IMM as it stood before RD is written; the
next word follows where the condition fails. -/
def Obligations.BranchesAndJumps : Prop :=
  ∀ (s : State) (c : CoreIx) (rd ra rb : RegIx) (off imm : BitVec 32),
    let k := s.core[c]
    let x := k.sget ra
    let y := k.sget rb
    let goal := k.pc + 8 * off.signExtend 64
    let go (p : Bool) : State := s.doneAt c k (if p then goal else k.pc + 8)
    (s.canIssue c [ra, rb] [] = true →
      exec (.beq c ra rb off) s = .next (go (decide (x = y))) ∧
      exec (.bne c ra rb off) s = .next (go (decide (x ≠ y))) ∧
      exec (.blt c ra rb off) s = .next (go (decide (x.toInt < y.toInt))) ∧
      exec (.bge c ra rb off) s = .next (go (decide (y.toInt ≤ x.toInt))) ∧
      exec (.bltu c ra rb off) s = .next (go (decide (x.toNat < y.toNat))) ∧
      exec (.bgeu c ra rb off) s = .next (go (decide (y.toNat ≤ x.toNat)))) ∧
    (s.canIssue c [rd] [] = true →
      exec (.jal c rd off) s = .next (s.doneAt c (k.sput rd (k.pc + 8)) goal)) ∧
    (s.canIssue c [rd, ra] [] = true →
      exec (.jalr c rd ra imm) s = .next (s.doneAt c (k.sput rd (k.pc + 8)) (x + imm.signExtend 64)))

/-- TRAP and an unassigned word (R255, R257, R261, R291) outside a handler, with a handler set: TRAP_EPC holds the
instruction's own address, TRAP_CAUSE and TRAP_INFO the cause, and the handler runs. Inside a handler, or without one, the
core stops.

TRET (R257, R269) resumes at TRAP_EPC and clears TRAP_ACTIVE; outside a handler it is a word with cause 0x01. -/
def Obligations.TrapsAndTheirReturn : Prop :=
  (∀ (s : State) (c : CoreIx) (imm : BitVec 32) (w : BitVec 64), s.canIssue c [] [] = true →
     let k := s.core[c]
     (k.trapActive = false → k.trapVec ≠ 0 →
       exec (.trap c imm) s = .next (s.trapped c k 0x0A 0 (BitVec.ofNat 64 imm.toNat) k.pc) ∧
       (wordAssigned w = false → exec (.unassignedOpcode c w) s = .next (s.trapped c k 0x01 0 w k.pc))) ∧
     (k.trapActive = true ∨ k.trapVec = 0 →
       ∃ t, exec (.trap c imm) s = .next t ∧ t.core[c].mode = .stopped ∧ t.core[c].trapEpc = k.pc &&& 0x00FFFFFFFFFFFFF8)) ∧
  (∀ (s : State) (c : CoreIx), s.canIssue c [] [] = true →
     let k := s.core[c]
     (k.trapActive = true → exec (.tret c) s = .next (s.doneAt c { k with trapActive := false } k.trapEpc)) ∧
     (k.trapActive = false → k.trapVec ≠ 0 → exec (.tret c) s = .next (s.trapped c k 0x01 0 0x1400020000000000 k.pc)))

/-- LD and ST of local memory (R270): aligned and inside the megabyte, they act at issue.

A local store writes the bytes it names and no other, and keeps the canonical form. -/
def Obligations.LocalMemoryAccess : Prop :=
  (∀ (s : State) (c : CoreIx) (r ra : RegIx) (sz : MemSz) (sgn : Bool) (imm : BitVec 32),
     let k := s.core[c]
     let a := (k.sget ra + imm.signExtend 64).toNat
     s.canIssue c [r, ra] [] = true → a % sz.bytes = 0 → a + sz.bytes ≤ 0x100000 →
       exec (.ld c r ra sz sgn true imm) s =
         .next (s.done c (k.sput r (extend sz sgn (leNat (k.localBytes a sz.bytes))))) ∧
       exec (.st c r ra sz true imm) s = .next (s.done c (k.localStore a (leBytes sz.bytes (k.sget r).toNat)))) ∧
  (∀ (k : CoreSt) (a : Nat) (bs : List Byte), Memory.wf k.local_ = true →
     Memory.wf (k.localStore a bs).local_ = true ∧
     (∀ i, (h : i < bs.length) → (k.localStore a bs).localByte (a + i) = bs[i]) ∧
     (∀ b, b < a ∨ a + bs.length ≤ b → (k.localStore a bs).localByte b = k.localByte b) ∧
     k.localStore a bs = { k with local_ := (k.localStore a bs).local_ })

/-- LD, ST and the atomics of virtual space (R270, R284, R303): aligned and translated, the access joins the core's
list, and the core goes on.

An address that is not a multiple of the access size takes cause 0x03, and a local access beyond the megabyte cause
0x04 (R271, R272, R284); the instruction has no other effect.

A load, store or atomic whose address fails translation (R255, R342) goes on with deferred cause 0x05 on its way; a
load's destination is then unspecified. -/
def Obligations.VirtualAccessAtIssue : Prop :=
  (∀ (s : State) (c : CoreIx) (r ra rb rc : RegIx) (sz : MemSz) (asz : AmoSz) (sgn : Bool) (imm : BitVec 32),
     let k := s.core[c]
     let a := k.sget ra + imm.signExtend 64
     let aa := k.sget ra
     let w (acc : AccKind) (va : BitVec 64) : Walk := s.xlate (s.coreCtx c).part 0 acc false va.toNat
     let ok (acc : AccKind) (va : BitVec 64) : Prop := (w acc va).reason = none ∧ (w acc va).bad = false
     let push (va : BitVec 64) (acc : AccKind) (op : AccOp) : State :=
       s.done c { k with acc := k.acc ++ [⟨va.toNat, (w acc va).pa, op⟩] }
     (s.canIssue c [r, ra] [] = true → a.toNat % sz.bytes = 0 →
       (ok .read a → exec (.ld c r ra sz sgn false imm) s = .next (push a .read (.ld r sz sgn))) ∧
       (ok .write a → exec (.st c r ra sz false imm) s = .next (push a .write (.st sz (k.sget r))))) ∧
     (aa.toNat % asz.bytes = 0 → ok .atomic aa →
       (s.canIssue c [r, ra, rb, 0] [] = true →
         exec (.amoAdd c r ra rb asz) s = .next (push aa .atomic (.amo 0 asz r (k.sget rb) 0)) ∧
         exec (.amoMin c r ra rb asz) s = .next (push aa .atomic (.amo 1 asz r (k.sget rb) 0)) ∧
         exec (.amoMax c r ra rb asz) s = .next (push aa .atomic (.amo 2 asz r (k.sget rb) 0)) ∧
         exec (.amoSwp c r ra rb asz) s = .next (push aa .atomic (.amo 3 asz r (k.sget rb) 0))) ∧
       (s.canIssue c [r, ra, rb, rc] [] = true →
         exec (.amoCas c r ra rb rc asz) s = .next (push aa .atomic (.amo 4 asz r (k.sget rb) (k.sget rc)))))) ∧
  (∀ (s : State) (c : CoreIx) (r ra rb rc : RegIx) (p : PredIx) (sz : MemSz) (asz : AmoSz) (t : VTy) (sgn loc : Bool)
     (imm : BitVec 32),
     let k := s.core[c]
     let a := k.sget ra + imm.signExtend 64
     k.trapActive = false → k.trapVec ≠ 0 →
       (s.canIssue c [r, ra] [] = true → a.toNat % sz.bytes ≠ 0 →
         exec (.ld c r ra sz sgn loc imm) s = .next (s.trapped c k 3 0 a k.pc) ∧
         exec (.st c r ra sz loc imm) s = .next (s.trapped c k 3 0 a k.pc)) ∧
       (s.canIssue c [r, ra] [] = true → a.toNat % sz.bytes = 0 → 0x100000 < a.toNat + sz.bytes →
         exec (.ld c r ra sz sgn true imm) s = .next (s.trapped c k 4 0 a k.pc) ∧
         exec (.st c r ra sz true imm) s = .next (s.trapped c k 4 0 a k.pc)) ∧
       (s.canIssue c [ra] [r] = true → a.toNat % 256 ≠ 0 →
         exec (.vld c r ra p t loc imm) s = .next (s.trapped c k 3 0 a k.pc) ∧
         exec (.vst c r ra p t loc imm) s = .next (s.trapped c k 3 0 a k.pc)) ∧
       (s.canIssue c [r, ra, rb, rc] [] = true → (k.sget ra).toNat % asz.bytes ≠ 0 →
         exec (.amoCas c r ra rb rc asz) s = .next (s.trapped c k 3 0 (k.sget ra) k.pc))) ∧
  (∀ (s : State) (c : CoreIx) (r ra : RegIx) (sz : MemSz) (sgn : Bool) (imm : BitVec 32),
     let k := s.core[c]
     let a := k.sget ra + imm.signExtend 64
     let w (acc : AccKind) : Walk := s.xlate (s.coreCtx c).part 0 acc false a.toNat
     s.canIssue c [r, ra] [] = true → a.toNat % sz.bytes = 0 →
       ((w .read).reason.isSome → ∃ t, exec (.ld c r ra sz sgn false imm) s = .next t ∧
         t.core[c].recsIn = k.recsIn ++ [⟨5, 0, a⟩] ∧ t.core[c].pc = k.pc + 8 ∧ t.core[c].acc = k.acc ∧ t.mem = s.mem) ∧
       ((w .write).reason.isSome → ∃ t, exec (.st c r ra sz false imm) s = .next t ∧
         t.core[c].recsIn = k.recsIn ++ [⟨5, 0, a⟩] ∧ t.core[c].pc = k.pc + 8 ∧ t.core[c].acc = k.acc ∧ t.mem = s.mem))

/-- VLD and VST (R272, R301): four 64-byte lines, each with the bytes the predicate enables; local ones at once, virtual
ones as four accesses. -/
def Obligations.VectorLoadStore : Prop :=
  ∀ (s : State) (c : CoreIx) (v ra : RegIx) (p : PredIx) (t : VTy) (imm : BitVec 32),
    let k := s.core[c]
    let a := k.sget ra + imm.signExtend 64
    let w (acc : AccKind) : Walk := s.xlate (s.coreCtx c).part 0 acc false a.toNat
    let mask (l : Nat) : BitVec 64 := lineMask (k.pget p) t l
    let reads : List Access := (List.range 4).map (fun l =>
      ⟨a.toNat + 64 * l, (w .read).pa + 64 * l, .vld v (Fin.ofNat 4 l) (mask l) false⟩)
    let writes : List Access := (List.range 4).map (fun l =>
      ⟨a.toNat + 64 * l, (w .write).pa + 64 * l, .vst (BitVec.ofNat 512 (laneGet 512 (k.vget v) l)) (mask l)⟩)
    s.canIssue c [ra] [v] = true → a.toNat % 256 = 0 →
      (a.toNat + 256 ≤ 0x100000 →
        (∃ x, exec (.vld c v ra p t true imm) s = .next (s.done c { k with vreg := k.vreg.set v x }) ∧
          ∀ i < 256, laneGet 8 x i =
            if p = 0 ∨ (k.preg[p]).getLsbD (i / (t.width / 8)) then (k.localByte (a.toNat + i)).toNat
            else laneGet 8 (k.vget v) i) ∧
        ∃ m, exec (.vst c v ra p t true imm) s = .next (s.done c { k with local_ := m }) ∧
          (Memory.wf k.local_ = true → ∀ b, m.get b =
            if a.toNat ≤ b ∧ b < a.toNat + 256 ∧ (k.pget p).getLsbD ((b - a.toNat) / (t.width / 8)) then
              BitVec.ofNat 8 (laneGet 8 (k.vget v) (b - a.toNat))
            else k.localByte b)) ∧
      ((w .read).reason = none → (w .read).bad = false →
        exec (.vld c v ra p t false imm) s = .next (s.done c { k with acc := k.acc ++ reads })) ∧
      ((w .write).reason = none → (w .write).bad = false →
        exec (.vst c v ra p t false imm) s = .next (s.done c { k with acc := k.acc ++ writes }))

/-- ACCESS_PERFORMED of a load and of a store (R302), with no failed attempt, of a line that is not poisoned, while
nothing waits for it: the load's bytes go to its register and memory stands; the store changes the bytes it names and no
other.

ACCESS_PERFORMED of an atomic (R284, R313): RD receives the prior value and memory the new one, in one step; CAS
without a match stores nothing. -/
def Obligations.AccessesPerformed : Prop :=
  (∀ (s : State) (c : CoreIx) (i : Nat) (a : Access),
     let k := s.core[c]
     let pa := s.forward a.pa
     let gone : CoreSt := { k with acc := k.acc.eraseIdx i }
     s.clocked = true → k.acc[i]? = some a → s.mayPerform c i a = true → (s.region pa).isSome = true → s.poisoned pa = false →
     k.wait = none → k.kill = false → s.disp[clusterOf c].bars = [] → s.stk.freeing = none →
       (∀ rd sz sgn, a.op = .ld rd sz sgn →
         ∃ t, exec (.accessPerformed c i ⟨0, 0⟩) s = .next t ∧
           t.core[c] = gone.sput rd (extend sz sgn (leNat ((List.range sz.bytes).map (fun j => s.rdByte (pa + j))))) ∧
           (∀ d, d ≠ c → t.core[d] = s.core[d]) ∧ t.mem = s.mem ∧ t.regs = s.regs) ∧
       (∀ sz v, a.op = .st sz v → Memory.wf s.mem = true →
         ∃ t, exec (.accessPerformed c i ⟨0, 0⟩) s = .next t ∧ t.core = s.core.set c gone ∧ t.regs = s.regs ∧
           (∀ j < sz.bytes, t.byteAt (pa + j) = BitVec.ofNat 8 (v.toNat / 256 ^ j)) ∧
           (∀ b, b < pa ∨ pa + sz.bytes ≤ b → t.byteAt b = s.byteAt b))) ∧
  (∀ (s : State) (c : CoreIx) (i : Nat) (a : Access) (fn : Fin 5) (sz : AmoSz) (rd : RegIx) (b e : BitVec 64),
     let k := s.core[c]
     let pa := s.forward a.pa
     let gone : CoreSt := { k with acc := k.acc.eraseIdx i }
     s.clocked = true → k.acc[i]? = some a → s.mayPerform c i a = true → (s.region pa).isSome = true → s.poisoned pa = false →
     k.wait = none → k.kill = false → s.disp[clusterOf c].bars = [] → s.stk.freeing = none → Memory.wf s.mem = true →
     a.op = .amo fn sz rd b e →
       let prior := leNat ((List.range sz.bytes).map (fun j => s.rdByte (pa + j)))
       ∃ t, exec (.accessPerformed c i ⟨0, 0⟩) s = .next t ∧ t.core[c] = gone.sput rd (amoResult sz prior) ∧
         (∀ j < sz.bytes, t.byteAt (pa + j) =
           match amoNew fn sz prior b.toNat e.toNat with
           | some x => BitVec.ofNat 8 (x / 256 ^ j)
           | none => s.byteAt (pa + j)) ∧
         (∀ q, q < pa ∨ pa + sz.bytes ≤ q → t.byteAt q = s.byteAt q))

/-- THC, and THL of a source that loads, TLD and TST through a valid handle of a permitted lane type (R273 to R276): the
cursor, and with ADV its advance by the lane count. -/
def Obligations.TensorHandles : Prop :=
  ∀ (s : State) (c : CoreIx) (th : HndIx) (rd ra rc vd : RegIx) (p : PredIx) (t : VTy) (adv : Bool) (kind : HndKind),
    let k := s.core[c]
    (∀ q, k.hnd[th] = some q →
      (s.canIssue c [rd] [] = true → exec (.thcRead c rd th) s = .next (s.done c (k.sput rd q.cursor))) ∧
      (s.canIssue c [rc] [] = true →
        exec (.thcSet c th rc) s = .next (s.done c { k with hnd := k.hnd.set th (some { q with cursor := k.sget rc }) }) ∧
        exec (.thcAdd c th rc) s = .next (s.done c { k with
          hnd := k.hnd.set th (some { q with cursor := q.cursor + k.sget rc }) })) ∧
      (s.canIssue c [] [vd] = true →
        (laneAllowed q.src.fmt false t = true →
          ∃ u, exec (.tld c vd th p t adv) s = .next u ∧
            u.core[c].hnd[th].map (·.cursor) = some (if adv then q.cursor + BitVec.ofNat 64 t.lanes else q.cursor)) ∧
        (∀ d, q.src = .weave d → laneAllowed d.fmt true t = true →
          ∃ u, exec (.tst c vd th p t adv) s = .next u ∧
            u.core[c].hnd[th].map (·.cursor) = some (if adv then q.cursor + BitVec.ofNat 64 t.lanes else q.cursor)))) ∧
    (∀ src x, s.canIssue c [ra, rc] [] = true →
      (k.sget ra).toNat % (match kind with
        | .weave => 128
        | .window => 64) = 0 → (k.sget ra).toNat < 2 ^ 56 →
      ((s.drain c).coreCtx c).loadSrc kind (k.sget ra).toNat = (.ok src, x) →
        ∃ u, exec (.thl c th kind ra rc) s = .next u ∧
          u.core[c].hnd[th] = some ⟨src, k.sget rc, none, 0, false, false⟩)

/-- VADD to VSQRT on floating-point lanes (R236, R237, R278): each enabled lane takes the exact result rounded once to
nearest even, a lane that is not enabled keeps its value, and the exception flags of every enabled lane join the sticky
ones.

VADD to VSRA on integer lanes (R237, R279): the low bits of the result, without saturation; signed and unsigned
minima and maxima; logic; shifts by the low bits of the operand. No flag changes. -/
def Obligations.VectorArithmetic : Prop :=
  (∀ (s : State) (c : CoreIx) (vd va vc : RegIx) (b : VB) (p : PredIx) (t : FTy),
     let k := s.core[c]
     let L := t.layout
     let x (j : Nat) : Nat := laneGet t.ty.width (k.vget va) j
     let y (j : Nat) : Nat := b.lane k t.ty.width j
     let z (j : Nat) : Nat := laneGet t.ty.width (k.vget vc) j
     let X (j : Nat) : Val := L.decode (x j)
     let Y (j : Nat) : Val := L.decode (y j)
     let Z (j : Nat) : Val := L.decode (z j)
     let half := 2 ^ (t.ty.width - 1)
     let one (i : Instr) (f : Nat → Nat × Flags) : Prop := writesLanes s c i vd p t.ty f
     (s.canIssue c [] [vd, va] = true →
       one (.vabs c vd va p t) (fun j => (if (X j).isNan then L.nan else x j % half, Flags.none)) ∧
       one (.vneg c vd va p t) (fun j => (if (X j).isNan then L.nan else (x j + half) % (2 * half), Flags.none)) ∧
       one (.vsqrt c vd va p t) (fun j => L.done (X j).sqrt (L.invalidOf [x j] (X j).sqrt))) ∧
     (s.canIssue c b.sregs (vd :: va :: b.vregs) = true →
       one (.vadd c vd va b p t) (fun j => L.done ((X j).add (Y j)) (L.invalidOf [x j, y j] ((X j).add (Y j)))) ∧
       one (.vsub c vd va b p t) (fun j =>
         L.done ((X j).add (Y j).neg) (L.invalidOf [x j, y j] ((X j).add (Y j).neg))) ∧
       one (.vmul c vd va b p t) (fun j => L.done ((X j).mul (Y j)) (L.invalidOf [x j, y j] ((X j).mul (Y j)))) ∧
       one (.vdiv c vd va b p t) (fun j => L.done ((X j).div (Y j)) { L.invalidOf [x j, y j] ((X j).div (Y j)) with
         dz := (X j).isFin && !(X j).isZero && (Y j).isZero }) ∧
       (let less (j : Nat) : Bool := (X j).lt (Y j) || ((X j).eq (Y j) && (X j).sign && !(Y j).sign)
        let fl (j : Nat) : Flags := { Flags.none with nv := L.sNan (x j) || L.sNan (y j) }
        one (.vmin c vd va b p t) (fun j =>
         (if (X j).isNan || (Y j).isNan then L.nan else if less j then x j else y j, fl j)) ∧
        one (.vmax c vd va b p t) (fun j =>
         (if (X j).isNan || (Y j).isNan then L.nan else if less j then y j else x j, fl j)))) ∧
     (s.canIssue c b.sregs (vd :: va :: vc :: b.vregs) = true →
       let fused (i : Instr) (np nc : Bool) : Prop :=
         let prod (j : Nat) : Val := if np then ((X j).mul (Y j)).neg else (X j).mul (Y j)
         let r (j : Nat) : Val := (prod j).add (if nc then (Z j).neg else Z j)
         one i (fun j => L.done (r j)
           (if (prod j).isNan && !(X j).isNan && !(Y j).isNan && (Z j).isNan && !L.sNan (z j) then
             { Flags.none with nv := Config.fmaNanInvalid }
           else L.invalidOf [x j, y j, z j] (r j)))
       fused (.vfma c vd va b vc p t) false false ∧ fused (.vfms c vd va b vc p t) false true ∧
       fused (.vfnma c vd va b vc p t) true false)) ∧
  (∀ (s : State) (c : CoreIx) (vd va : RegIx) (b : VB) (p : PredIx) (t : ITy),
     let k := s.core[c]
     let w := t.ty.width
     let x (j : Nat) : Nat := laneGet w (k.vget va) j
     let y (j : Nat) : Nat := b.lane k w j
     let sx (j : Nat) : Int := codeInt w (x j)
     let sy (j : Nat) : Int := codeInt w (y j)
     let gives (i : Instr) (f : Nat → Nat) : Prop := writesLanes s c i vd p t.ty (fun j => (f j, Flags.none))
     s.canIssue c b.sregs (vd :: va :: b.vregs) = true →
       gives (.vaddInt c vd va b p t) (fun j => x j + y j) ∧
       gives (.vsubInt c vd va b p t) (fun j => x j + (2 ^ w - y j)) ∧
       gives (.vmulInt c vd va b p t) (fun j => x j * y j) ∧
       gives (.vminInt c vd va b p t) (fun j => if sx j < sy j then x j else y j) ∧
       gives (.vmaxInt c vd va b p t) (fun j => if sx j < sy j then y j else x j) ∧
       gives (.vminu c vd va b p t) (fun j => min (x j) (y j)) ∧
       gives (.vmaxu c vd va b p t) (fun j => max (x j) (y j)) ∧
       gives (.vand c vd va b p t) (fun j => x j &&& y j) ∧
       gives (.vor c vd va b p t) (fun j => x j ||| y j) ∧
       gives (.vxor c vd va b p t) (fun j => x j ^^^ y j) ∧
       gives (.vsll c vd va b p t) (fun j => x j * 2 ^ (y j % w)) ∧
       gives (.vsrl c vd va b p t) (fun j => x j / 2 ^ (y j % w)) ∧
       gives (.vsra c vd va b p t) (fun j => (sx j / 2 ^ (y j % w) % 2 ^ w).toNat))

/-- VBCAST, VEXT, VPERM, VSLIDEUP, VSLIDEDN and VIOTA (R282): elements moved by index, with the indices of VEXT and VPERM
modulo the lane count and zeros where a slide vacates.

PAND to PFIRST (R282): predicate logic, PSET and PCLR, the number of set bits, and the index of the lowest one or
−1. -/
def Obligations.VectorMovesAndPredicates : Prop :=
  (∀ (s : State) (c : CoreIx) (vd va rd sr : RegIx) (b : VB) (p : PredIx) (a : ATy) (it : ITy),
     let k := s.core[c]
     let t := a.ty
     let w := t.width
     let x (j : Nat) : Nat := laneGet w (k.vget va) j
     let n := (k.sget sr).toNat
     let gives (i : Instr) (f : Nat → Nat) : Prop := writesLanes s c i vd p t (fun j => (f j, Flags.none))
     (s.canIssue c [sr] [vd] = true → gives (.vbcast c vd sr p a) (fun _ => n)) ∧
     (s.canIssue c [rd, sr] [va] = true →
       exec (.vext c rd va sr a) s = .next (s.done c (k.sput rd (BitVec.ofNat 64 (x (n % t.lanes)))))) ∧
     (s.canIssue c b.sregs (vd :: va :: b.vregs) = true →
       gives (.vperm c vd va b p a) (fun j => x (b.lane k w j % t.lanes))) ∧
     (s.canIssue c [sr] [vd, va] = true →
       gives (.vslideup c vd va sr p a) (fun j => if j < n then 0 else x (j - n)) ∧
       gives (.vslidedn c vd va sr p a) (fun j => if t.lanes ≤ j + n then 0 else x (j + n))) ∧
     (s.canIssue c [] [vd] = true → writesLanes s c (.viota c vd p it) vd p it.ty (fun j => (j, Flags.none)))) ∧
  (∀ (s : State) (c : CoreIx) (pd pa pb : PredIx) (rd : RegIx),
     let k := s.core[c]
     let a := k.pget pa
     let b := k.pget pb
     (s.canIssue c [] [] = true →
       exec (.pand c pd pa pb) s = .next (s.done c (k.pput pd (a &&& b))) ∧
       exec (.por c pd pa pb) s = .next (s.done c (k.pput pd (a ||| b))) ∧
       exec (.pxor c pd pa pb) s = .next (s.done c (k.pput pd (a ^^^ b))) ∧
       exec (.pandn c pd pa pb) s = .next (s.done c (k.pput pd (a &&& ~~~b))) ∧
       exec (.pnot c pd pa) s = .next (s.done c (k.pput pd (~~~a))) ∧
       exec (.pset c pd) s = .next (s.done c (k.pput pd (BitVec.allOnes 256))) ∧
       exec (.pclr c pd) s = .next (s.done c (k.pput pd 0))) ∧
     (s.canIssue c [rd] [] = true →
       exec (.pcnt c rd pa) s =
         .next (s.done c (k.sput rd (BitVec.ofNat 64 ((List.range 256).countP (fun i => a.getLsbD i))))) ∧
       (a = 0 → exec (.pfirst c rd pa) s = .next (s.done c (k.sput rd (BitVec.allOnes 64)))) ∧
       ∀ i < 256, a.getLsbD i = true → (∀ j < i, a.getLsbD j = false) →
         exec (.pfirst c rd pa) s = .next (s.done c (k.sput rd (BitVec.ofNat 64 i)))))

/-- VCMP (R281): bit i of PD is the comparison of lane i where enabled, its old value where not, and 0 at or above the
lane count. With a NaN only NE and UN hold.

VCVT (R280): lane i of the wider type pairs with element PART·n + i of the narrower; a PART at or above the ratio of
the widths takes cause 0x01. -/
def Obligations.VectorCompareAndConvert : Prop :=
  ((∀ (s : State) (c : CoreIx) (pd : PredIx) (va : RegIx) (b : VB) (p : PredIx) (sel : CmpSel),
     let k := s.core[c]
     let w := sel.ty.width
     s.canIssue c b.sregs (va :: b.vregs) = true →
       ∃ q, exec (.vcmp c pd va b p sel) s = .next (s.done c (k.pput pd q)) ∧
         ∀ i < 256, q.getLsbD i =
           if sel.ty.lanes ≤ i then false
           else if (k.pget p).getLsbD i then sel.holds (laneGet w (k.vget va) i) (b.lane k w i)
           else (k.pget pd).getLsbD i) ∧
   ∀ (t : FTy) (r : Cmp) (x y : Nat), ((t.layout.decode x).isNan || (t.layout.decode y).isNan) = true →
     CmpSel.holds (.f t r) x y = decide (r = .ne) ∧ CmpSel.holds (.un t) x y = true) ∧
  (∀ (s : State) (c : CoreIx) (vd va : RegIx) (p : PredIx) (t t2 : VTy) (part : BitVec 2),
     let k := s.core[c]
     let n := 2048 / max t.width t2.width
     let first := part.toNat * n
     let ratio := max t.width t2.width / min t.width t2.width
     let src (j : Nat) : Nat :=
       if t.width < t2.width then first + j else if t2.width < t.width then j - first else j
     let there (j : Nat) : Bool := decide (t.width ≤ t2.width) || (decide (first ≤ j) && decide (j < first + n))
     let r (j : Nat) : Nat × Flags := convert t t2 (laneGet t.width (k.vget va) (src j))
     s.canIssue c [] [vd, va] = true →
       (part.toNat < ratio → ∃ v fl, exec (.vcvt c vd va p t t2 part) s = .next (s.done c (k.vecDone vd v fl)) ∧
         (∀ j < t2.lanes, laneGet t2.width v j =
           if there j && (k.pget p).getLsbD j then (r j).1 % 2 ^ t2.width else laneGet t2.width (k.vget vd) j) ∧
         ∀ b < 5, fl.getLsbD b = (k.fstat.getLsbD b ||
           t2.indices.any (fun j => there j && (k.pget p).getLsbD j && (r j).2.bits.testBit b))) ∧
       (ratio ≤ part.toNat → k.trapActive = false → k.trapVec ≠ 0 →
         exec (.vcvt c vd va p t t2 part) s = .next (s.trapped c k 1 0 (vcvtWord vd va p t t2 part) k.pc)))

/-- VREDADD, VREDMAX and VREDMIN (R282): the enabled elements combined in ascending order into element 0, every other bit
zero; with none enabled +0, the least or the greatest value of the type.

VSF.EXP to VSF.ERF (R117, R235, R283) on FP32 lanes: the answers the rules fix, and elsewhere the one
of the codes within 2 ulp of the exact function that a free value of Config picks (log entry 7). -/
def Obligations.ReductionsAndSpecialFunctions : Prop :=
  (∀ (s : State) (c : CoreIx) (vd va : RegIx) (p : PredIx) (t : FTy) (u : ITy), s.canIssue c [] [vd, va] = true →
     let k := s.core[c]
     let L := t.layout
     let w := u.ty.width
     let x (j : Nat) : Nat := laneGet t.ty.width (k.vget va) j
     let y (j : Nat) : Nat := laneGet w (k.vget va) j
     let on (ty : VTy) : List Nat := ty.indices.filter (fun j => (k.pget p).getLsbD j)
     let gives (i : Instr) (r : Nat) : Prop :=
       ∃ fl, exec i s = .next (s.done c (k.vecDone vd (BitVec.ofNat 2048 r) fl)) ∧
         ∀ b < 5, k.fstat.getLsbD b = true → fl.getLsbD b = true
     let fold (e : Nat) (g : Nat → Nat) (f : Nat → Nat → Nat) (l : List Nat) : Nat :=
       match l with
       | [] => e
       | a :: r => r.foldl f (g a)
     gives (.vredAdd c vd va p (.f t)) (fold 0 (fun a => if (L.decode a).isNan then L.nan else a)
       (fun a b => (L.ieee ((L.decode a).add (L.decode b))).1) ((on t.ty).map x)) ∧
     gives (.vredMax c vd va p (.f t)) (fold (L.infCode + 2 ^ (t.ty.width - 1))
       (fun a => if (L.decode a).isNan then L.nan else a) (L.minMax true) ((on t.ty).map x)) ∧
     gives (.vredMin c vd va p (.f t)) (fold L.infCode
       (fun a => if (L.decode a).isNan then L.nan else a) (L.minMax false) ((on t.ty).map x)) ∧
     gives (.vredAdd c vd va p (.i u)) (((on u.ty).map y).sum % 2 ^ w) ∧
     gives (.vredMax c vd va p (.i u)) (fold (2 ^ (w - 1)) id
       (fun a b => if codeInt w a < codeInt w b then b else a) ((on u.ty).map y)) ∧
     gives (.vredMin c vd va p (.i u)) (fold (2 ^ (w - 1) - 1) id
       (fun a b => if codeInt w a < codeInt w b then a else b) ((on u.ty).map y))) ∧
  ((∀ (s : State) (c : CoreIx) (vd va : RegIx) (p : PredIx), s.canIssue c [] [vd, va] = true →
     let gives (i : Instr) (fn : Nat) : Prop :=
       writesLanes s c i vd p .f32 (fun j => sfLane fn (laneGet 32 (s.core[c].vget va) j))
     gives (.vsfExp c vd va p) 0 ∧ gives (.vsfExp2 c vd va p) 1 ∧ gives (.vsfLog c vd va p) 2 ∧
     gives (.vsfLog2 c vd va p) 3 ∧ gives (.vsfRecip c vd va p) 4 ∧ gives (.vsfSqrt c vd va p) 5 ∧
     gives (.vsfRsqrt c vd va p) 6 ∧ gives (.vsfSin c vd va p) 7 ∧ gives (.vsfCos c vd va p) 8 ∧
     gives (.vsfTanh c vd va p) 9 ∧ gives (.vsfSigmoid c vd va p) 10 ∧ gives (.vsfErf c vd va p) 11) ∧
   ∀ fn < 12, ∀ x < 2 ^ 32,
     ((fFP32.decode x).isNan = true → (sfLane fn x).1 = 0x7FC00000) ∧
     ((fn = 2 ∨ fn = 3 ∨ fn = 4 ∨ fn = 6) → (fFP32.decode x).isZero = true → (sfLane fn x).2.dz = true) ∧
     ((fn = 2 ∨ fn = 3 ∨ fn = 5 ∨ fn = 6) → (fFP32.decode x).lt (vZero false) = true →
       sfLane fn x = (0x7FC00000, { Flags.none with nv := true })) ∧
     (sfFixed fn x = none → sfLane fn x =
        (pickNear (Config.specialFn fn (BitVec.ofNat 32 x)) (encSf fn (fFP32.decode x)), Flags.none)))

/-- FENCE.L, FENCE.U, TIDE.WAIT and TOKEN.WAIT (R285 to R288, R307): each completes at once where its condition already
holds (TIDE.WAIT with the tide number, TOKEN.WAIT with ERR in RD) and otherwise leaves the core waiting. A relative
TIDE.WAIT counts from the tide in progress.

The ends of a wait for a token (R241, R288): the completion that brings COUNT to 0 ends a TOKEN.WAIT, which writes ERR to RD, and a
FENCE.U on the token; an earlier one leaves the core waiting.

FENCE.S, FENCE.A and HALT (R276, R307, R310) write the staged blocks first. FENCE.S then waits for every virtual access
of the core, FENCE.A and HALT for its unit commands too; HALT leaves the core HALTED.

BAR (R287, R309): outside a granule it completes at issue. Inside one, the last core to arrive, with every participant's
virtual accesses performed, lets all of them go on; an earlier one waits and no other core changes. -/
def Obligations.WaitsFencesAndBarriers : Prop :=
  (∀ (s : State) (c : CoreIx) (u : Target) (j : TokIx) (rd ra : RegIx) (n : BitVec 31),
     let k := s.core[c]
     let now := s.tide.num
     (s.canIssue c [] [] = true →
       exec (.fenceL c) s = .next (s.done c k) ∧
       exec (.fenceUQueue c u) s = .next (if k.outOf u = 0 then s.done c k else s.waiting c (.fenceUQ u)) ∧
       exec (.fenceUToken c j) s = .next (if k.tok[j].count = 0 then s.done c k else s.waiting c (.fenceUT j)) ∧
       exec (.tokenSet c j) s = .next (s.done c { k with tok := k.tok.set j { k.tok[j] with err := false } })) ∧
     (s.canIssue c [rd] [] = true →
       exec (.tokenWait c j rd) s = .next (if k.tok[j].count = 0 then
           s.done c (k.sput rd (if k.tok[j].err then 1 else 0))
         else s.waiting c (.tokenWait j rd)) ∧
       (n ≠ 0 → exec (.tideWait c rd (.rel n)) s = .next
         (if (now + n.setWidth 64).toNat ≤ now.toNat then s.done c (k.sput rd now)
          else s.waiting c (.tide (now + n.setWidth 64) rd)))) ∧
     (s.canIssue c [rd, ra] [] = true →
       exec (.tideWait c rd (.abs ra)) s = .next (if (k.sget ra).toNat ≤ now.toNat then s.done c (k.sput rd now)
         else s.waiting c (.tide (k.sget ra) rd)))) ∧
  (∀ (s : State) (c : CoreIx) (j : TokIx) (err x : Bool) (l : List (TokIx × Bool)) (rd : RegIx) (t0 : BitVec 64),
     let k := s.core[c]
     let e := k.tok[j].err || err
     let n := k.tok[j].count - 1
     let q : CoreSt := { k with toksIn := l, tok := k.tok.set j ⟨n, e⟩ }
     k.toksIn = (j, err) :: l → k.kill = false →
       (k.wait = some ⟨.tokenWait j rd, t0, x⟩ → exec (.tokenCompletion c) s = .next (s.setCore c
         (if n = 0 then { q.sput rd (if e then 1 else 0) with wait := none, pc := k.pc + 8 } else q))) ∧
       (k.wait = some ⟨.fenceUT j, t0, x⟩ → exec (.tokenCompletion c) s = .next (s.setCore c
         (if n = 0 then { q with wait := none, pc := k.pc + 8 } else q)))) ∧
  (∀ (s : State) (c : CoreIx), s.canIssue c [] [] = true →
     let u := s.flushHandles c
     let k := u.core[c]
     k.wait = none → k.kill = false →
       exec (.fenceS c) s = .next (if k.virtPending then u.waiting c .fenceS else u.done c k) ∧
       exec (.fenceA c) s = .next (if k.virtPending || !k.unitsDone then u.waiting c .fenceA else u.done c k) ∧
       (k.trapDue = false → exec (.halt c) s =
         .next (if k.virtPending || !k.unitsDone then u.waiting c .halt else u.done c { k with mode := .halted })) ∧
       ((∀ h : HndIx, (s.core[c].hnd[h]).all (fun q => q.staged.isNone && q.oob == 0) = true) → u = s)) ∧
  (∀ (s : State) (c : CoreIx) (id : Fin 16), s.canIssue c [] [] = true →
     let u := s.flushHandles c
     let q := u.disp[clusterOf c]
     let here := (assoc id.val q.bars).getD [] ++ [c]
     (s.inGranule c = false → exec (.bar c id) s = .next (s.done c s.core[c])) ∧
     (∀ g, s.inGranule c = true → q.running = some g →
       ∃ t, exec (.bar c id) s = .next t ∧ t = { u with core := t.core, ctr := t.ctr, disp := t.disp } ∧
         (g.cores.all (fun d => here.contains d && !u.core[d].virtPending) = true → g.cores.Nodup →
           (∀ d ∈ g.cores, t.core[d] = { u.core[d] with wait := none, pc := u.core[d].pc + 8 }) ∧
           (∀ d, d ∉ g.cores → d ≠ c → t.core[d] = u.core[d])) ∧
         (g.cores.all (fun d => here.contains d && !u.core[d].virtPending) = false →
           t.core[c].wait = some ⟨.bar id, u.tide.num, false⟩ ∧ t.core[c].pc = u.core[c].pc ∧
           assoc id.val t.disp[clusterOf c].bars = some here ∧ ∀ d, d ≠ c → t.core[d] = u.core[d])))

/-- CSR.RD and CSR.WR (R289, R290): a register of the core by its number; cause 0x09 where the number has none, and for a
write of one that only firmware writes. TRAP_VEC, TRAP_EPC and CORE_FSTAT are the ones an instruction writes. A counter that
depends on time inside a tide goes on by a free amount, and the three fills of ISSUE_STATUS are free up to their depths (the
model's choice, log entries 37 and 60).

CTL.RD and CTL.WR (R290) issue an access of the control window and go on; a read or write that the core may not make takes
cause 0x09 with the offset (log entry 8 lists which it may). An offset that names no register or counter, or is misaligned,
takes no trap at issue (R9). -/
def Obligations.CsrAndControlWindow : Prop :=
  (∀ (s : State) (c : CoreIx) (rd ra : RegIx) (n : BitVec 12),
     let k := s.core[c]
     let off := 8 * n.toNat
     let v := k.sget ra
     let traps (t : State) : Prop := k.trapActive = false → k.trapVec ≠ 0 → t = s.trapped c k 9 0 (BitVec.ofNat 64 off) k.pc
     (s.canIssue c [rd] [] = true →
       (∀ x, s.coreRead c off = some x → openCsr c off = none → off ≠ 0x48 → exec (.csrRd c rd n) s =
         .next (s.done c (k.sput rd x))) ∧
       (∀ x, s.coreRead c off = some x → openCsr c off = none → off = 0x48 → ∃ (f0 f1 f2 : Nat) (t : State), f0 ≤ 8 ∧ f1 ≤ 4 ∧ f2 ≤ 8 ∧
         t = { s with free := t.free } ∧
         exec (.csrRd c rd n) s = .next (t.done c (k.sput rd (x + BitVec.ofNat 64 (f0 + 16 * f1 + 256 * f2))))) ∧
       (∀ x key, s.coreRead c off = some x → openCsr c off = some (key, false) → ∃ t : State, exec (.csrRd c rd n) s =
           .next (t.done c (k.sput rd (t.ctrAt key))) ∧ (s.ctrAt key).toNat ≤ (t.ctrAt key).toNat ∧
         t = { s with ctr := t.ctr, shadow := t.shadow, tide := { s.tide with snapSeen := t.tide.snapSeen }, free := t.free }) ∧
       (∀ x key, s.coreRead c off = some x → openCsr c off = some (key, true) → ∃ t : State, exec (.csrRd c rd n) s =
           .next (t.done c (k.sput rd (mapGet zero64 t.shadow key))) ∧
         t = { s with ctr := t.ctr, shadow := t.shadow, tide := { s.tide with snapSeen := t.tide.snapSeen }, free := t.free }) ∧
       (s.coreRead c off = none → ∃ t, exec (.csrRd c rd n) s = .next t ∧ traps t)) ∧
     (s.canIssue c [ra] [] = true →
       ((s.coreRead c off = none ∨ coreFwOnly off = true) → ∃ t, exec (.csrWr c ra n) s = .next t ∧ traps t) ∧
       (n = 3 → exec (.csrWr c ra n) s = .next (s.done c { k with trapVec := v &&& 0x00FFFFFFFFFFFFF8 })) ∧
       (n = 4 → exec (.csrWr c ra n) s = .next (s.done c { k with trapEpc := v &&& 0x00FFFFFFFFFFFFF8 })) ∧
       (n = 7 → exec (.csrWr c ra n) s = .next (s.done c { k with fstat := k.fstat &&& ~~~(v.setWidth 5) })) ∧
       (n = 0 → exec (.csrWr c ra n) s = .next (s.done c { k with lost := k.lost && !v.getLsbD 5 })))) ∧
  (∀ (s : State) (c : CoreIx) (rd ra rb : RegIx),
     let k := s.core[c]
     let off := k.sget ra
     (s.canIssue c [rd, ra] [] = true →
       (s.ctlDenied c off.toNat false = false → exec (.ctlRd c rd ra) s =
         .next (s.done c { k with acc := k.acc ++ [⟨off.toNat, off.toNat, .ctlRd rd off⟩] })) ∧
       (s.ctlDenied c off.toNat false = true → k.trapActive = false → k.trapVec ≠ 0 →
         exec (.ctlRd c rd ra) s = .next (s.trapped c k 9 0 off k.pc))) ∧
     (∀ write, slotOf off.toNat = none → s.ctlDenied c off.toNat write = false) ∧
     (s.canIssue c [ra, rb] [] = true →
       (s.ctlDenied c off.toNat true = false → exec (.ctlWr c ra rb) s =
         .next (s.done c { k with acc := k.acc ++ [⟨off.toNat, off.toNat, .ctlWr off (k.sget rb)⟩] })) ∧
       (s.ctlDenied c off.toNat true = true → k.trapActive = false → k.trapVec ≠ 0 →
         exec (.ctlWr c ra rb) s = .next (s.trapped c k 9 0 off k.pc))))

/-- DEFERRED_TRAP_ARRIVE (R256): a record joins the core's queue of 8; with the queue full it is dropped, LOST is set and
event 0x1116 raised. TOKEN_COMPLETION (R241, R242): COUNT falls by one, ERR gathers the error.

TRAP_ENTRY (R255 to R257): at an instruction boundary a running core with a deferred record and TRAP_ACTIVE clear takes
the oldest record, with its own PC saved. A word that fails its fourth attempt takes cause 0x0B there. -/
def Obligations.SignalsAndTrapEntry : Prop :=
  (∀ (s : State) (c : CoreIx),
     let k := s.core[c]
     (∀ r l, k.recsIn = r :: l →
       (k.recs.length < 8 → exec (.deferredTrapArrive c) s = .next (s.setCore c { k with recsIn := l, recs := k.recs ++ [r] })) ∧
       (8 ≤ k.recs.length → exec (.deferredTrapArrive c) s =
         .next ((s.setCore c { k with recsIn := l, lost := true }).raise (s.coreSrc c.val) 0x1116
           (BitVec.ofNat 64 (c.val + 65536 * r.code.toNat))))) ∧
     (∀ j err l, k.toksIn = (j, err) :: l → k.wait = none → k.kill = false →
       exec (.tokenCompletion c) s = .next (s.setCore c { k with
         toksIn := l
         tok := k.tok.set j ⟨k.tok[j].count - 1, k.tok[j].err || err⟩ }))) ∧
  (∀ (s : State) (c : CoreIx) (p : ParityFail),
     let k := s.core[c]
     (∀ r l, s.clocked = true → k.mode = .running → k.kill = false → (∀ w, k.wait = some w → w.kind.boundary = true ∧
         ∀ id, w.kind ≠ .bar id) → k.trapActive = false → k.trapVec ≠ 0 → k.recs = r :: l →
       exec (.trapEntry c none) s =
         .next (s.trapped c { k with recs := l } r.cause.toNat r.code.toNat r.info k.pc)) ∧
     (s.clocked = true → k.ready = true → k.trapActive = false → k.trapVec ≠ 0 →
       ∃ t, exec (.trapEntry c (some p)) s = .next t ∧ t.core[c].trapCause = 0x0B ∧ t.core[c].trapEpc = k.pc &&& 0x00FFFFFFFFFFFFF8 ∧
         t.core[c].trapInfo = (match p with
           | .localAddr a => a.setWidth 64
           | .register n => n.setWidth 64) ∧
         t.core[c].pc = k.trapVec ∧ t.core[c].trapActive = true ∧ ∀ d, d ≠ c → t.core[d] = s.core[d]))

/-- What buffering a unit command does (R241, R245, R246): a copy of its block at the end of the core-side buffer of its
target, one more in COUNT of each token it names and in the target's outstanding commands; the rest of the core stands.

The pan, sluice, Brine and crystallizer commands with a block (R245 to R247, R292 to R297): a block that is misaligned takes
cause 0x03, one beyond the megabyte cause 0x04; with room the command is buffered with a copy of the block and the core goes
on; with none the core stalls at it.

PAN.FILLF, XTL.RUN, XTL.SEAL and XTL.UNBIND (R292, R296, R297): no block; the value of s[RB] goes with the command.
ISSUE_RESUME (R247): a stalled command is buffered once there is room, and the core goes on. -/
def Obligations.UnitCommandIssue : Prop :=
  (∀ (k : CoreSt) (cmd : UnitCmd) (la n : Nat),
     let t := cmd.op.target
     let q := k.bufferCmd cmd la n
     let block := (List.range (n / 8)).map (fun i => BitVec.ofNat 64 (leNat (k.localBytes (la + 8 * i) 8)))
     q.buf t = k.buf t ++ [{ cmd with block := block }] ∧ q.outOf t = k.outOf t + 1 ∧
     (∀ u, u ≠ t → q.buf u = k.buf u ∧ q.outOf u = k.outOf u) ∧
     (∀ j : TokIx, q.tok[j] = { k.tok[j] with count := k.tok[j].count + cmd.tokens.count j }) ∧
     q = { k with bufPan := q.bufPan, bufSlu := q.bufSlu, bufBrn := q.bufBrn, bufXtl := q.bufXtl, outPan := q.outPan,
                  outSlu := q.outSlu, outBrn := q.outBrn, outXtl := q.outXtl, tok := q.tok }) ∧
  (∀ (s : State) (c : CoreIx) (tk : TokIx) (rb : RegIx) (loff : BitVec 14), s.canIssue c [rb] [] = true →
     let k := s.core[c]
     let base := k.sget rb
     let la := (base + 64 * loff.setWidth 64).toNat
     let issues (i : Instr) (n : Nat) (op : UnitOp) : Prop :=
       let cmd : UnitCmd := ⟨c, tk, op, [], 0, s.stepOfCore c⟩
       (base.toNat % 64 = 0 → la + n ≤ 0x100000 →
         exec i s = .next (if k.roomFor cmd then s.done c (k.bufferCmd cmd la n)
           else s.setCore c { k with stall := some ⟨cmd, la, n, op.target, !k.tokenRoom cmd, s.tide.num, false⟩ })) ∧
       (base.toNat % 64 ≠ 0 → k.trapActive = false → k.trapVec ≠ 0 → exec i s = .next (s.trapped c k 3 0 base k.pc)) ∧
       (base.toNat % 64 = 0 → 0x100000 < la + n → k.trapActive = false → k.trapVec ≠ 0 →
         exec i s = .next (s.trapped c k 4 0 (base + 64 * loff.setWidth 64) k.pc))
     (∀ turn narrow fold, issues (.panLds c tk rb loff turn narrow fold) 64 (.panLds turn narrow fold)) ∧
     (∀ swap win slot, issues (.panStr c tk rb loff swap win slot) 64 (.panStr swap win slot)) ∧
     (∀ turn win slot fold, issues (.panMm c tk rb loff turn win slot fold) 64 (.panMm turn win slot fold)) ∧
     (∀ slot, issues (.panRake c tk rb loff slot) 64 (.panRake slot)) ∧
     (∀ turn slot, issues (.panFill c tk rb loff turn slot) 128 (.panFill turn slot)) ∧
     (∀ turn xt xs side acc gs tw, issues (.panTwin c tk rb loff turn xt xs side acc gs tw) 128
       (.panTwin turn xt xs side acc gs tw)) ∧
     (∀ sl press, issues (.sluCopy c tk rb loff sl press) 64 (.sluCopy sl press)) ∧
     (∀ sl, issues (.sluGather c tk rb loff sl) 64 (.sluGather sl)) ∧
     (∀ sl add, issues (.sluScatter c tk rb loff sl add) 64 (.sluScatter sl add)) ∧
     (∀ sl op, issues (.sluReduce c tk rb loff sl op) 64 (.sluReduce sl op)) ∧
     (∀ sl op, issues (.sluAllReduce c tk rb loff sl op) 64 (.sluColl sl op 0)) ∧
     (∀ sl op, issues (.sluReduceScatter c tk rb loff sl op) 64 (.sluColl sl op 1)) ∧
     (∀ sl op, issues (.sluAllGather c tk rb loff sl op) 64 (.sluColl sl op 2)) ∧
     (∀ sl op, issues (.sluAllToAll c tk rb loff sl op) 64 (.sluColl sl op 3)) ∧
     (∀ sl, issues (.sluXmitWrite c tk rb loff sl) 64 (.sluXmit sl 0)) ∧
     (∀ sl, issues (.sluXmitRead c tk rb loff sl) 64 (.sluXmit sl 1)) ∧
     (∀ sl, issues (.sluXmitRed c tk rb loff sl) 64 (.sluXmit sl 2)) ∧
     (∀ sl, issues (.sluXmitSend c tk rb loff sl) 64 (.sluXmit sl 3)) ∧
     (∀ sl, issues (.sluWait c tk rb loff sl) 64 (.sluWait sl)) ∧
     issues (.brnBatch c tk rb loff) 64 .brnBatch ∧
     (∀ lx slot, issues (.xtlBind c tk rb loff lx slot) 64 (.xtlBind lx slot)) ∧
     (∀ lx group, issues (.xtlEntry c tk rb loff lx group) 64 (.xtlEntry lx group)) ∧
     (∀ lx slot, issues (.xtlInit c tk rb loff lx slot) 64 (.xtlInit lx slot)) ∧
     (∀ lx slot, issues (.xtlGather c tk rb loff lx slot) 64 (.xtlGather lx slot))) ∧
  (∀ (s : State) (c : CoreIx) (tk : TokIx) (rb : RegIx),
     let k := s.core[c]
     let issues (i : Instr) (v : BitVec 64) (op : UnitOp) : Prop :=
       let cmd : UnitCmd := ⟨c, tk, op, [], v, s.stepOfCore c⟩
       exec i s = .next (if k.roomFor cmd then s.done c (k.bufferCmd cmd 0 0)
         else s.setCore c { k with stall := some ⟨cmd, 0, 0, op.target, !k.tokenRoom cmd, s.tide.num, false⟩ })
     (s.canIssue c [0] [] = true → issues (.panFillFlush c tk) 0 .panFillFlush ∧
       ∀ lx slot, issues (.xtlUnbind c tk lx slot) 0 (.xtlUnbind lx slot)) ∧
     (s.canIssue c [rb] [] = true →
       (∀ lx f l, issues (.xtlRun c tk rb lx f l) (k.sget rb) (.xtlRun lx f l)) ∧
       ∀ skip, issues (.xtlSeal c tk rb skip) (k.sget rb) (.xtlSeal skip)) ∧
     (∀ st, s.clocked = true → k.stall = some st → k.roomFor st.cmd = true →
       exec (.issueResume c) s = .next (s.done c (({ k with stall := none } : CoreSt).bufferCmd st.cmd st.la st.size))))

/-- COMMAND_ENQUEUE (R154, R245, R246, R421, R629): the oldest command of a core's buffer moves to its unit's queue while that
has room (pan 32, sluice 16, Brine unit 4 batches, crystallizer 64), and stays where it has none; a PAN.TWIN moves to both pans
of the die together, a sluice command that names no sluice to the one with the fewest commands.

GRANULE_COMPLETE (R253): once every core of the granule has halted with its tokens at 0, STATUS and COST are written into
the descriptor in the sequencer's local memory and the cluster is free; until then nothing changes. -/
def Obligations.QueuesAndGranules : Prop :=
  (∀ (s : State) (c : CoreIx) (cmd : UnitCmd) (l : List UnitCmd), s.clocked = true → cmd.core = c →
     let p := clusterOf c
     let d := dieOfCore c
     let k := s.core[c]
     let add (q : PanSt) : PanSt := { q with queue := q.queue ++ [cmd] }
     (k.bufPan = cmd :: l →
       (cmd.tokens.length = 1 → exec (.commandEnqueue c .pan) s = .next (if s.pan[p].queue.length < 32 then
           { s.setCore c { k with bufPan := l } with pan := s.pan.set p (add s.pan[p]) }
         else s)) ∧
       (cmd.tokens.length = 2 → exec (.commandEnqueue c .pan) s =
         .next (if s.pan[p].queue.length < 32 ∧ s.pan[twinOf p].queue.length < 32 then
           { s.setCore c { k with bufPan := l } with
             pan := (s.pan.set p (add s.pan[p])).set (twinOf p) (add s.pan[twinOf p]) }
         else s))) ∧
     (∀ i : SluIx, k.bufSlu = cmd :: l →
       (cmd.op.sluSel = .any ∧ s.fewest (s.healthySlu p) = some i ∨
         ∃ j : Fin 4, cmd.op.sluSel = .sl j ∧ (s.healthySlu p)[j.val]? = some i) →
       exec (.commandEnqueue c .slu) s = .next (if s.slu[i].queue.length < 16 then
           { s.setCore c { k with bufSlu := l } with
             slu := s.slu.set i { s.slu[i] with queue := s.slu[i].queue ++ [cmd] } }
         else s)) ∧
     (k.bufBrn = cmd :: l →
       exec (.commandEnqueue c .brn) s = .next (if s.brn[d].queue.length + s.brn[d].batches.length < 4 then
           { s.setCore c { k with bufBrn := l } with
             brn := s.brn.set d { s.brn[d] with queue := s.brn[d].queue ++ [(cmd, s.tide.num)] } }
         else s)) ∧
     (∀ x : XtlIx, k.bufXtl = cmd :: l → (∀ skip, cmd.op ≠ .xtlSeal skip) →
       s.xtlOf (s.partOfDie (c.val / 32)) cmd.op.xtlLx = some x → s.xtl[x].resetting = false →
       exec (.commandEnqueue c .xtl) s = .next (if s.xtl[x].queued < 64 then
           ({ s.setCore c { k with bufXtl := l } with
             xtl := s.xtl.set x { s.xtl[x] with queue := s.xtl[x].queue ++ [cmd] } } : State).xtlAdvance x
         else s))) ∧
  (∀ (s : State) (cl : ClusterIx) (cost : BitVec 32) (g : Granule), s.disp[cl].running = some g →
     let free : State := { s with disp := s.disp.set cl { s.disp[cl] with running := none, overrun := false, bars := [] } }
     let status : Byte := BitVec.ofNat 8 (1 + (if g.overran then 2 else 0) + if g.killed then 4 else 0)
     (s.granuleDone g = true →
       (∀ q, s.sequencer cl = some q → exec (.granuleComplete cl cost) s = .next (free.setCore q
         ((s.core[q].localStore (g.addr + 26) [status]).localStore (g.addr + 28) (leBytes 4 cost.toNat)))) ∧
       (s.sequencer cl = none → exec (.granuleComplete cl cost) s = .next free)) ∧
     (s.granuleDone g = false → exec (.granuleComplete cl cost) s = .next s))

/-- Raising an event (R581, R583): the record of tide number, nanosecond, code, source and payload joins the FIFO of its die,
which holds 4096; a record that finds it full is counted and dropped. -/
def Obligations.EventsAreRecorded : Prop :=
  ∀ (s : State) (u : Src) (code : Nat) (payload : BitVec 64) (d : DieIx), d.val = u.die % 4 →
    (s.fifo[d].length < 4096 → s.raise u code payload =
      { s with fifo := s.fifo.set d (s.fifo[d] ++ [⟨s.tide.num, s.tide.ns, BitVec.ofNat 16 code, u.bits, payload⟩]) }) ∧
    (4096 ≤ s.fifo[d].length → ∃ t, s.raise u code payload = t ∧ t.fifo = s.fifo ∧
      t.fifoDrop = s.fifoDrop.set d (s.fifoDrop[d] + 1) ∧ t = { s with fifoDrop := t.fifoDrop, ctr := t.ctr })

/-- Number formats (R54, R62): every code of a finite value is what writing its value gives back, in each floating-point layout
of the device, with no overflow.

The reference order (R74, R75, R78): a product continued from a partial result of a multiple of 32 terms is the product in
one piece, on the floating-point path and on the integer path; a segment of zeros, or no product at all, is +0. -/
def Obligations.FormatsAndReferenceOrder : Prop :=
  (∀ f ∈ [fFP32, fFP16, fBF16, fE4M3, fE5M2, fE2M3, fE3M2, fE2M1, fFP64], ∀ c < 2 ^ f.width,
     (f.decode c).isFin = true → f.write .rne (f.decode c) = (c, false)) ∧
  ((∀ (a b : List Val) (c : Option Nat), a ≠ [] → a.length % 32 = 0 → refDot (a ++ b) c = refDot b (some (refDot a c))) ∧
   (∀ (a b : List Int) (c : Option Int), intDot (a ++ b) c = intDot b (some (intDot a c))) ∧
   refDot [] none = 0 ∧ (∀ n, 0 < n → refDot (List.replicate n (vZero false)) none = 0))

/-- PAN_COMMAND_BEGIN (R109, R112, R113, R123 to R125, R136, R140, R144, R155, R305, R629): a free pan with nothing fired takes the
command at the head of its queue. With no engine column left it is refused with cause 5, with an unloaded rake slot with cause
3; otherwise PAN.RAKE (once no command in progress and no batch uses its slot), PAN.LDS, PAN.STR and PAN.MM are then in
progress, PAN.FILL is in a batch, or done when it has no columns, and PAN.FILLF has fired every batch, those due first. -/
def Obligations.PanCommandsBegin : Prop :=
  ∀ (s : State) (p : ClusterIx) (cmd : UnitCmd) (rest : List UnitCmd),
    let q := s.pan[p]
    s.clocked = true → q.free = true → q.fired = [] → q.queue = cmd :: rest →
    let x := s.panCtx p cmd.core.val
    let begins (k : List PanPass) : Prop :=
      ∃ t r, exec (.panCommandBegin p) s = .next t ∧ t.pan[p].running = some r ∧ r.cmd = cmd ∧ r.passes = k ∧ r.acc = [] ∧
        t.pan[p].queue = rest ∧ t.core = s.core ∧ t.mem = s.mem
    let refused (cause : Nat) (slot : Slot) : Prop :=
      exec (.panCommandBegin p) s = .next ((s.dequeuePan p).refusePan p cmd (bad1001 cause cmd.core.val slot))
    (∀ slot, cmd.op = .panRake slot →
      (q.width = 0 → refused 5 (.slot slot)) ∧
      (let busy : Bool := q.batches.any (fun b => b.reqs.any (fun r => r.cmd.op.slots.contains (.slot slot))) ||
         (q.running.toList ++ q.ending).any (fun (r : PanRun) => r.cmd.op.slots.contains (.slot slot))
       q.width ≠ 0 → if busy then exec (.panCommandBegin p) s = .next s
        else if rakeInvalid (blockBytes cmd.block) then refused 4 (.slot slot) else begins [])) ∧
    (cmd.op = .panFillFlush → (q.width = 0 → refused 5 .raw) ∧
      (q.width ≠ 0 → q.batches.Nodup → ∃ t : State, exec (.panCommandBegin p) s = .next (t.finish cmd false) ∧
        t = { s with pan := t.pan, ctr := t.ctr } ∧
        (let due (b : Batch) : Bool := decide (b.tmo ≠ 0 ∧ b.since.toNat + b.tmo ≤ s.tide.num.toNat)
         t.pan = s.pan.set p { ({ q with queue := rest } : PanSt).settleStripe with
          batches := []
          fired := q.batches.filter due ++ q.batches.filter (fun b => !due b) }))) ∧
    (∀ turn narrow sel, cmd.op = .panLds turn narrow sel → (q.width = 0 → refused 5 .raw) ∧
      ∀ j, q.width ≠ 0 → (x.buildLds q (s.foldPolicy p) cmd turn narrow sel).1 = .ok j → begins []) ∧
    (∀ swap win slot, cmd.op = .panStr swap win slot → (q.width = 0 → refused 5 slot) ∧
      (q.width ≠ 0 → q.slotMissing slot = true → refused 3 slot) ∧
      (q.width ≠ 0 → q.slotMissing slot = false → (if swap then q.back else q.front) = none → refused 2 slot) ∧
      ∀ tile j, q.width ≠ 0 → q.slotMissing slot = false → (if swap then q.back else q.front) = some tile →
        (x.buildStr q cmd win slot (q.slotWords slot) tile).1 = .ok j → begins j.1.passes) ∧
    (∀ turn win slot sel, cmd.op = .panMm turn win slot sel → (q.width = 0 → refused 5 slot) ∧
      (q.width ≠ 0 → q.slotMissing slot = true → refused 3 slot) ∧
      ∀ j, q.width ≠ 0 → q.slotMissing slot = false →
        (x.buildMm q (s.foldPolicy p) cmd turn win slot sel (q.slotWords slot)).1 = .ok j → begins j.1.passes) ∧
    (∀ turn slot, cmd.op = .panFill turn slot → (q.width = 0 → refused 5 slot) ∧
      (q.width ≠ 0 → q.slotMissing slot = true → refused 3 slot) ∧
      ∀ f, q.width ≠ 0 → q.slotMissing slot = false →
        (x.checkFill q (s.foldPolicy p) cmd slot (q.slotWords slot)).1 = .ok f →
        (cmd.word 4 = 0 → ∃ t : State, exec (.panCommandBegin p) s = .next (t.finish cmd false) ∧ t.pan[p].queue = rest ∧
          t.pan[p].batches = q.batches) ∧
        (cmd.word 4 ≠ 0 → ∃ t, exec (.panCommandBegin p) s = .next t ∧ t.pan[p].queue = rest ∧ t.pan[p].running = q.running ∧
          ∃ b ∈ t.pan[p].batches ++ t.pan[p].fired, f ∈ b.reqs))

/-- PAN_PASS_COMPLETE (R96, R111, R112, R130, R138, R147): a command in progress accumulates the pass's results in the store it
keeps and goes on to its other passes, under the TALLY_EN then in force; the last pass of a PAN.MM leaves tiles of
unspecified values; a gather side whose rows of dY have not all come waits. Nothing outside the pans, their counts and the
integrity records changes.

PAN_COMMAND_COMPLETE (R123, R136, R305, R330): the oldest command with no pass left completes. PAN.RAKE has replaced its slot,
PAN.LDS has its tile in BACK, and PAN.MM and PAN.STR have performed the writes of the rake; the token is signalled, with error
status and a deferred trap when the command met a fault. -/
def Obligations.PanWork : Prop :=
  (∀ (s : State) (p : ClusterIx) (ups : List Upset) (r : PanRun) (j : PanJob) (ps : PanPass) (rest : List PanPass),
     s.pan[p].running = some r → r.job = some j → r.passes = ps :: rest → s.pan[p].held = [] → s.link.unreachable = [] →
     let x : XCtx := { (s.panCtx p r.cmd.core.val).resume r.notes with stripe := r.stripe, stripes := s.pan[p].stripes }
     let o := (x.runPass (r.passJob j) ps ups r.tally (PassOut.start r.acc r.pend)).1
     (r.waitsBus j ps = true → exec (.panPassComplete p ups) s = .next s) ∧
     (r.waitsBus j ps = false → rest ≠ [] →
       ∃ t u, exec (.panPassComplete p ups) s = .next t ∧ t.pan[p].running = some u ∧ u.passes = rest ∧ u.acc = o.acc ∧
         u.pend = o.pend ∧ u.tally = (s.reg (panReg p 8)).getLsbD 0 ∧
         u.cmd = r.cmd ∧ u.job = some j ∧ t.mem = s.mem ∧ t.core = s.core) ∧
     (∀ turn win slot sel, r.cmd.op = .panMm turn win slot sel → r.waitsBus j ps = false → rest = [] →
       ∃ t u, exec (.panPassComplete p ups) s = .next t ∧ t.pan[p].running = some u ∧ u.passes = [] ∧ u.acc = o.acc ∧
         t.pan[p].front = some j.lastTile ∧ t.pan[p].back = some j.lastTile ∧ j.lastTile.known = false ∧
         t.mem = s.mem ∧ t.core = s.core)) ∧
  (∀ (s : State) (p : ClusterIx) (r : PanRun), s.pan[p].completing = some r →
     let q := s.pan[p]
     let x := (s.panCtx p r.cmd.core.val).resume r.notes
     let answer (t : State) (bad : Option Bad) : State := match bad with
       | some b => t.refuse r.cmd b.1 b.2
       | none => t.finish r.cmd false
     (∀ slot, r.cmd.op = .panRake slot → exec (.panCommandComplete p) s =
       .next (({ s with pan := s.pan.set p { q.completed with slots := q.slots.set slot (some r.cmd.block) } } : State).finish
         r.cmd false)) ∧
     (∀ turn narrow sel, r.cmd.op = .panLds turn narrow sel → exec (.panCommandComplete p) s =
       .next (answer { x.close with pan := s.pan.set p { q.completed with back := r.tile, preloaded := none } } x.badEnd)) ∧
     (∀ j, r.job = some j → j.role = 0 →
       ((∃ turn win slot sel, r.cmd.op = .panMm turn win slot sel) ∨ ∃ swap win slot, r.cmd.op = .panStr swap win slot) →
       let y := (x.finishPasses p r j).2
       exec (.panCommandComplete p) s = .next ((answer { y.close with pan := y.close.pan.set p y.close.pan[p].completed }
         y.badEnd).settleRecs (panDie p))) ∧
     (q.ending = [] → q.completed.running = none ∧ q.completed.ending = []) ∧
     (∀ l, q.ending = r :: l → q.completed.running = q.running ∧ q.completed.ending = l))

/-- FILL_TIMEOUT (R133): every batch open for its TIMEOUT fires, in the order opened, and is counted. PAN_CLOCK_GATE (R114): a pan
with no pass in flight gates its clocks.

How a unit ends a command (R241, R242, R255, R256): the completion leaves for the token with its status, the command no longer
counts as outstanding; a refusal also sends deferred cause 0x08 with the event's code and payload. A core that waits for nothing
and is not being killed is otherwise as it was, and so is everything else. -/
def Obligations.PanTimersAndAnswers : Prop :=
  (∀ (s : State) (p : ClusterIx),
     let q := s.pan[p]
     let due (b : Batch) : Bool := decide (b.tmo ≠ 0 ∧ b.since.toNat + b.tmo ≤ s.tide.num.toNat)
     (∃ t, exec (.fillTimeout p) s = .next t ∧ t = { s with pan := t.pan, ctr := t.ctr } ∧
       t.pan = s.pan.set p { q with
         batches := q.batches.filter (fun b => !due b)
         fired := q.fired ++ q.batches.filter due }) ∧
     (q.running.any (fun r => !r.passes.isEmpty) = false →
       exec (.panClockGate p) s = .next { s with pan := s.pan.set p { q with gated := true } }) ∧
     (q.running.any (fun r => !r.passes.isEmpty) = true → exec (.panClockGate p) s = .next s)) ∧
  (∀ (s : State) (cmd : UnitCmd) (err : Bool) (code : Nat) (payload : BitVec 64),
     let k := s.core[cmd.core]
     k.wait = none → k.kill = false →
       s.finish cmd err = s.setCore cmd.core (({ k with toksIn := k.toksIn ++ [(cmd.tk, err)] } : CoreSt).doneOne cmd.op.target) ∧
       s.refuse cmd code payload = s.setCore cmd.core (({ k with
         toksIn := k.toksIn ++ [(cmd.tk, true)]
         recsIn := k.recsIn ++ [(⟨8, BitVec.ofNat 16 code, payload⟩ : TrapRec)] } : CoreSt).doneOne cmd.op.target))

/-- REPLAY_RUN, THIRD_RUN and WRITE_BACK (R509 to R514): a suspect unit without a candidate pan is UNREPLAYABLE; operand
signatures that differ decide OPERANDS_CHANGED; a result signature equal to the original's decides CONFIRMED, one equal to the
replay's alone goes on to the write-back; three different ones decide FAILED. REPLAY_RECORD_FREED gives a free record to the
lowest pan of the die that waits. -/
def Obligations.ReplayDecisions : Prop :=
  ∀ (s : State) (d : DieIx) (i : Fin 16) (ups : List Upset) (r : RepRec),
    let cs := s.candidates r.pan
    let ran (p : ClusterIx) : State := { (s.runUnit p r ups).2.s with mem := s.mem, poison := s.poison }.countRun p (s.runUnit p r ups).1
    (s.int.recs[d][i.val]? = some r →
      (r.phase = .replay →
        (cs = [] → exec (.replayRun d i ups) s = .next (s.decideUnit d r 5 [])) ∧
        ∀ p l o, cs = p :: l → s.pan[p].passing = false → (s.runUnit p r ups).1 = some o →
          let u := { r with replayPan := some p }
          let t := (ran p).putRec d r u
          exec (.replayRun d i ups) s = .next (
            if o.sigs.op ≠ r.sigs.op then t.decideUnit d u 4 []
            else if o.sigs.res = r.sigs.res then t.decideUnit d u 1 r.ovf
            else t.putRec d u { u with phase := .third, repSigs := o.sigs, repEngines := o.engines })) ∧
      (r.phase = .third →
        (cs.filter (fun p => some p ≠ r.replayPan) = [] → exec (.thirdRun d i ups) s = .next (s.decideUnit d r 5 [])) ∧
        ∀ p l o, cs.filter (fun p => some p ≠ r.replayPan) = p :: l → s.pan[p].passing = false → (s.runUnit p r ups).1 = some o →
          let u := { r with thirdPan := some p }
          let t := (ran p).putRec d r u
          exec (.thirdRun d i ups) s = .next (
            if o.sigs.op ≠ r.sigs.op then t.decideUnit d u 4 []
            else if o.sigs.res = r.sigs.res then t.decideUnit d u 1 r.ovf
            else if o.sigs.res = r.repSigs.res then t.putRec d u { u with phase := .writeBack }
            else t.decideUnit d u 3 [])) ∧
      (r.phase = .writeBack → cs = [] → exec (.writeBack d i ups) s = .next (s.decideUnit d r 5 [])) ∧
      (r.phase = .writeBack → ∀ p o, r.replayPan = some p → cs.contains p = true → s.pan[p].passing = false →
        (s.runUnit p r ups).1 = some o → o.sigs.res = r.repSigs.res →
        let x := (s.runUnit p r ups).2
        let w := o.plans.foldl XCtx.put { x with s := (x.s.countRun p (some o)).count (panReg p 0x470) o.ovfs }
        w.fault = none → exec (.writeBack d i ups) s = .next (w.close.decideUnit d r 2 o.ovf))) ∧
    (∀ (p : ClusterIx) l, s.int.recs[d].length < 16 → s.pan[p].held = r :: l →
      (let e : ClusterIx := Fin.ofNat 8 (2 * d.val)
       p = e ∨ p = twinOf e ∧ s.pan[e].held = []) →
      r.contOver = false → (∀ o ∈ s.int.recs[d], (o.contOver && o.phase == .replay) = false) →
      exec (.replayRecordFreed d) s = .next { s with
        pan := s.pan.set p { s.pan[p] with held := l }
        int := { s.int with recs := s.int.recs.set d (s.int.recs[d] ++ [r]) } })

/-- TIDE_EDGE (R30, R31, R34, R35, R36, R45): the tide number rises by one and the offset starts at 0, with at most 2 ns taken
from a slew and the whole phase of a step decided before; the edge that ends the stepped tide takes the number decided with
it; nothing happens while the tide unit does not run; in M3 nothing else changes; in the other states the writes that wait
for the edge have taken effect, and the energy and the compute wait of the window are counted.

Dispatch at an edge (R42, R44, R250, R252, R254, R554): in M0 an idle cluster whose head descriptor is in order starts it on the cores of its
mask, each with PC = ENTRY, s1 = ARG, s2 = its logical index and ERR of its tokens clear; a descriptor that is not in order holds
the cluster, and outside M0 nothing starts; a granule that still runs has overrun in every state. -/
def Obligations.TideEdge : Prop :=
  (∀ (s : State) (e : EdgeEnv),
     let cut := max (-32) (min 32 s.tide.slew)
     let phi : Int := match s.tide.step, s.tide.ppsPhase with
       | some q, _ => q.1
       | none, some p => 16 * p
       | none, none => 0
     let next (n : BitVec 64) : TideSt := { s.tide with
       num := n
       ns := 0
       adj := -cut - phi
       slew := s.tide.slew - cut
       step := none
       stepping := s.tide.step.map (fun (q : Int × BitVec 64 × BitVec 32) => q.2)
       ppsPhase := none }
     (s.tideRuns = false → exec (.tideEdge e) s = .next s) ∧
     (s.tideRuns = true → s.tide.ppsAwait = none →
       (s.tide.stepping = none → s.fld 0x100000 7 4 = 3 → exec (.tideEdge e) s = .next { s with
         tide := next (s.tide.num + 1)
         pwr := { s.pwr with exitEdge := s.pwr.exitEdge || s.pwr.leaving.isSome } }) ∧
       (s.tide.stepping = none → s.fld 0x100000 7 4 ≠ 3 → s.wf = true → ∃ t, exec (.tideEdge e) s = .next t ∧
         t.tide = { next (s.tide.num + 1) with join := none } ∧ t.staged = [] ∧
         mapGet zero64 t.edgeCtr 0x100510 = mapGet zero64 s.ctr 0x100510 + BitVec.ofNat 64 e.wait.toNat ∧
         t.board.vin = e.vin.toNat ∧ t.int.flaws = e.flaws) ∧
       (∀ m off, s.tide.stepping = some (m, off) → ∃ t, exec (.tideEdge e) s = .next t ∧ t.tide.num = m ∧ t.tide.ns = 0 ∧
         t.tide.adj = -cut - phi))) ∧
  (∀ (s : State) (c : ClusterIx),
     let q := s.disp[c]
     let u := s.dispatch c
     (∀ g, q.running = some g → u.disp[c].running = some { g with overran := true } ∧ u.disp[c].overrun = true ∧ u.core = s.core ∧
       (s.wf = true → mapGet zero64 u.ctr (0x1180 + 0x10 * c.val) = mapGet zero64 s.ctr (0x1180 + 0x10 * c.val) + 1)) ∧
     (∀ a b l, q.running = none → s.ringEntries c = (a, b) :: l →
       let mask := recNat b 24 2
       let on (i : Nat) : Bool := decide (i < 16) && mask.testBit i
       (s.fld 0x100000 7 4 ≠ 0 → u.disp[c].running = none ∧ u.core = s.core) ∧
       (s.fld 0x100000 7 4 = 0 → s.holdReason c b = 0 →
         (∃ g, u.disp[c].running = some g ∧ g.addr = a ∧ g.step = BitVec.ofNat 64 (recNat b 0 8) ∧ g.tide = s.tide.num ∧
           g.cores = ((List.range 16).filter on).filterMap (s.physOf c)) ∧
         (∀ i k, on i = true → s.physOf c i = some k → (∀ j, j ≠ i → s.physOf c j ≠ some k) →
           u.core[k].pc = BitVec.ofNat 64 (recNat b 8 8) ∧ u.core[k].mode = .running ∧
           u.core[k].sget 1 = BitVec.ofNat 64 (recNat b 16 8) ∧ u.core[k].sget 2 = BitVec.ofNat 64 i ∧
           ∀ j : TokIx, u.core[k].tok[j] = { s.core[k].tok[j] with err := false }) ∧
         (∀ k, (∀ i, on i = true → s.physOf c i ≠ some k) → u.core[k] = s.core[k])) ∧
       (s.fld 0x100000 7 4 = 0 → s.holdReason c b ≠ 0 → u.disp[c].running = none ∧ u.disp[c].blocked = true ∧ u.core = s.core)))

/-- SNAP_REQ and its snapshot, TIDE_PERIOD, and the warnings of stalls and waits (R33, R49 to R51, R247, R312, R594, R628): a
snapshot armed ahead copies every counter as it stood at the edge to its shadow; one asked for a tide that is past is late; a
period is staged for the edge, and refused with event 0x0107 under JOB_LOCK.

PPS (R39 to R41): an accepted edge sets the slew to its error and, on a whole second and within 25 ns, PPS_LOCKED; under
JOB_LOCK it does no more. Not locked, an error above a microsecond or an edge on no whole second steps the phase, and the
number follows at the edge of a later pulse that falls on a tide edge, a whole second; with no pulse for two seconds
slewing and lock end. -/
def Obligations.TideRegistersAndPps : Prop :=
  ((∀ (s : State) (t v : BitVec 64),
     let armed : State := if t.toNat ≤ s.tide.num.toNat then (s.setFld 0x1048 2 2 1).raiseMod 0 0x106 t
       else (s.setReg 0x1040 t).setFld 0x1048 0 0 1
     exec (.snapReqWrite t) s = .next armed ∧ exec (.metricsSnapshotArm t) s = .next armed ∧
     exec (.tidePeriodWrite v) s = .next (if s.fld 0x1030 0 0 = 1 then s.raiseMod 0 0x107 (v &&& 3)
       else { s with staged := assocPut 0x1000 (v &&& 3) s.staged }) ∧
     (s.wf = true → s.fld 0x1048 0 0 = 1 → (s.reg 0x1040).toNat ≤ s.tide.num.toNat →
       ∃ u, exec .snapshotTaken s = .next u ∧ u.shadow = s.edgeCtr ∧ u.tide = { s.tide with snapSeen := some [] } ∧ u.reg 0x1010 = s.tide.num ∧ u.fld 0x1048 0 0 = 0 ∧
         u.fld 0x1048 1 1 = 1 ∧ u = { s with shadow := u.shadow, regs := u.regs, tide := u.tide } ∧
         ∀ off, off ≠ 0x1010 → off ≠ 0x1048 → u.reg off = s.reg off)) ∧
   (∀ (s : State) (c : CoreIx),
     let k := s.core[c]
     (∀ st, k.stall = some st →
       let w := s.fld (dispReg (c.val / 16) 0) 31 0
       let code := if st.token then 7 else match st.target with
         | .pan => 3
         | .slu => 4
         | .brn => 5
         | .xtl => 6
       exec (.issueStallWarn c) s = .next (if w ≠ 0 ∧ st.warned = false ∧ st.since.toNat + w ≤ s.tide.num.toNat then
           (s.setCore c { k with stall := some { st with warned := true } }).raise (s.coreSrc c.val) 0x1112
             (BitVec.ofNat 64 (code + 256 * c.val))
         else s)) ∧
     (∀ w a b, k.wait = some w → w.kind.code = some (a, b) →
       let n := s.fld (cacheBase (c.val / 16) + 8) 31 0
       exec (.syncWaitWarn c) s = .next (if n ≠ 0 ∧ w.warned = false ∧ w.since.toNat + n ≤ s.tide.num.toNat then
           (s.setCore c { k with wait := some { w with warned := true } }).raise (s.coreSrc c.val) 0x1240
             (pack [(a, 0), (b, 4), (c.val, 8)])
         else s)))) ∧
  (∀ (s : State) (err : BitVec 32),
     let e := err.toInt
     let per := 1000000 / s.periodUs
     let near := if 0 < e then s.tide.num.toNat + 1 else s.tide.num.toNat
     let far := e < -1000 ∨ 1000 < e
     let close := -25 ≤ e ∧ e ≤ 25
     let seen : TideSt := { s.tide with ppsLast := s.tide.num }
     let slewed : TideSt := { seen with slew := 16 * e }
     let step : State := { s with tide := { seen with slew := 0, ppsPhase := some e, ppsAwait := some e, ppsSet := false } }
     let lock (q : State) : State := q.setFld 0x1020 7 7 (if -25 ≤ e ∧ e ≤ 25 ∧ near % per = 0 then 1 else 0)
     (s.ppsOn = false → exec (.ppsEdge err) s = .next s ∧ exec .ppsAbsent s = .next s) ∧
     (s.ppsOn = true →
       exec .ppsAbsent s = .next ((({ s with tide := { s.tide with slew := 0 } } : State).setFld 0x1020 7 7 0).raiseMod 0 0x105
         s.tide.ppsLast) ∧
       (s.fld 0x1030 0 0 = 1 → exec (.ppsEdge err) s =
         .next (lock { s with tide := { slewed with ppsPhase := none, ppsAwait := none, ppsSet := false } })) ∧
       (s.fld 0x1030 0 0 ≠ 1 → s.tide.ppsAwait = none →
         (s.fld 0x1020 7 7 = 0 → (far ∨ near % per ≠ 0) → exec (.ppsEdge err) s = .next step) ∧
         (¬ (s.fld 0x1020 7 7 = 0 ∧ (far ∨ near % per ≠ 0)) → exec (.ppsEdge err) s = .next (lock { s with tide := slewed }))) ∧
       (s.fld 0x1030 0 0 ≠ 1 → s.tide.ppsAwait.isSome = true →
         (far → exec (.ppsEdge err) s = .next step) ∧
         (¬ far → ¬ close → exec (.ppsEdge err) s = .next { s with tide := slewed }) ∧
         (close → 0 < e → exec (.ppsEdge err) s = .next { s with tide := { slewed with ppsSet := true } }) ∧
         (close → e ≤ 0 → ∃ t m, exec (.ppsEdge err) s = .next t ∧ t.tide.num = BitVec.ofNat 64 m ∧ m % per = 0 ∧
           s.tide.num.toNat ≤ m ∧ m < s.tide.num.toNat + per ∧ t.tide.ppsAwait = none))))

/-- The arbiter's grants (R536, R537): within the budget, or the floors where those exceed it; each domain gets at least its floor
and no more than the larger of floor and demand; and all it asks when everything asked fits. -/
def Obligations.GrantsStayInBudget : Prop :=
  ∀ (b f0 f1 f2 d0 d1 d2 : Nat) (o : List Nat), o.Perm [0, 1, 2] →
    let f := [f0, f1, f2]
    let d := [d0, d1, d2]
    let g := grants b f d o
    g.length = 3 ∧ g.sum ≤ max b f.sum ∧
    (∀ i < 3, f.getD i 0 ≤ g.getD i 0 ∧ g.getD i 0 ≤ max (f.getD i 0) (d.getD i 0)) ∧
    ((max f0 d0) + (max f1 d1) + (max f2 d2) ≤ b → g = [max f0 d0, max f1 d1, max f2 d2])

/-- Drift control, and the ceilings of a die (R543 to R548): DRIFT_ENTER after 50 windows that disagree, DRIFT_EXIT after 1000 that
agree; a thermal ceiling lifts a point after 1000 cool tides; 102 °C puts the die at OP7 at once; a droop stretches the clock,
after 64 cycles the die steps a point slower or at OP7 holds row entry; recovery ends both.

The schedule of the cap, the slack latch and the energy marks (R534, R549, R552, R553): CAP takes SCHED's value when its edge has
come; a target more than 2^20 tides ahead is refused; a mark latches the energy of the edge that reaches it. -/
def Obligations.ThermalAndSchedules : Prop :=
  ((∀ s : State,
     exec .driftEnter s = .next (if s.fld 0x100000 2 2 = 0 ∧ 50 ≤ s.pwr.disagree then
       (({ s.setFld 0x100000 2 2 1 with pwr := { s.pwr with agree := 0 } } : State)).raiseMod 1 0x203
         (pack [(s.fld 0x100040 63 32, 0), (s.fld 0x100040 31 0, 32)]) else s) ∧
     exec .driftExit s = .next (if s.fld 0x100000 2 2 = 1 ∧ 1000 ≤ s.pwr.agree then
       (({ s.setFld 0x100000 2 2 0 with pwr := { s.pwr with kNum := 1, kDen := 1, disagree := 0 } } : State)).raiseMod 1 0x204
         s.tide.num else s)) ∧
   (∀ (s : State) (d : DieIx) (tj : BitVec 8) (n : BitVec 32),
     let q := s.pwr.die[d]
     let put (s : State) (q : DiePwr) : State := { s with pwr := { s.pwr with die := s.pwr.die.set d q } }
     (0 < q.thermCeil → 1000 ≤ q.cool → ∃ t, exec (.thermalLift d) s = .next t ∧
       t.pwr = { s.pwr with die := s.pwr.die.set d { q with thermCeil := q.thermCeil - 1, cool := 0 } } ∧ t.regs = s.regs ∧ t.core = s.core) ∧
     (max 1 (s.fld 0x100180 63 48) ≤ q.droopHeld → exec (.droopCeilingLift d) s = .next (put s { q with droopCeil := 0 })) ∧
     (102 ≤ tj.toNat → ∃ t, exec (.thermalEmergency d tj) s = .next t ∧ t.pwr = { s.pwr with die := s.pwr.die.set d { q with
       tj := tj.toNat, thermCeil := 7, op := 7, faster := none, emergency := true } } ∧ t.core = s.core ∧ t.mem = s.mem ∧ t.regs = s.regs) ∧
     (tj.toNat < 102 → exec (.thermalEmergency d tj) s = .next s) ∧
     (q.dip = false → exec (.droopDetect d) s = .next (put s { q with dip := true, stretching := true })) ∧
     (q.stretching = true → ∃ t, exec (.droopEscalate d) s = .next t ∧ t.pwr = { s.pwr with die := s.pwr.die.set d { q with
         stretched := q.stretched + 64
         stretching := false
         holding := decide (7 ≤ q.op)
         op := min 7 (q.op + 1)
         faster := none
         escCeil := if 7 ≤ q.op then q.escCeil else q.op + 1 } } ∧
       t = { s with pwr := t.pwr, ctr := t.ctr, fifo := t.fifo, fifoDrop := t.fifoDrop }) ∧
     (q.dip = true → ∃ t, exec (.droopRecovery d n) s = .next t ∧ t = { s with pwr := t.pwr, ctr := t.ctr } ∧
       t.pwr = { s.pwr with die := s.pwr.die.set d { q with
         dip := false
         stretching := false
         holding := false
         stretched := if q.stretching then q.stretched + min 64 n.toNat else q.stretched } }))) ∧
  ((∀ (s : State) (v : BitVec 64),
     exec .capScheduleApply s = .next (if s.fld 0x100000 3 3 = 1 ∧ s.pwr.capTarget.toNat ≤ s.tide.num.toNat then
       (s.setFld 0x100010 8 0 (s.fld 0x100018 8 0)).setFld 0x100000 3 3 0 else s) ∧
     (s.awake = true →
       let w := v &&& 0xFFFFFFFFFFFF01FF
       let now := s.tide.num.toNat
       let ahead := (bitsOf v 63 16 + 2 ^ 48 - (now + 1) % 2 ^ 48) % 2 ^ 48 + 1
       exec (.pwrCapSchedWrite v) s = .next (if 2 ^ 20 < ahead then s.raiseMod 1 0x20A w
         else { (s.setReg 0x100018 w).setFld 0x100000 3 3 1 with pwr := { s.pwr with capTarget := BitVec.ofNat 64 (now + ahead) } }) ∧
       (now + ahead) % 2 ^ 48 = bitsOf v 63 16 ∧ 1 ≤ ahead) ∧
     (let now := mapGet zero64 s.edgeCtr 0x100510
      exec .balSlackLatch s = .next (if s.tide.num.toNat % 100 ≠ 0 ∨ s.pwr.waitTide = s.tide.num then s
       else { s.setReg 0x100190 (pack [((now - s.pwr.waitBase).toNat % 2 ^ 32, 0), (s.tide.num.toNat % 2 ^ 32, 32)]) with
         pwr := { s.pwr with waitBase := now, waitTide := s.tide.num } }))) ∧
   (∀ (s : State) (p : PartIx) (t : BitVec 64),
     let r := 0x100240 + 0x10 * p.val
     (s.awake = true → exec (.energyMarkWrite p t) s = .next (if t.toNat ≤ s.tide.num.toNat then
       s.setFld 0x100000 (16 + p.val) (16 + p.val) 1 else (s.setReg r t).setFld 0x100000 (8 + p.val) (8 + p.val) 1)) ∧
     (s.wf = true → s.fld 0x100000 (8 + p.val) (8 + p.val) = 1 → (s.reg r).toNat ≤ s.tide.num.toNat →
       ∃ u, exec (.energyMarkLatch p) s = .next u ∧ u.reg (r + 8) = mapGet zero64 s.edgeCtr 0x100400 ∧
         u.fld 0x100000 (8 + p.val) (8 + p.val) = 0 ∧ u.fld 0x100000 (12 + p.val) (12 + p.val) = 1 ∧
         u = { s with regs := u.regs, mgmt := u.mgmt, job := u.job })))

/-- Requests for power states, their entries and exits, and the wake sources (R554 to R561): M1 waits for the module to drain and is
entered at an edge; M2 and M3 are entered through an entry during which a source is latched; a source that a state allows
begins its exit; M0 is reached with event 0x0209 counted. M2 keeps no core, pan, sluice, Brine or crystallizer state, and its
retention areas hold unspecified bytes after it; M3 keeps no memory. (Which unspecified value a byte has is the model's free
value, log entry 76.)

The wake sources (R559 to R561): each, where its bit of PWR_WAKE_CFG and its own condition hold, begins the exit of the states
that allow it, with its number in PWR_WAKE. -/
def Obligations.PowerStatesAndWake : Prop :=
  (∀ s : State, s.wf = true →
     let st := s.fld 0x100000 7 4
     let asked (t : Nat) : State := (s.setFld 0x100200 1 0 t).setFld 0x100200 8 8 1
     (s.awake = true →
       (st = 0 → exec .pwrReqM1 s = .next { asked 1 with pwr := { s.pwr with m1Wait := true } }) ∧
       (st = 0 → s.fld 0x1030 0 0 = 0 →
         exec .pwrReqM2 s = .next { (asked 2).setFld 0x100000 7 4 4 with pwr := { s.pwr with m1Wait := false, entering := some 2 } } ∧
         exec .pwrReqM3 s = .next { (asked 3).setFld 0x100000 7 4 4 with pwr := { s.pwr with m1Wait := false, entering := some 3 } }) ∧
       (st = 1 ∨ st = 2 → ∃ t, exec .pwrReqM0 s = .next t ∧ t.fld 0x100000 7 4 = 5 ∧ t.fld 0x100210 11 8 = 6 ∧
         t = { s with regs := t.regs, pwr := { s.pwr with leaving := some st, exitEdge := false } })) ∧
     (s.powered = true → s.fld 0x100210 7 0 = 0 →
       (s.pwr.m1Wait = true → st = 0 → s.tide.ns = 0 → s.drained = true →
         ∃ t, exec .m1Entry s = .next t ∧ t.fld 0x100000 7 4 = 1 ∧ t.pwr = { s.pwr with entering := none, m1Wait := false } ∧
           t = { s with regs := t.regs, pwr := t.pwr, fifo := t.fifo, fifoDrop := t.fifoDrop, ctr := t.ctr }) ∧
       (s.pwr.entering = some 2 → ∃ t, exec .m2EntryComplete s = .next t ∧ t.fld 0x100000 7 4 = 2 ∧ t.pwr.entering = none ∧
         (∀ c : CoreIx, t.core[c] = { CoreSt.reset with mode := if s.core[c].mode = .fenced then .fenced else .halted }) ∧
         (∀ p : ClusterIx, t.pan[p].queue = [] ∧ t.disp[p].running = none) ∧ (∀ i : SluIx, t.slu[i].queue = []) ∧
         (∀ a, a < 0x60000000000 ∨ 0x60040000000 ≤ a → t.byteAt a = s.byteAt a) ∧
         (∀ a, 0x60000000000 ≤ a → a < 0x60040000000 → t.byteAt a = Config.freeByte s.free (a - 0x60000000000))) ∧
       (s.pwr.entering = some 3 → ∃ t, exec .m3EntryComplete s = .next t ∧ t.fld 0x100000 7 4 = 3 ∧ t.poison = [] ∧
         ∀ a, a < 2 ^ 48 → t.byteAt a = Config.freeByte (s.free + 1) a)) ∧
     (s.pwr.leaving = some 1 → s.pwr.exitEdge = true → ∃ t, exec .m1Exit s = .next t ∧ t.fld 0x100000 7 4 = 0 ∧
       t.pwr = { s.pwr with leaving := none } ∧ mapGet zero64 t.ctr 0x100520 = mapGet zero64 s.ctr 0x100520 + 1 ∧
       (s.tide.ns ≠ 0 → ∀ c : CoreIx, t.core[c] = if t.clocked then (s.core[c].settle s.tide.num).settleKill else s.core[c])) ∧
     (s.pwr.leaving = some 2 → ∃ t, exec .m2Exit s = .next t ∧ t.fld 0x100000 7 4 = 0 ∧ t.pwr.leaving = none ∧
       t.pwr.watch = 0 ∧ t.mem = s.mem ∧ ∀ x : XtlIx, t.xtl[x].ready = true) ∧
     (s.pwr.leaving = some 3 → s.board.refclk = true → ∃ t, exec .m3Exit s = .next t ∧ t.board.phase = .boot ∧
       t.tide.num = s.tide.num ∧ t.pwr.leaving = some 3 ∧ t.mem = s.mem.lose 0 (2 ^ 48) s.free ∧ t.pending = s.pending)) ∧
  (∀ (s : State) (p : PortIx) (bits : BitVec 64), s.wf = true → s.powered = true →
     let st := s.fld 0x100000 7 4
     let on (b : Nat) : Prop := s.fld 0x100208 b b = 1
     let leaves (i : Instr) (src : Nat) : Prop :=
       ∃ t, exec i s = .next t ∧ t.fld 0x100000 7 4 = 5 ∧ t.fld 0x100210 11 8 = src ∧
         t.pwr = { s.pwr with leaving := some st, exitEdge := false } ∧ t = { s with regs := t.regs, pwr := t.pwr } ∧
         ((src = 1 ∨ src = 2) → t.fld 0x100210 23 16 = p.val)
     (st = 1 ∨ st = 2 ∨ st = 3 →
       (on 4 → (s.reg 0x100228).toNat ≤ s.tide.num.toNat → leaves .alarmWake 5) ∧ (on 0 → leaves .wakeLLow 4)) ∧
     (st = 2 ∨ st = 3 →
       (on 1 → (s.reg 0x100218).getLsbD p.val = true → s.pwr.watch.getLsbD p.val = true → leaves (.lightWake p) 1) ∧
       (on 2 → bits = s.reg 0x100220 → s.pwr.watch.getLsbD p.val = true → s.pwr.entering = none → leaves (.knockMatch p bits) 2)) ∧
     (st = 3 → on 3 → leaves .mgmtEnergyWake 3) ∧
     (st = 1 → leaves .segmentWake 7))

/-- Writes that the settings ledger counts, and the arbiter's order and floors (R14, R143, R532, R537, R572 to R575): a raise within the
limit appends an entry and sets the register; one beyond it is refused with event 0x0403; one that does not advance has no
effect. PWR_ORDER and PWR_FLOOR wait for the edge. -/
def Obligations.CountedSettings : Prop :=
  ∀ (s : State) (c st : Fin 4) (k : BitVec 5) (p : ClusterIx) (v : BitVec 16) (w : BitVec 64), s.awake = true →
    let used (n : Nat) : Nat := (s.mgmt.ledger.filter (fun e => e.kind == n)).length
    let counted (i : Instr) (kind old new limit off hi : Nat) : Prop :=
      exec i s = .next (if new ≤ old then s
        else if limit ≤ used kind then s.raiseMod 3 0x403 (pack [(kind, 0), (new % 2 ^ 32, 8)])
        else (s.ledgerAdd kind old new).setFld off hi 0 new)
    counted (.pwrClassWrite c) 1 (s.fld 0x100008 1 0) c.val 8 0x100008 1 ∧
    ((st.val = 2 → s.fld 0x300208 4 0 ≠ 0) →
      counted (.secLifecycleWrite st) 5 (s.fld 0x300200 1 0) st.val 3 0x300200 1) ∧
    (k.toNat ≤ 16 → counted (.secOwnerKeyWrite k) 4 (s.fld 0x300208 4 0) k.toNat 16 0x300208 4) ∧
    exec .secDebugUnlock s = .next (if s.fld 0x300210 0 0 = 1 then s
      else if 4 ≤ used 2 then s.raiseMod 3 0x403 (pack [(2, 0), (1, 8)])
      else ((s.ledgerAdd 2 0 1).setFld 0x300210 0 0 1).setFld 0x300000 6 6 1) ∧
    (s.clocked = true → v.toNat % 512 ≤ 259 →
      let same (q : Nat × BitVec 64) : Bool := q.1 == p.val && bitsOf q.2 15 9 == v.toNat / 512
      let held := bitsOf (s.reg (panBase p.val + 0x38)) 15 0
      (held = v.toNat → exec (.panFuseProgWrite p v) s = .next s) ∧
      (held ≠ v.toNat → s.mgmt.fuses.any same = true → exec (.panFuseProgWrite p v) s = .next (s.raiseMod 3 0x403 (pack [(3, 0), (v.toNat, 8)]))) ∧
      (held ≠ v.toNat → s.mgmt.fuses.any same = false → ∃ t, exec (.panFuseProgWrite p v) s = .next t ∧
        t.mgmt.fuses = s.mgmt.fuses ++ [(p.val, v.setWidth 64)] ∧ t.mgmt.ledger.length = s.mgmt.ledger.length + 1 ∧
        t = { s with mgmt := t.mgmt, regs := t.regs })) ∧
    exec (.pwrOrderWrite w) s = .next (if [0, 1, 2].all (fun d => [bitsOf w 5 4, bitsOf w 3 2, bitsOf w 1 0].contains d) then
      { s with staged := assocPut 0x100020 (w &&& 0x3F) s.staged } else s) ∧
    exec (.pwrFloorWrite w) s = .next (if bitsOf w 7 0 ≤ 40 ∧ bitsOf w 15 8 ≤ 40 ∧ bitsOf w 23 16 ≤ 40 ∧
        bitsOf w 7 0 + bitsOf w 15 8 + bitsOf w 23 16 ≤ 68 then
      { s with staged := assocPut 0x100028 (w &&& 0xFFFFFF) s.staged } else s)

/-- The module's input, reset and clock (R529 to R531, R548, R608, R610, R611, R616): an input outside its limits is an excursion, with one event
and alert bit 0; a level held too long, or 105 °C, trips the module, which loses everything outside the island; PWR_EN needs 60 V;
RESET_L keeps memory; without the reference clock the module waits.

BOOT and the heartbeat (R566, R568 to R571): with no slot that passes the checks the module enters RECOVERY with FAULT_L; otherwise
it boots the candidate with the higher VERSION and reaches service in mode SERVICE, or counts the attempt and stays in boot. -/
def Obligations.InputResetBoot : Prop :=
  (∀ (s : State) (vin : BitVec 16) (slot : BitVec 6) (d : DieIx) (tj : BitVec 8) (k : VinTrip),
     let ph := s.board.phase
     let v := vin.toNat
     let trips (i : Instr) : Prop := ∃ t, exec i s = .next t ∧ t.board.phase = .tripped ∧ t.board.log.length = s.board.log.length + 1 ∧
       t.mem = s.mem.lose 0 (2 ^ 48) s.free ∧ (∀ c : CoreIx, t.core[c] = CoreSt.reset) ∧ t.pending = s.pending ∧ t.mgmt.ledger = s.mgmt.ledger
     (ph = .run → s.awake = true → s.pwr.vinOut = false → (5700 ≤ v ∧ v < 6000) ∨ (8000 < v ∧ v ≤ 8400) →
       ∃ t, exec (.vinExcursion vin) s = .next t ∧ t.pwr = { s.pwr with vinOut := true } ∧ t.board.alert.getLsbD 0 = true ∧
         t.board.phase = ph ∧ (s.wf = true → t.fld 0x100000 1 1 = if v < 6000 then 1 else 0) ∧ t.core = s.core ∧ t.mem = s.mem) ∧
     (ph = .run → 6000 ≤ v → v ≤ 8000 → exec (.vinReturn vin slot) s =
       .next { s.setFld 0x100000 1 1 0 with board := { s.board with vin := v }, pwr := { s.pwr with vinOut := false } }) ∧
     (ph = .waitVin → 6000 ≤ v → v ≤ 8000 → s.board.refclk = true →
       ∃ t, exec (.vinReturn vin slot) s = .next t ∧ t.board.phase = .boot ∧ t.board.slotId = slot ∧ t.mem = s.mem.lose 0 (2 ^ 48) s.free) ∧
     (s.islandOn = true → ph ≠ .tripped → trips (.inputTrip k)) ∧
     (s.awake = true → 105 ≤ tj.toNat → trips (.thermalTrip d tj)) ∧
     (ph = .off → v < 6000 → exec (.pwrEnAssert vin slot) s = .next { s with board := { s.board with vin := v, phase := .waitVin } }) ∧
     (ph = .off → 6000 ≤ v → s.board.refclk = true →
       ∃ t, exec (.pwrEnAssert vin slot) s = .next t ∧ t.board.phase = .boot ∧ t.board.slotId = slot ∧ t.mem = s.mem.lose 0 (2 ^ 48) s.free ∧
         ∀ c : CoreIx, t.core[c] = CoreSt.reset) ∧
     (∃ t, exec .pwrEnDeassert s = .next t ∧ t.board.phase = .off ∧ t.mem = s.mem.lose 0 (2 ^ 48) s.free ∧ (∀ c : CoreIx, t.core[c] = CoreSt.reset) ∧
       t.mgmt.ledger = s.mgmt.ledger) ∧
     (s.islandOn = true → ∃ t, exec .resetLAssert s = .next t ∧ t.board.phase = .reset ∧ t.mem = s.mem ∧
       ∀ c : CoreIx, t.core[c] = CoreSt.reset) ∧
     (ph = .reset → s.board.refclk = true → exec (.resetLRelease slot) s =
       .next { s with board := { s.board with slotId := slot, phase := .boot } }) ∧
     (s.awake = true → ∃ t, exec .refclkLoss s = .next t ∧ t.board.phase = .waitRef ∧ t.board.refclk = false ∧ t.mem = s.mem) ∧
     (exec .refclkLock s = .next { s with board := { s.board with
       refclk := true, phase := if ph = .waitRef then .boot else ph } })) ∧
  (∀ (s : State) (e : BootEnv) (v : BitVec 64),
     (s.board.phase = .boot → s.board.d1Failed = false →
       (s.bootSlot = none → ∃ t, exec (.boot e) s = .next t ∧ t.board.phase = .recovery ∧ t.faultL = true ∧
         (s.wf = true → t.fld 0x300000 15 12 = 5)) ∧
       (∀ k, s.bootSlot = some k → e.reaches = true → ∃ t, exec (.boot e) s = .next t ∧ t.board.phase = .run ∧
         (s.wf = true → t.fld 0x300000 15 12 = 4 ∧ t.fld 0x300000 5 5 = k.val) ∧ t.poison = [] ∧
         (t.mgmt.slots[k]).any (fun f => f.good && f.attempts == 0) = true) ∧
       (∀ k f, s.bootSlot = some k → s.mgmt.slots[k] = some f → e.reaches = false → ∃ t, exec (.boot e) s = .next t ∧
         t.board.phase = .boot ∧ t.mgmt.slots = s.mgmt.slots.set k (some { f with attempts := f.attempts + 1 }) ∧
         t = { s with regs := t.regs, mgmt := t.mgmt })) ∧
     (s.board.phase ≠ .boot → exec (.boot e) s = .next s) ∧
     (s.awake = true → exec (.heartbeatWrite v) s = .next (s.setReg 0x300010 v)) ∧
     (∀ k, s.bootSlot = some k → (s.mgmt.slots[k]).isSome = true ∧
       ∀ j : Fin 2, s.slotBad s.mgmt.slots[j] = none → slotVersion s.mgmt.slots[j] ≤ slotVersion s.mgmt.slots[k]))

/-- The integrity unit (R506, R515 to R522): firmware's fences, refused to be cleared in SERVICE; fences that take effect for the cores of an
idle cluster, whose healthy cores then come first; self-tests, which charge a unit that fails; error windows that end; the
release of a held step.

INT_CTL, and the check-value and trace units (R519, R525 to R528): MODE waits for JOB_LOCK 0; a unit is enabled when its tap and itself are
free of other owners, with event 0x0306 otherwise; a context starts from INIT with a count of 0. -/
def Obligations.IntegrityAndTrace : Prop :=
  ((∀ (s : State) (u : FenceUnit), s.wf = true → s.powered = true →
     let k := fenceName u
     let isSet := s.fenceSet k.1 k.2.1 k.2.2
     let inTier (a : Nat) : Bool := match u with
       | .slowChan x _ => decide (2 ^ 42 + x.val * 2 ^ 38 ≤ a) && decide (a < 2 ^ 42 + (x.val + 1) * 2 ^ 38)
       | _ => false
     let named : BitVec 64 := pack [(k.1, 0), (k.2.1, 8), (k.2.2, 16)]
     (∃ t, exec (.fenceSet u) s = .next t ∧ t.fenceSet k.1 k.2.1 k.2.2 = true ∧ t.core = s.core ∧ t.pan = s.pan ∧
       ∀ a, inTier a = false → t.byteAt a = s.byteAt a) ∧
     (isSet = true → (s.reg 0x210000).getLsbD 0 = true → exec (.fenceClear u) s = .next (s.raiseMod 2 0x30B named)) ∧
     (isSet = true → (s.reg 0x210000).getLsbD 0 = false → ∃ t, exec (.fenceClear u) s = .next t ∧
       t.fenceSet k.1 k.2.1 k.2.2 = false ∧ t = { s with regs := t.regs, int := t.int, mem := t.mem, free := t.free } ∧
       ∀ a, inTier a = false → t.byteAt a = s.byteAt a) ∧
     (isSet = false → exec (.fenceClear u) s = .next s) ∧
     (∀ fault, s.clocked = true → s.testable u = true → s.testDue u = true →
       ∃ t, exec (.selfTest u fault) s = .next t ∧ (assoc k t.int.tests).any (fun r => r.last == s.tide.num) = true ∧
         (fault = true → t.suspectBit k = true) ∧ mapGet zero64 t.ctr 0x210470 = mapGet zero64 s.ctr 0x210470 + 1)) ∧
   (∀ (s : State) (c : CoreIx), (s.disp[clusterOf c]).running = none →
     let cl := clusterOf c
     let bad (i : Nat) : Bool := s.fenceSet 2 (16 * cl.val + i) 0
     ∃ t, exec (.fenceTakeEffect (.core c)) s = .next t ∧
       t.disp[cl].lmap = (List.range 16).filter (fun i => !bad i) ++ (List.range 16).filter bad ∧
       t.disp[cl].avail = ((List.range 16).filter (fun i => !bad i)).length ∧
       (∀ i : Fin 16, bad i.val = true → (t.core[Fin.ofNat 128 (16 * cl.val + i.val)]).mode = .fenced) ∧
       (∀ d : CoreIx, clusterOf d ≠ cl → t.core[d] = s.core[d])) ∧
   (∀ (s : State) (c : ChanRef),
     let k := chanOf c
     let n := (assoc k s.int.chan).getD (0, 0)
     let r := s.reg (0x210040 + 8 * k.cls)
     let over_ : Bool := (k.cls != 1 && decide (max 1 (bitsOf r 15 0) ≤ n.2)) || decide (max 1 (bitsOf r 31 16) ≤ n.1)
     ((s.chanGone c || !over_) = true → exec (.channelPermanent c) s = .next s) ∧
     (s.wf = true → s.chanGone c = false → over_ = true →
       ∃ t, exec (.channelPermanent c) s = .next t ∧ t.chanGone c = true)) ∧
   (∀ (s : State) (k : Fin 6), s.tide.num.toNat % s.errWindow k.val = 0 → s.int.winEnd[k] ≠ s.tide.num →
     ∃ t, exec (.errorWindowEnd k) s = .next t ∧ t = { s with int := t.int, link := t.link } ∧
       t.int.winEnd = s.int.winEnd.set k s.tide.num ∧ t.int.chan = s.int.chan.filter (fun c => c.1.cls != k.val) ∧
       (k.val ≠ 5 → t.link = s.link) ∧ (k.val = 5 → ∀ p : PortIx, t.link.port[p] = { s.link.port[p] with errs := Vector.replicate 8 0 })) ∧
   (∀ (s : State) (step : BitVec 48) (p : PartIx), s.powered = true →
     let hit (h : Nat × BitVec 64) : Bool := h.1 == p.val && h.2.setWidth 48 == step
     exec (.redoRelease step p) s = .next (if s.int.held.any hit then
       ({ s with int := { s.int with held := s.int.held.filter (fun h => !hit h) } } : State).raiseMod 2 0x302
         (pack [(p.val, 0), (step.toNat, 16)]) p.val else s))) ∧
  (∀ (s : State) (n k : Fin 16) (d : DieIx) (v : BitVec 64), s.wf = true → s.powered = true →
     (v.getLsbD 0 = false ∨ v.getLsbD 3 = false → ∃ t, exec (.intModeWrite v) s = .next t ∧ t = { s with regs := t.regs } ∧
       t.fld 0x210000 3 3 = bitsOf v 3 3 ∧ t.fld 0x210000 4 4 = bitsOf v 4 4 ∧
       t.fld 0x210000 0 0 = if s.fld 0x1030 0 0 = 1 then s.fld 0x210000 0 0 else bitsOf v 0 0) ∧
     (s.cvBrine n.val = false →
       exec (.cvValWrite n k v) s = .next (s.setReg (cvCtx n.val k.val) v) ∧
       (∃ t, exec (.cvContextStart n k v) s = .next t ∧ t.reg (cvCtx n.val k.val) =
           BitVec.ofNat 64 ((s.reg (cvBase n.val + 0x10)).toNat % 2 ^ s.cvWidth n.val) ∧ t.reg (cvCtx n.val k.val + 0x20) = 0 ∧
         t.int.cvDead.contains (n.val, k.val) = false ∧ t = { s with regs := t.regs, int := t.int }) ∧
       ((s.reg (cvBase n.val)).getLsbD 0 = false →
         let tap := bitsOf v 15 8
         let want := (cvTapRes n.val tap).toList ++ [0x6000 + n.val]
         let owner := 0x10 + n.val
         (want.all (fun r => (assoc r s.int.claims).all (fun h => h == owner)) = true →
           ∃ t, exec (.cvEnable n v) s = .next t ∧ (t.reg (cvBase n.val)).getLsbD 0 = true ∧
             (∀ r ∈ want, assoc r t.int.claims = some owner) ∧ t = { s with regs := t.regs, int := t.int }) ∧
         (want.all (fun r => (assoc r s.int.claims).all (fun h => h == owner)) = false →
           ∃ t, exec (.cvEnable n v) s = .next t ∧ (t.reg (cvBase n.val)).getLsbD 0 = false ∧ t.int = s.int))) ∧
     (s.cvBrine n.val = true → exec (.cvEnable n v) s = .next s ∧ exec (.cvContextStart n k v) s = .next s ∧
       exec (.cvValWrite n k v) s = .next s) ∧
     ((s.reg (traceBase d.val)).getLsbD 0 = false →
       let tap := bitsOf v 15 8
       let want := (if tap ≤ 18 then [0x1000 + 32 * d.val + tap] else []) ++ [0x3000 + d.val]
       want.all (fun r => (assoc r s.int.claims).isNone) = true →
         ∃ t, exec (.traceEnable d v) s = .next t ∧ (t.reg (traceBase d.val)).getLsbD 0 = true ∧
           (∀ r ∈ want, assoc r t.int.claims = some (0x20 + d.val)) ∧ t.int.traced[d] = 0))

/-- Laser source modules (R456 to R460, R623): a module put in warms, and then shares its engine with a lit partner or is the sole
source, which brings the engine's ports that are DOWN to training; losing a lit module leaves the partner SOLE with LSW set, or takes
every enabled port of a dark engine DOWN; a release ends with the partner SOLE and the module RELEASED, and the withdrawn bay
EMPTY.

A port from DARK to UP and down again (R461 to R464, R468, R472 to R477): first light and a retry with light begin training; training
with four lanes each way and a valid peer brings the port UP at the widths of its healthy lanes, from TRAINING with sequence
numbers and credits anew; training that fails, and a retrain that is not done in time, leave it DOWN; a lane that loses its
signal or reaches the threshold is retired.

Registers of a port (R461, R476, R497, R498): ENABLE takes a DISABLED port to DARK and any port to DISABLED; UNRETIRE clears a DISABLED
port's lanes; a knock starts in the states that allow it, ends with GO clear, and is refused with event 0x170B in the
others. -/
def Obligations.OpticsAndPorts : Prop :=
  (∀ (s : State) (b : Fin 16) (h : BitVec 32) (pulled : Bool), s.wf = true →
     let o := b.val / 2
     let m := partnerBay b.val
     let others (t : State) : Prop := ∀ p : PortIx, p.val / 8 ≠ o → t.portState p = s.portState p
     (s.laser b.val = 0 → ∃ t, exec (.laserInsert b h) s = .next t ∧ t.laser b.val = 1 ∧
       t.fld (laserReg b.val 0) 63 32 = h.toNat ∧ t.laser m = s.laser m ∧ s.regsOnly t) ∧
     (s.laser b.val = 1 →
       (s.laserLit m = true → ∃ t, exec (.laserWarmDone b true) s = .next t ∧ t.laser b.val = 2 ∧ t.laser m = 2 ∧
         t.fld (laserReg b.val 0) 23 16 = 50 ∧ t.fld (laserReg m 0) 23 16 = 50 ∧ s.regsOnly t) ∧
       (s.laserLit m = false → ∃ t, exec (.laserWarmDone b true) s = .next t ∧ t.laser b.val = 3 ∧
         t.fld (laserReg b.val 0) 23 16 = 100 ∧ others t ∧ s.regsOnly t ∧
         ∀ p : PortIx, p.val / 8 = o → t.portState p = if s.portState p = 5 then 2 else s.portState p) ∧
       (∃ t, exec (.laserWarmDone b false) s = .next t ∧ t.laser b.val = 5 ∧ t.board.alert.getLsbD 2 = true ∧
         ∀ p : PortIx, t.portState p = s.portState p)) ∧
     (s.laserLit b.val = true →
       (s.laserLit m = true → ∃ t, exec (.laserLoss b pulled) s = .next t ∧ t.laser b.val = (if pulled then 0 else 5) ∧
         t.laser m = 3 ∧ t.link = { s.link with lsw := s.link.lsw.set (Fin.ofNat 8 o) true } ∧
         t.board.alert.getLsbD 2 = true ∧ ∀ p : PortIx, t.portState p = s.portState p) ∧
       (s.laserLit m = false → ∃ t, exec (.laserLoss b pulled) s = .next t ∧ t.laser b.val = (if pulled then 0 else 5) ∧
         others t ∧ ∀ p : PortIx, p.val / 8 = o → t.portState p = if s.portState p = 0 then 0 else 5)) ∧
     (s.laserLit b.val = false → exec (.laserLoss b pulled) s = .next (s.setLaser b.val (if pulled then 0 else 5))) ∧
     (s.awake = true →
       (s.laser m = 2 → exec (.laserCtlRelease b) s = .next (s.setFld (laserReg b.val 8) 0 0 1)) ∧
       (s.laser m ≠ 2 → exec (.laserCtlRelease b) s =
         .next (s.raise (s.optSrc o) 0x1706 (pack [(b.val, 0), (s.laser m, 4)])))) ∧
     ((s.reg (laserReg b.val 8)).getLsbD 0 = true → s.laser m = 2 →
       ∃ t, exec (.laserReleaseComplete b) s = .next t ∧ t.laser m = 3 ∧ t.laser b.val = 4 ∧
         t.fld (laserReg b.val 8) 0 0 = 0 ∧ s.regsOnly t) ∧
     (s.laser b.val = 4 ∨ s.laser b.val = 5 →
       ∃ t, exec (.laserRemoved b) s = .next t ∧ t.laser b.val = 0 ∧ s.regsOnly t) ∧
     (∀ e : Fin 8, exec (.lswWindowEnd (.engine e)) s = .next { s with link := { s.link with lsw := s.link.lsw.set e false } }) ∧
     (∀ p : PortIx, exec (.lswWindowEnd (.port p)) s =
       .next (s.onPort p (fun q => { q with mask := false })))) ∧
  (∀ (s : State) (p : PortIx) (t : Training) (k : Fin 8) (why : TrainFail), s.wf = true →
     let st := s.portState p
     let rx := (healthyLanes (Nat.lor (s.fld (linkReg p 0) 31 24) (255 - t.rx.toNat))).length
     let tx := (healthyLanes (255 - t.tx.toNat)).length
     let retires (i : Instr) : Prop := ∃ u, exec i s = .next u ∧ s.linksOnly u ∧
       u.fld (linkReg p 0) (24 + k.val) (24 + k.val) = 1 ∧
       (∀ n : Fin 8, n ≠ k → u.fld (linkReg p 0) (24 + n.val) (24 + n.val) = s.fld (linkReg p 0) (24 + n.val) (24 + n.val)) ∧
       (u.portState p = 3 ∨ u.portState p = 5)
     (st = 1 → ∃ u, exec (.firstLight p) s = .next u ∧ u.portState p = 2 ∧ s.regsOnly u) ∧
     (st = 5 → s.engineLit (p.val / 8) = true → ∃ u, exec (.portDownRetry p) s = .next u ∧
       u.portState p = (if s.fld (linkReg p 8) 1 1 = 1 then 6 else 2) ∧ s.regsOnly u) ∧
     (st = 2 → 4 ≤ rx → 4 ≤ tx → t.dev ≠ 0xFFFF → ∃ u, exec (.portTrainingComplete p t) s = .next u ∧ s.linksOnly u ∧
       u.portState p = 3 ∧ u.fld (linkReg p 0) 63 48 = t.dev.toNat ∧ u.fld (linkReg p 0) 47 42 = t.port.val ∧
       u.fld (linkReg p 0) 15 12 = laneWidth rx ∧ u.fld (linkReg p 0) 11 8 = laneWidth tx ∧
       u.link.port[p].expect = 0 ∧ (∀ q : PortIx, q ≠ p → u.link.port[q] = s.link.port[q])) ∧
     (st = 4 → 4 ≤ rx → 4 ≤ tx → t.dev ≠ 0xFFFF → ∃ u, exec (.portTrainingComplete p t) s = .next u ∧ s.linksOnly u ∧
       u.portState p = 3 ∧ u.link.port[p].expect = s.link.port[p].expect) ∧
     (st = 2 → ∃ u, exec (.portTrainingFail p why) s = .next u ∧ u.portState p = 5 ∧ u.link = s.link ∧ s.eventsOnly u) ∧
     (st = 4 →
       (∃ u, exec (.portTrainingFail p why) s = .next u ∧ u.portState p = 5 ∧ s.linksOnly u ∧
         u.link.port[p] = { PortSt.reset with knock := s.link.port[p].knock }) ∧
       (∃ u, exec (.retrainTimeout p) s = .next u ∧ u.portState p = 5 ∧ s.linksOnly u ∧
         u.link.port[p] = { PortSt.reset with knock := s.link.port[p].knock })) ∧
     (st = 3 → s.fld (linkReg p 0) (24 + k.val) (24 + k.val) = 0 →
       ((s.rxLanes p).contains k.val = true → s.link.port[p].mask = false → retires (.laneSignalLoss p k)) ∧
       (max 1 (s.fld (optBase 0 + 0x20) 15 0) ≤ s.link.port[p].errs[k] → retires (.laneRetire p k))) ∧
     exec (.laneRecalibrate p k) s = .next s) ∧
  (∀ (s : State) (p : PortIx), s.wf = true →
     let st := s.portState p
     (s.awake = true →
       (st = 0 → s.fld (linkReg p 8) 1 1 = 0 →
         ∃ t, exec (.linkEnable p 1) s = .next t ∧ t.portState p = 1 ∧ t.fld (linkReg p 8) 0 0 = 1 ∧ s.regsOnly t) ∧
       (∃ t, exec (.linkEnable p 0) s = .next t ∧ t.portState p = 0 ∧ t.fld (linkReg p 8) 0 0 = 0 ∧
         t.link.port[p] = { PortSt.reset with knock := s.link.port[p].knock } ∧
         t = { s with regs := t.regs, link := { s.link with port := s.link.port.set p t.link.port[p] } }) ∧
       (st = 0 → ∃ t, exec (.linkUnretire p) s = .next t ∧ t.fld (linkReg p 0) 31 24 = 0 ∧ t.portState p = 0 ∧ s.regsOnly t) ∧
       (s.link.port[p].knock = false →
         (st ≠ 0 → st ≠ 3 → st ≠ 4 → st ≠ 6 → s.engineLit (p.val / 8) = true →
           ∃ t, exec (.knockSend p) s = .next t ∧ t.link.port[p] = { s.link.port[p] with knock := true } ∧
             t.fld (linkReg p 0x20) 0 0 = 1 ∧
             t = { s with regs := t.regs, link := { s.link with port := s.link.port.set p t.link.port[p] } }) ∧
         (st = 0 ∨ st = 3 ∨ st = 4 ∨ st = 6 ∨ s.engineLit (p.val / 8) = false →
           ∃ t, exec (.knockSend p) s = .next t ∧ t.fld (linkReg p 0x20) 1 1 = 1 ∧ t.link = s.link ∧ s.eventsOnly t))) ∧
     (s.link.port[p].knock = true → ∃ t, exec (.knockComplete p) s = .next t ∧ t.link.port[p] = { s.link.port[p] with knock := false } ∧
       t.fld (linkReg p 0x20) 0 0 = 0 ∧
       t = { s with regs := t.regs, link := { s.link with port := s.link.port.set p t.link.port[p] } }))

/-- The link layer (R468 to R471, R477, R489, R448): a flit with a bad word is discarded and answered by one NAK; the next flit in sequence
gives its units to its VC and moves the expected SEQ; one out of sequence gives none; what a trailer acknowledges leaves the
replay buffer. An idle flit returns the credits of one VC; a forwarded segment stalled for long is reported once; a fabric flit
that fails its fourth attempt takes its module out of service. -/
def Obligations.LinkLayer : Prop :=
  (∀ (s : State) (p : PortIx) (f : Flit) (bad : List (Fin 34)), s.portState p = 3 →
    let q := s.link.port[p]
    (bad ≠ [] → ∃ t, exec (.flitReceive p f bad) s = .next t ∧ s.linksOnly t ∧ t.link.port[p].naked = some q.expect ∧
      t.link.port[p].expect = q.expect ∧ t.link.port[p].rx = q.rx) ∧
    (bad = [] → ∀ v units, f.body = .data v units →
      (f.nak = false → f.seq = q.expect → ∃ t, exec (.flitReceive p f bad) s = .next t ∧ s.linksOnly t ∧
        t.link.port[p].expect = q.expect + 1 ∧ t.link.port[p].rx[v].bytes = q.rx[v].bytes ++ units ∧
        ∃ sent, t.link.port[p].unacked = q.unacked.filter (fun u => decide (2 ^ 15 ≤ (f.ack - u.seq).toNat)) ++ sent) ∧
      (f.seq ≠ q.expect → ∃ t, exec (.flitReceive p f bad) s = .next t ∧ s.linksOnly t ∧
        t.link.port[p].expect = q.expect ∧ ∀ w : Fin 4, t.link.port[p].rx[w].bytes = q.rx[w].bytes)) ∧
    (∃ t, exec (.idleFlitTimer p) s = .next t ∧
      t = { s with link := { s.link with port := s.link.port.set p { q with rx := t.link.port[p].rx } } } ∧
      ∀ w : Fin 4, t.link.port[p].rx[w].bytes = q.rx[w].bytes ∧ t.link.port[p].rx[w].ret ≤ q.rx[w].ret)) ∧
  (∀ (s : State) (p : PortIx),
    let w := s.fld (optBase 0 + 8) 31 0
    ∃ t, exec (.forwardStallWarn p) s = .next t ∧
      t.link.port[p].stalled = s.link.port[p].stalled.map (fun e => (e.1, e.2.1, e.2.2.1,
        e.2.2.2 || (w != 0 && decide (e.2.2.1.toNat + w ≤ s.tide.num.toNat)))) ∧
      t = { s with fifo := t.fifo, fifoDrop := t.fifoDrop, ctr := t.ctr, link := { s.link with
        port := s.link.port.set p { s.link.port[p] with stalled := t.link.port[p].stalled } } }) ∧
  (∀ (s : State) (d : DieIx) (j : Fin 3) (m : Fin 20) (f : FabFlit) (errs : List (BitVec 544)), s.wf = true →
    let c := s.fabChan d.val j.val m.val
    s.fabUp d.val (fabPeer d.val j.val) = true → (s.reg (fabBase d.val + 0x20 + 8 * j.val)).getLsbD m.val = false →
    (f.kind ≠ 0 ∨ (f.seq = c.expect ∧ c.unacked.length < fabReplay)) →
      ∃ t, exec (.fabricFlitReceive d j m ⟨f, errs⟩) s = .next t ∧ t.core = s.core ∧ t.mem = s.mem ∧ t.pan = s.pan ∧
        ((t.reg (fabBase d.val + 0x20 + 8 * j.val)).getLsbD m.val = true ↔ (fabAttempts f errs).2 = none) ∧
        (f.kind = 0 → (fabAttempts f errs).2 ≠ none → t.fabChan d.val j.val m.val = ⟨c.expect + 1, c.unacked ++ [f]⟩))

/-- A segment of a stream is read back as it was formed (R478, R479): every header field at every value, the payload at every length,
whatever follows it; and it takes whole units. -/
def Obligations.SegmentsRoundTrip : Prop :=
  ∀ (g : Seg) (rest : List Byte), g.typ < 256 → g.flags < 256 → g.len < 65536 → g.srcDev < 65536 → g.dstDev < 65536 →
    g.dies < 256 → g.queue < 256 → g.etype < 256 → g.hops < 256 → g.msn < 2 ^ 32 → g.arg < 2 ^ 64 → g.aux < 2 ^ 64 →
    g.data.length = g.payload →
    takeSegment (g.bytes ++ rest) = some (g, g.bytes.length / 32) ∧ g.bytes.length % 32 = 0 ∧
      32 + g.data.length ≤ g.bytes.length ∧ g.bytes.length < 64 + g.data.length

/-- The next segment of a connection (R443, R480, R483, R484): its units leave the stream and the expected MSN moves on; WRITE and RED
store their payload where the die's partition maps ARG, READ stores nothing and its READ_DATA takes the connection's next MSN,
READ_DATA shortens what its READ awaits, and SEND waits in its stream while the ring is full.

Segments that are not performed (R482, R483, R490, R556): one for another device stays in its stream, one with an invalid header is
dropped with event 0x1707, so is one from an unknown source, and one out of its turn is answered and not performed. In M1 all
are held. -/
def Obligations.SegmentsAtReceiver : Prop :=
  (∀ (s : State) (p : PortIx) (g : Seg) (u j : Nat),
     let d := g.ddie
     let v := segVc g.typ
     let c := s.connAt d j
     s.headSeg p v = some (g, u) → s.fld 0x100000 7 4 = 0 → g.invalid v = false → g.dstDev = s.device →
     s.connOf d g.srcDev g.sdie = some j → BitVec.ofNat 32 g.msn = c.expect →
     let s1 := (s.consume p v u).setConn d j { c with expect := c.expect + 1 }
     let takes (i : Instr) (f : State → Prop) : Prop := ∃ t, exec i s = .next t ∧ (t.connAt d j).expect = c.expect + 1 ∧
       t.link.port[p].rx[v].bytes = s.link.port[p].rx[v].bytes.drop (32 * u) ∧ t.core = s.core ∧ t.pan = s.pan ∧ f t
     (g.typ = 0 → g.flags / 4 % 2 = 0 → takes (.segWrite p) (fun t =>
       let w := s1.performWrite d (p.val / 16) g.arg g.data
       t.mem = (w.1.optTap p g.arg g.data).mem)) ∧
     (g.typ = 0 → g.flags / 4 % 2 = 1 → takes (.segWrite p) (fun t => t.mem = s.mem ∧
       t.dieSlu = (s1.holdChunk (Fin.ofNat 4 d) (collOfSeg g)).dieSlu)) ∧
     (g.typ = 1 → takes (.segRead p) (fun t => t.mem = s.mem ∧ (t.connAt d j).next = c.next + 1 ∧
       ∃ x, (t.connAt d j).unacked ++ (t.connAt d j).waiting = c.unacked ++ c.waiting ++ [x] ∧ x.seg.typ = 2 ∧
         x.seg.arg = g.msn ∧ x.seg.msn = c.next.toNat ∧ x.body = .fetch g.arg g.len)) ∧
     (g.typ = 2 → ∀ r, c.reads.find? (fun a => a.msn = g.arg % 2 ^ 32) = some r → g.data.length < r.len →
       takes (.segReadData p) (fun t => t.mem = s.mem ∧ (t.connAt d j).reads =
         c.reads.map (fun a => if a.msn = r.msn then { a with len := a.len - g.data.length } else a))) ∧
     (g.typ = 3 → takes (.segRed p) (fun t =>
       let w := s1.performRed d (p.val / 16) g.arg g.etype (if g.aux = 1 then .min else if g.aux = 2 then .max else .sum) g.data
       let n : State := if w.2.2 = 0 then w.1 else w.1.count (sluBase (2 * d) + 0x520) w.2.2
       t.mem = (n.optTap p g.arg g.data).mem)) ∧
     (g.typ = 4 → g.flags % 2 = 1 →
       match s.reserve d (p.val / 16) g.queue g.srcDev g.sdie (g.arg % 2 ^ 32) with
       | (.full, _) => ∃ t, exec (.segSend p) s = .next t ∧ t.link = s.link ∧ t.mem = s.mem
       | _ => takes (.segSend p) (fun _ => True))) ∧
  (∀ (s : State) (p : PortIx) (g : Seg) (u : Nat) (i : Instr),
     (g.typ = 0 ∧ i = .segWrite p) ∨ (g.typ = 1 ∧ i = .segRead p) ∨ (g.typ = 2 ∧ i = .segReadData p) ∨
       (g.typ = 3 ∧ i = .segRed p) ∨ (g.typ = 4 ∧ i = .segSend p) →
     s.headSeg p (segVc g.typ) = some (g, u) →
     let v := segVc g.typ
     let s' := s.consume p v u
     (s.fld 0x100000 7 4 = 1 → exec i s = .next s) ∧
     (s.fld 0x100000 7 4 = 0 →
       (g.invalid v = true → exec i s = .next (s'.dropSeg (p.val / 16) p.val g 1)) ∧
       (g.invalid v = false → g.dstDev ≠ s.device → exec i s = .next s) ∧
       (g.invalid v = false → g.dstDev = s.device →
         (s.connOf g.ddie g.srcDev g.sdie = none → exec i s = .next (s'.dropSeg (p.val / 16) p.val g 4)) ∧
         (∀ j, s.connOf g.ddie g.srcDev g.sdie = some j → BitVec.ofNat 32 g.msn ≠ (s.connAt g.ddie j).expect →
           ∃ t, exec i s = .next t ∧ s.linksOnly t ∧ (t.connAt g.ddie j).expect = (s.connAt g.ddie j).expect))))

/-- Segments of no connection, acknowledgement and forwarding (R440, R480, R484 to R488): an ACK ends the segments it covers and those
that wait follow; the acknowledgement of a STATUS ends its resending; CTRL goes to the die's firmware; a segment for another
device leaves on its route with one more hop, and is dropped at 15 hops or without a route.

Timers of connections, STATUS messages, and a connection entry written VALID (R482, R484 to R486): what is performed is
acknowledged; a timeout sends the unacknowledged segments again, or breaks the connection after RETRY_MAX tries; the entry
stands as new, but under JOB_LOCK only its device and die change. -/
def Obligations.TransportTimers : Prop :=
  (∀ (s : State) (p : PortIx) (g : Seg) (u : Nat) (failed : List (BitVec 32)),
     let v := segVc g.typ
     let d := g.ddie
     s.headSeg p v = some (g, u) → g.invalid v = false → s.fld 0x100000 7 4 = 0 →
     let s' := s.consume p v u
     (g.dstDev = s.device →
       (g.typ = 5 → g.arg / 2 ^ 33 % 2 = 1 → exec (.segAck p failed) s = .next { s' with link := { s'.link with
         statusOut := s.link.statusOut.filter (fun o =>
           !(o.dev == g.srcDev && o.step.toNat == g.aux && o.job % 2 ^ 32 == g.arg % 2 ^ 32)) } }) ∧
       (g.typ = 5 → g.arg / 2 ^ 33 % 2 = 0 → g.arg / 2 ^ 32 % 2 = 0 → ∀ j, s.connOf d g.srcDev g.sdie = some j →
         ∃ t, exec (.segAck p failed) s = .next t ∧ t.mem = s.mem ∧ t.core = s.core ∧
           (t.connAt d j).expect = (s.connAt d j).expect ∧
           (t.connAt d j).unacked ++ (t.connAt d j).waiting = (s.connAt d j).unacked.filter
             (fun x => decide (2 ^ 31 ≤ (BitVec.ofNat 32 (g.arg % 2 ^ 32) - BitVec.ofNat 32 x.seg.msn).toNat)) ++
             (s.connAt d j).waiting) ∧
       (g.typ = 7 → exec (.segCtrl p) s = .next { s' with link := { s'.link with
         toFw := s.link.toFw ++ [(d, g.data)] } })) ∧
     (g.dstDev ≠ s.device →
       (15 ≤ g.hops → exec (.segmentForward p v) s = .next (s'.dropSeg (p.val / 16) p.val g 2)) ∧
       (g.hops < 15 → s.route g.dstDev = none → exec (.segmentForward p v) s = .next (s'.dropSeg (p.val / 16) p.val g 3)) ∧
       (g.hops < 15 → ∀ q, s.route g.dstDev = some q → ∃ t, exec (.segmentForward p v) s = .next t ∧ s.linksOnly t ∧
         t.link.port[p].rx[v].bytes = s.link.port[p].rx[v].bytes.drop (32 * u) ∧
         (s.link.port[q].cred[v] = 0 → t.link.port[q].tx[v] = s.link.port[q].tx[v] ++ Seg.bytes { g with hops := g.hops + 1 })))) ∧
  ((∀ (s : State) (d : DieIx) (j : Fin 2048),
     let c := s.connAt d.val j.val
     (c.ackDue = 0 → exec (.ackTimer d j) s = .next s) ∧
     (c.ackDue ≠ 0 → ∃ t, exec (.ackTimer d j) s = .next t ∧ s.linksOnly t ∧
       t.connAt d.val j.val = { c with ackDue := 0 }) ∧
     (c.unacked = [] → exec (.segmentRetxTimeout d j) s = .next s) ∧
     (c.unacked ≠ [] → c.resent < max 1 (s.fld (optBase 0 + 8) 55 48) →
       ∃ t, exec (.segmentRetxTimeout d j) s = .next t ∧ s.linksOnly t ∧
         t.connAt d.val j.val = { c with resent := c.resent + 1 }) ∧
     (c.unacked ≠ [] → max 1 (s.fld (optBase 0 + 8) 55 48) ≤ c.resent →
       ∃ t, exec (.segmentRetxTimeout d j) s = .next t ∧ t.mem = s.mem ∧ t.core = s.core ∧
         t.connAt d.val j.val = { c with unacked := [], waiting := [], reads := [], resent := 0 } ∧
         (s.wf = true → (t.reg (optBase d.val + 0x8000 + 8 * j.val)).getLsbD 62 = true)) ∧
     (∃ t, exec .statusResend s = .next t ∧ s.linksOnly t ∧ t.link.statusOut = s.link.statusOut ∧ t.link.conns = s.link.conns)) ∧
   (∀ (s : State) (d : DieIx) (j : Fin 2048) (die : Fin 4) (dev : BitVec 16), s.wf = true → s.awake = true →
     let off := optBase d.val + 0x8000 + 8 * j.val
     ∃ t, exec (.tuConnValidWrite d j die dev) s = .next t ∧ t.connPeer d.val j.val = (dev.toNat, die.val) ∧
       t = { s with regs := t.regs, link := t.link } ∧
       (s.locked = true → t.link = s.link ∧ (t.reg off).getLsbD 63 = (s.reg off).getLsbD 63) ∧
       (s.locked = false → (t.reg off).getLsbD 63 = true ∧ (t.reg off).getLsbD 62 = false ∧
         t.link = { s.link with conns := assocDel (d.val, j.val) s.link.conns })))

/-- Ethernet ports and queue pairs (R499 to R502): alignment brings the port up and a lane fault takes it down, each with event 0x170C; a
frame of an open queue pair or of firmware's protocols reaches its destination, the bytes of a read among them, every other one
only adds to the drop count; a queue pair in error is reported once, is no longer open and awaits no read. -/
def Obligations.EthernetPorts : Prop :=
  ∀ (s : State) (p : Fin 8) (q : Fin 256) (data : List Byte) (syn : BitVec 8), s.wf = true →
    let port : PortIx := Fin.ofNat 64 p.val
    let up := s.fld (ethReg p.val) 0 0 = 1
    let counted := s.count (ethCtr p.val 0) 1
    let dropped := counted.count (ethCtr p.val 0x20) 1
    let given : State := { counted with link := { s.link with toFw := s.link.toFw ++ [(0, data)] } }
    (s.portState port = 6 → ¬ up → ∃ t, exec (.ethLinkUp p) s = .next t ∧ t.fld (ethReg p.val) 0 0 = 1 ∧
      t.link = s.link ∧ s.eventsOnly t) ∧
    (up → ∃ t, exec (.ethLinkFault p) s = .next t ∧ t.fld (ethReg p.val) 0 0 = 0 ∧ t.link = s.link ∧ s.eventsOnly t) ∧
    (¬ up → exec (.ethFrameReceive p (.firmware data)) s = .next s) ∧
    (up →
      exec (.ethFrameReceive p (.firmware data)) s = .next given ∧
      exec (.ethFrameReceive p .other) s = .next dropped ∧
      (s.openQp p.val q.val = true →
        exec (.ethFrameReceive p (.send q data)) s = .next given ∧
        exec (.ethFrameReceive p (.rdmaWrite q)) s = .next counted ∧
        exec (.ethFrameReceive p (.ack q)) s = .next counted ∧
        exec (.ethFrameReceive p (.readResponse q data)) s = .next (counted.readBytes q.val data) ∧
        exec (.ethFrameReceive p (.rdmaReadRequest q)) s = .next counted ∧
        exec (.ethFrameReceive p (.nak q syn)) s = exec (.qpError q syn) counted) ∧
      (s.openQp p.val q.val = false →
        ∀ f ∈ [EthFrame.rdmaReadRequest q, .rdmaWrite q, .send q data, .readResponse q data, .ack q, .nak q syn, .cnp q],
          exec (.ethFrameReceive p f) s = .next dropped)) ∧
    (∀ n, (s.qpAt q.val).port = some n → (s.qpAt q.val).error = false →
      ∃ t, exec (.qpError q syn) s = .next t ∧ t.openQp n q.val = false ∧ t.link.port = s.link.port ∧
        t.link.qpReads = s.link.qpReads.filter (fun r => !decide (r.qp = q.val)) ∧ t.core = s.core ∧ t.mem = s.mem ∧
        ((∀ r ∈ s.link.qpReads, r.qp ≠ q.val) → s.linksOnly t))

/-- The head of a sluice's queue (R422, R426): SLU.WAIT moves to the wait table when that has room; a command that passes its checks
runs, at most four at a time, in the order of the queue; one that fails is completed with error and a deferred cause 0x08 that
carries the event's code and payload.

A sluice command ends (R305, R342, R422): its movement is performed and its token sent, with error status where it met a fault;
while segments or reads of it are outstanding it stays. -/
def Obligations.SluiceWork : Prop :=
  (∀ (s : State) (i : SluIx) (cmd : UnitCmd) (l : List UnitCmd), s.clocked = true → s.slu[i].queue = cmd :: l →
     let d := sluDie i
     let taken := s.onSlu i (fun q => { q with queue := l })
     let core := s.core[cmd.core]
     (∀ b, cmd.op = .sluWait b →
       ((cmd.word 0).toNat ≤ 255 → s.dieSlu[d].waits.length < 64 → exec (.sluCommandStart i) s =
         .next (taken.onDie d (fun z => { z with waits := z.waits ++ [cmd] }))) ∧
       ((cmd.word 0).toNat ≤ 255 → 64 ≤ s.dieSlu[d].waits.length →
         exec (.sluCommandStart i) s = .next s) ∧
       (255 < (cmd.word 0).toNat → ∃ t, exec (.sluCommandStart i) s = .next t ∧
         t.slu = taken.slu ∧ t.dieSlu = s.dieSlu ∧ t.mem = s.mem ∧ t.core[cmd.core].toksIn = core.toksIn ++ [(cmd.tk, true)])) ∧
     ((∀ b, cmd.op ≠ .sluWait b) →
       (4 ≤ s.slu[i].running.length → exec (.sluCommandStart i) s = .next s) ∧
       (s.slu[i].running.length < 4 → ∃ t, exec (.sluCommandStart i) s = .next t ∧ t.slu[i].queue = l ∧
         match ((s.sluCtx i.val cmd.core.val []).build i.val cmd).1 with
         | .ok job => t.slu[i].running.map (·.cmd) = s.slu[i].running.map (·.cmd) ++ [cmd] ∧
           t.slu[i].next = s.slu[i].next + 1 ∧ t.core = s.core ∧
           (job.remote s.device = false → (∀ j, job ≠ .coll j) → t = { s with slu := t.slu } ∧
             ∃ r : SluRun, t.slu[i].running = s.slu[i].running ++ [r] ∧ r.job = job ∧ r.step = cmd.sluStep ∧ r.out = 0 ∧
               r.moved = false)
         | .bad b => t.slu = taken.slu ∧ t.core[cmd.core].toksIn = core.toksIn ++ [(cmd.tk, true)] ∧
           t.core[cmd.core].recsIn = core.recsIn ++ [⟨8, BitVec.ofNat 16 b.1, b.2⟩]
         | .lost => t.slu = taken.slu))) ∧
  (∀ (s : State) (i : SluIx) (k : Fin 4) (r : SluRun), s.wf = true →
     s.slu[i].running[k.val]? = some r → s.runOf i r.id = some r →
     let core := s.core[r.cmd.core]
     let ends (t : State) (err : Bool) : Prop :=
       t.slu[i].running.map (·.id) = (s.slu[i].running.filter (fun a => a.id ≠ r.id)).map (·.id) ∧
       t.core[r.cmd.core].toksIn = core.toksIn ++ [(r.cmd.tk, err)] ∧
       mapGet zero64 t.ctr (sluCtr i 0x400) = mapGet zero64 s.ctr (sluCtr i 0x400) + 1
     (r.out ≠ 0 → exec (.sluCommandComplete i k) s = .next s) ∧
     (r.moved = true → r.out = 0 → ∃ t, exec (.sluCommandComplete i k) s = .next t ∧ ends t (r.fault.isSome || r.error) ∧
       t.mem = s.mem ∧ ∀ n : SluIx, n ≠ i → t.slu[n] = s.slu[n]) ∧
     (r.moved = false → r.out = 0 → (∀ j, r.job ≠ .coll j) → (∀ a b c d e f g h, r.job ≠ .xmit a b c d e f g h) →
       let m := r.job.move (s.sluCtx i.val r.cmd.core.val r.got)
       s.link.unreachable = [] → m.2.2.need = [] → m.2.2.outs = [] → ∃ t, exec (.sluCommandComplete i k) s = .next t ∧
         ends t (m.2.2.fault.isSome || r.error) ∧
         (m.2.2.fault = none → t.mem = ({ m.2.2.x with s := m.2.2.commit s i r.step } : XCtx).close.mem)))

/-- Waits and collectives in progress (R433, R437, R445): a SLU.WAIT completes when its queue has counted to the threshold; the first
chunk at a die whose instance runs there is taken; an instance without progress is reported once. -/
def Obligations.WaitsAndCollectives : Prop :=
  (∀ (s : State) (d : DieIx) (n : Fin 64) (cmd : UnitCmd), s.dieSlu[d].waits[n.val]? = some cmd →
    let c := s.ctrAt (fabBase d.val + 0x1000 + 0x10 * ((cmd.word 0).toNat % 256))
    (c.toNat < (cmd.word 1).toNat → exec (.sluWaitSatisfied d n) s = .next s) ∧
    ((cmd.word 1).toNat ≤ c.toNat → ∃ t, exec (.sluWaitSatisfied d n) s = .next t ∧
      t.dieSlu[d] = { s.dieSlu[d] with waits := s.dieSlu[d].waits.eraseIdx n.val } ∧
      t.core[cmd.core].toksIn = s.core[cmd.core].toksIn ++ [(cmd.tk, false)] ∧ t.slu = s.slu ∧ t.mem = s.mem ∧
      t.ctr = s.ctr)) ∧
  (∀ (s : State) (d : DieIx),
    let s1 := s.stageChunks d
    match s1.dieSlu[d].inbox.findIdx? (fun m => (s1.collTarget d m).isSome) with
    | none => exec (.collChunkReceive d) s = .next s1
    | some n => ∃ t, exec (.collChunkReceive d) s = .next t ∧ t.core = s.core ∧ t.pan = s.pan) ∧
  (∀ (s : State) (i : SluIx), (s.slu[i].running.map (·.id)).Nodup →
    let w := s.fld (sluBase (i.val / 4) + 0x40) 31 0
    let due (r : SluRun) (z : CollSt) : Bool := match r.job with
      | .coll _ => w != 0 && !r.moved && decide (z.since.toNat + w ≤ s.tide.num.toNat)
      | _ => false
    ∃ t, exec (.collWarn i) s = .next t ∧
      t = { s with slu := t.slu, fifo := t.fifo, fifoDrop := t.fifoDrop, ctr := t.ctr } ∧
      t.slu = s.slu.set i { s.slu[i] with running := s.slu[i].running.map (fun r =>
        { r with coll := r.coll.map (fun z => { z with warned := z.warned || due r z }) }) })

/-- The batches of a Brine unit (R388, R392, R396, R417): the command at the head of the queue begins while fewer than two batches are
in progress, or is refused with an error completion; a dictionary that has been loaded is held; a batch whose slots are all packed
completes its token, with error status where it met a fault.

Records and decodes of a Brine unit (R386, R387, R394 to R401, R408): a fetched record that fails a check is fetched again up to
three times, or rejected, and counted so; one that passes is accepted; decodes record their times and go to software over
budget; at a deadline edge what is not resolved is late. A completion of software that names no entry, or an entry that
software has not taken, or has status 3, raises event 0x1509; any other frees its entry, and its sample is ready with the bytes that software
left, or rejected when those have no size the batch can hold or status 2 rejects it.

ENABLE of a Brine unit (R384, R525): it claims its tap and its check-value unit together, or takes neither and raises event 0x1506;
clearing it gives them back, and stops the check-value unit where it held that. -/
def Obligations.BrineWork : Prop :=
  (∀ (s : State) (d : DieIx), s.clocked = true →
     let u := s.brn[d]
     let ids (l : List BrnBatch) : List Nat := l.map (·.id)
     let ends (t : State) (c : UnitCmd) (err : Bool) : Prop :=
       t.core[c.core].toksIn = s.core[c.core].toksIn ++ [(c.tk, err)] ∧
         (∀ k : CoreIx, k ≠ c.core → t.core[k] = s.core[k]) ∧ t.pan = s.pan
     (∀ c since l, u.queue = (c, since) :: l →
       (2 ≤ u.batches.length → exec (.batchBegin d) s = .next s) ∧
       (u.batches.length < 2 → ∃ t, exec (.batchBegin d) s = .next t ∧ t.brn[d].queue = l ∧
         match (((s.onBrn d (fun u => { u with queue := l })).brnCtx d c.core.val).buildBatch d c since (s.brnSeed d)).1 with
         | .ok _ => ids t.brn[d].batches = ids u.batches ++ [u.next] ∧ t.brn[d].next = u.next + 1 ∧ t.core = s.core ∧ t.pan = s.pan
         | .bad _ => ids t.brn[d].batches = ids u.batches ∧ ends t c true
         | .lost => ids t.brn[d].batches = ids u.batches)) ∧
     (∀ b, u.batches.find? (fun b => b.loading) = some b →
       let va := brField b.spec 0 0 8
       let r := (s.batchCtx d b).readDict va
       ∃ t, exec (.dictLoadComplete d) s = .next t ∧
         (r.2.badEnd = none → match r.1 with
           | some dict => t.brn[d].dict = some (va, dict) ∧ ids t.brn[d].batches = ids u.batches ∧ t.core = s.core
           | none => ends t b.cmd true ∧ ids t.brn[d].batches = (ids u.batches).filter (· ≠ b.id)) ∧
         (r.2.badEnd ≠ none → ends t b.cmd true ∧ ids t.brn[d].batches = (ids u.batches).filter (· ≠ b.id))) ∧
     (∀ b l, u.batches = b :: l →
       (b.loading = true ∨ b.cur < specN b.spec → exec (.batchComplete d) s = .next s) ∧
       (b.loading = false → specN b.spec ≤ b.cur →
         let x := ((s.batchCtx d b).writeTables b).wrLong (b.cmd.va 5) (b.manifest (s.brnSeed d) s.tide.num)
         ∃ t, exec (.batchComplete d) s = .next t ∧ ends t b.cmd x.badEnd.isSome ∧
           ids t.brn[d].batches = (ids u.batches).filter (· ≠ b.id)))) ∧
  (∀ (s : State) (d : DieIx), s.wf = true → s.clocked = true →
     let s0 := s.brnDue d
     let same (t : State) : Prop := t.brn[d].batches.map (·.id) = s.brn[d].batches.map (·.id) ∧ t.core = s.core ∧ t.pan = s.pan
     let plus (t : State) (off : Nat) : Prop := mapGet zero64 t.ctr (brnReg d off) = mapGet zero64 s.ctr (brnReg d off) + 1
     (∃ t, exec (.batchDeadline d) s = .next t ∧ same t ∧ (∀ b ∈ t.brn[d].batches, b.due s.tide.num = false) ∧
       ((s.brn[d].batches.map (·.id)).Nodup → ∀ b ∈ s.brn[d].batches, b.due s.tide.num = true →
         ∀ b' ∈ t.brn[d].batches, b'.id = b.id → ∀ i ∈ b'.items, b'.cur ≤ i.ix →
           i.phase = .ready ∨ i.phase = .rejected ∨ i.phase = .late)) ∧
     (∀ (k : Fin 2) res (ix : BitVec 14) (array tries : Fin 5) b i r s1 v s2,
       s0.brnItem d k.val res ix.toNat = some (b, i) → i.phase = .fetching → s0.fetched d b i array.val tries.val = (some r, s1) →
       (let n := s1.count (brnReg d 0x410) ((r.map List.length).getD 0)
        n.checkRec d ((n.batchOf d b.id).getD b) i r) = (v, s2) →
       match v with
       | some (_, again) => ∃ t, exec (.recordArrive d k res ix array tries) s = .next t ∧ same t ∧
         plus t (if again && decide (i.fetches < 3) then 0x420 else 0x430)
       | none => ∃ t, exec (.recordArrive d k res ix array tries) s = .next t ∧ (t = s ∨ (same t ∧ plus t 0x400))) ∧
     (∀ (k : Fin 4) (ns : BitVec 32) b i, s0.hwHead d k = some (b, i) →
       (∃ t, exec (.decodeComplete d k ns) s = .next t ∧ same t ∧
         match ({ i with ns := ns.toNat } : BrnItem).decode b (s.brnSeed d) with
         | .ok _ _ => plus t 0x440 ∧ t.brn[d].means[k] = (ns.toNat :: s.brn[d].means[k]).take 256
         | .reject _ => plus t 0x430
         | .software => t.brn[d].means[k] = s.brn[d].means[k]) ∧
       (let u := s0.brn[d]
        let budget := if u.means[k].length < 16 then s0.fld (brnReg d 0x18) 63 32 * 1000
          else max (64 * u.mean k) (s0.fld (brnReg d 0x18) 31 0)
        (ns.toNat ≤ budget → exec (.decodeOverBudget d k ns) s = .next s0) ∧
        (s0.softEn d = true → s0.ringFree d i.data.length = true → budget < ns.toNat →
          ∃ t, exec (.decodeOverBudget d k ns) s = .next t ∧ same t ∧ plus t 0x470))) ∧
     (∀ (e : BitVec 10) (st : BitVec 2),
       (s0.brn[d].ring.find? (fun q => q.ix = e.toNat) = none → exec (.softCompletion d e st) s =
         .next (s0.raise (s0.brnSrc d.val) 0x1509 (pack [(e.toNat, 0), (st.toNat, 10), (d.val, 12)]))) ∧
       (∃ t, exec (.softCompletion d e st) s = .next t ∧ same t) ∧
       (∀ q, s0.brn[d].ring.find? (fun q => q.ix = e.toNat) = some q →
         let r := (s0.brnCtx d 0).rd false ((s0.reg (brnReg d 0x20)).toNat + 64 * e.toNat) 64
         let state := recNat r.1 0 4
         let bad := s0.raise (s0.brnSrc d.val) 0x1509 (pack [(e.toNat, 0), (st.toNat, 10), (d.val, 12)])
         let u := r.2.s.freeRing d e.toNat
         (st = 3 ∨ (state ≠ 2 ∧ state ≠ 3) → exec (.softCompletion d e st) s = .next bad) ∧
         (st ≠ 3 → state = 2 ∨ state = 3 →
           u.brn[d].ring = r.2.s.brn[d].ring.filter (fun p => p.ix ≠ e.toNat) ∧
           ∀ b i, u.batchOf d q.batch = some b → (if q.res then b.rsvs else b.items).find? (fun i => i.ix = q.item) = some i →
             (q.cancelled = true ∨ (i.phase != .soft) = true → exec (.softCompletion d e st) s = .next (u.brnAdvance d)) ∧
             (q.cancelled = false → i.phase = .soft →
               (st = 2 → exec (.softCompletion d e st) s = .next ((u.rejectRec d b i 7).brnAdvance d)) ∧
               (st ≠ 2 → ∀ k, i.fromSoft b (r.1.drop 48) (st == 1) = some k → exec (.softCompletion d e st) s =
                 .next ((u.onBatch d b.id (fun b => b.onItem i.res i.ix (fun _ => k))).brnAdvance d)) ∧
               (st ≠ 2 → i.fromSoft b (r.1.drop 48) (st == 1) = none → exec (.softCompletion d e st) s =
                 .next ((u.rejectRec d b i (if recNat r.1 52 2 * recNat r.1 54 2 = 0 then 7 else 6)).brnAdvance d))))))) ∧
  (∀ (s : State) (d : DieIx), s.wf = true → s.clocked = true →
     let o := d.val + 1
     let tap := 0x1000 + 32 * d.val
     let cv := 0x6000 + 2 * d.val
     let foreign (r : Nat) : Bool := (assoc r s.int.claims).any (fun h => h != o)
     (foreign tap = false → foreign cv = false → ∃ t, exec (.brineEnable d) s = .next t ∧ t.brnClaimed d = true ∧
       (t.reg (brnReg d 8)).getLsbD 0 = true ∧ t = { s with regs := t.regs, int := t.int }) ∧
     (foreign tap = true ∨ foreign cv = true → exec (.brineEnable d) s =
       .next (s.raise (s.brnSrc d.val) 0x1506 (BitVec.ofNat 64 d.val))) ∧
     (∃ t, exec (.brineDisable d) s = .next t ∧ t.brnClaimed d = false ∧ (t.reg (brnReg d 8)).getLsbD 0 = false ∧
       t = { s with regs := t.regs, int := t.int } ∧
       (s.brnClaimed d = true → (t.reg (cvBase (2 * d.val))).getLsbD 0 = false) ∧
       (s.brnClaimed d = false → t.reg (cvBase (2 * d.val)) = s.reg (cvBase (2 * d.val)))))

/-- A crystallizer's queue (R187, R193, R194, R196, R197): a RUN reads its step block and waits while its step is undecided, and treats
nothing; a skipped step that records no ratios leaves memory as it was; the RUN ends with its token; INIT and XTL.GATHER of a
slot that is not bound, or is damaged, are refused.

Resets of a crystallizer (R211): a reset refuses every queued command with an error completion and leaves the unit not READY until it
is complete; without FORCE it waits for a RUN in progress. -/
def Obligations.CrystallizerWork : Prop :=
  (∀ (s : State) (x : XtlIx) (tries : SlowTries) (cut : Option (BitVec 8)), s.clocked = true → s.xtl[x].ready = true →
     let q := s.xtl[x]
     let answered (t : State) (c : UnitCmd) (err : Bool) : Prop :=
       ∃ more, t.core[c.core].toksIn = s.core[c.core].toksIn ++ (c.tk, err) :: more
     (q.running = none → ∀ cmd l b first last, q.queue = cmd :: l → cmd.op = .xtlRun b first last →
       (last.toNat < first.toNat → ∃ t, exec (.xtlRunBegin x tries cut) s = .next t ∧ answered t cmd true) ∧
       (first.toNat ≤ last.toNat →
         let k := ((s.onXtl x (fun q => { q with queue := l })).xtlCtx x cmd.core.val).stepBlock cmd last.toNat first.toNat
         (k.2.badEnd = none → k.1 = none → ∃ t, exec (.xtlRunBegin x tries cut) s = .next t ∧ answered t cmd true) ∧
         (∀ r, k.2.badEnd = none → k.1 = some r → s.givenUp (s.partNum (x.val / 2)) r.step = false →
           (s.gateSlot (s.partNum (x.val / 2)) r.step).bind (·.outcome) = none →
           ∃ t, exec (.xtlRunBegin x tries cut) s = .next t ∧ t.xtl = s.xtl.set x { q with queue := l, running := some r } ∧
             t.core = s.core ∧ t.mem = s.mem))) ∧
     (∀ r a, q.running = some r → r.outcome = some a →
       ∃ t err, exec (.xtlCommandComplete x tries) s = .next t ∧ answered t r.cmd err ∧
         (a = false → r.ratioVa = 0 → t.mem = s.mem)) ∧
     (q.running = none → ∀ cmd l b n, q.queue = cmd :: l → cmd.op = .xtlInit b n ∨ cmd.op = .xtlGather b n →
       (s.shard x n.toNat = none ∨ (s.shard x n.toNat).any (·.damaged) = true →
         ∃ t, exec (.xtlCommandComplete x tries) s = .next t ∧ answered t cmd true ∧ t.mem = s.mem) ∧
       (∃ t err, exec (.xtlCommandComplete x tries) s = .next t ∧ answered t cmd err))) ∧
  (∀ (s : State) (x : XtlIx) (force : Bool), s.awake = true →
     let q := s.xtl[x]
     (q.resetting = false → q.inRun.isSome = true → force = false → ∃ t, exec (.xtlCtlReset x force) s = .next t ∧
       t = { s with regs := t.regs, xtl := s.xtl.set x { q with resetWait := true } }) ∧
     (q.resetting = false → q.inRun = none ∨ force = true → ∃ t, exec (.xtlCtlReset x force) s = .next t ∧
       t.xtl[x].queue = [] ∧ t.xtl[x].running = none ∧ t.xtl[x].resetting = true ∧ t.xtl[x].ready = false ∧ t.mem = s.mem ∧
       ∀ c ∈ (q.running.map (·.cmd)).toList ++ q.queue, (c.tk, true) ∈ t.core[c.core].toksIn) ∧
     (q.resetting = true → exec (.xtlResetComplete x) s =
       .next { s with xtl := s.xtl.set x { q with resetting := false, ready := true } }))

/-- The commit gate (R198 to R201, R204, R440): a SEAL of an undecided step waits in the step's slot, one of a decided step completes at
once, and one of a step given up is refused; the local status becomes final when nothing of the step is in progress, and is the
job's status where no other module takes part; the wait of a sealed step is reported once; a STATUS of another module is taken
once and acknowledged. -/
def Obligations.CommitGate : Prop :=
  (∀ (s : State) (c : CoreIx) (cmd : UnitCmd) (l : List UnitCmd) (skip : Bool), s.clocked = true →
    s.core[c].bufXtl = cmd :: l → cmd.op = .xtlSeal skip → cmd.core = c →
    let p := s.partNum (c.val / 32)
    let step := cmd.sval
    let k := s.core[c]
    (s.stepQueued p step = true → exec (.sealDrain c) s = .next s) ∧
    (s.stepQueued p step = false →
      (s.givenUp p step = true → ∃ t, exec (.sealDrain c) s = .next t ∧ t.core[c].bufXtl = l ∧ t.gate = s.gate ∧
        t.core[c].toksIn = k.toksIn ++ [(cmd.tk, true)]) ∧
      (∀ g, s.gateSlot p step = some g →
        (g.outcome.isSome = true → ∃ t, exec (.sealDrain c) s = .next t ∧ t.core[c].bufXtl = l ∧
          t.core[c].toksIn = k.toksIn ++ [(cmd.tk, false)]) ∧
        (g.outcome = none → exec (.sealDrain c) s = .next { s with
          core := s.core.set c { k with bufXtl := l }
          gate := { s.gate with slots := s.gate.slots.map (fun h => if h.part = p ∧ h.step = step then
            { h with
              sealed := some (h.sealed.getD s.tide.num)
              skipReq := h.skipReq || (skip && h.localSt.isNone)
              waiting := if h.outcome.isSome then h.waiting else h.waiting ++ [cmd] } else h) } })))) ∧
  (∀ (s : State) (p : Fin 4) (i : Fin 8) (g : GateSlot), (s.gate.slots.filter (fun g => g.part = p.val))[i.val]? = some g →
    s.gateSlot p.val g.step = some g →
    let ovf := s.gate.ovf.contains (p.val, g.step)
    (g.sealed.isSome = true → g.localSt = none → s.granulesOf p.val g.step = 0 → s.suspectStep p.val g.step = false →
      s.gate.killed.contains (p.val, g.step) = false → ∃ t, exec (.localStatusFinal p i) s = .next t ∧
        (t.gateSlot p.val g.step).map (·.localSt) = some (some (ovf, g.skipReq)) ∧ t.core = s.core ∧ t.mem = s.mem ∧
        ((∀ j, s.job[p] = some j → ∀ d ∈ j.devs, d = s.device) → g.job = none →
          (t.gateSlot p.val g.step).map (·.job) = some (some (ovf, g.skipReq)))) ∧
    (g.sealed = none ∨ g.localSt.isSome = true ∨ s.granulesOf p.val g.step ≠ 0 ∨ s.suspectStep p.val g.step = true →
      exec (.localStatusFinal p i) s = .next s) ∧
    (∀ n, g.sealed = some n →
      let w := s.fld (xtlBase 0 + 0x800) 31 0
      (s.tide.num.toNat < n.toNat + w → exec (.holdWarnReached p i) s = .next s) ∧
      (w ≠ 0 → g.warned = false → g.job = none → n.toNat + w ≤ s.tide.num.toNat → ∃ t, exec (.holdWarnReached p i) s = .next t ∧
        (t.gateSlot p.val g.step).map (·.warned) = some true ∧
        t = { s with gate := t.gate, fifo := t.fifo, fifoDrop := t.fifoDrop, ctr := t.ctr }))) ∧
  (∀ (s : State) (p : PortIx) (g : Seg) (u : Nat) (j : Nat), s.headSeg p 3 = some (g, u) → s.fld 0x100000 7 4 = 0 →
    g.invalid 3 = false → g.dstDev = s.device → s.connOf g.ddie g.srcDev g.sdie = some j →
    let job := recNat g.data 9 7
    let hit (q : Nat) : Bool :=
      (s.job[Fin.ofNat 4 q]).any (fun (j : JobSt) => j.id.toNat % 2 ^ 56 == job && j.devs.contains g.srcDev)
    ∃ t, exec (.segStatus p) s = .next t ∧ t.core = s.core ∧ t.mem = s.mem ∧
      t.link.port[p].rx[(3 : Fin 4)].bytes = s.link.port[p].rx[(3 : Fin 4)].bytes.drop (32 * u) ∧
      (((List.range 4).find? hit = none → t.gate = s.gate) ∧
      ∀ q, (List.range 4).find? hit = some q → t.gate = (s.statusIn q (BitVec.ofNat 64 (recNat g.data 0 8)) g.srcDev
        (recNat g.data 8 1 % 2 == 1) (recNat g.data 8 1 / 2 % 2 == 1)).gate))

/-- Requests to the Stacker (R359 to R363, R371): while one is busy another only sets OVERRUN; an ALLOC ends with DONE and either maps
every page on frames that nothing else uses, or maps none; a FREE of a range that is no whole set of its partition's pages, or
badly formed, frees none; a MOVE needs a parked logical die and an eligible free target of its partition. -/
def Obligations.StackerRequests : Prop :=
  ∀ (s : State) (v : BitVec 64), s.wf = true → s.reachesDies = true →
    let busy := s.fld (stkReg 0x38) 0 0 = 1
    let part := bitsOf v 63 62
    let ended (t : State) : Prop := t.fld (stkReg 0x38) 0 0 = 0 ∧ t.fld (stkReg 0x38) 1 1 = 1
    let result (t : State) : Nat := t.fld (stkReg 0x38) 11 8
    let apart (a : PageAlloc) (q : Nat × Nat) : Prop := q.2 = 0 ∨ a.pa / 65536 + a.frames ≤ q.1 ∨ q.1 + q.2 ≤ a.pa / 65536
    (busy → ∀ i ∈ [Instr.stkAlloc v, .stkFree v, .stkMove v], exec i s = .next (s.setFld (stkReg 0x38) 2 2 1)) ∧
    (¬ busy →
      (∃ t new, exec (.stkAlloc v) s = .next t ∧ ended t ∧ t.stk.allocs = s.stk.allocs ++ new ∧
        (result t ≠ 0 → new = [] ∧ t.mem = s.mem) ∧
        (∀ a ∈ new, a.part = part ∧ a.frames = (if v.getLsbD 4 then 32 else 1) ∧ ∀ q ∈ s.usedSpans, apart a q) ∧
        new.Pairwise (fun a b => apart a (b.pa / 65536, b.frames)) ∧ t.core = s.core ∧ t.pan = s.pan) ∧
      (∃ t, exec (.stkFree v) s = .next t ∧ t.core = s.core ∧ (∀ a ∈ t.stk.allocs, a ∈ s.stk.allocs) ∧
        (ended t → result t ≠ 0 → t.stk = s.stk ∧ t.mem = s.mem) ∧
        (ended t ∨ t.stk.freeing = some (part, 65536 * s.fld (stkReg 0x20) 55 16, s.fld (stkReg 0x28) 24 0))) ∧
      (∃ t, exec (.stkMove v) s = .next t ∧ t.core = s.core ∧ t.mem = s.mem ∧
        match (s.logicalDies part)[bitsOf v 17 16]? with
        | none => ended t ∧ result t = 5 ∧ t.stk = s.stk
        | some d =>
          let n := bitsOf v 19 18
          if s.partOfDie n ≠ some part then ended t ∧ result t = 5 ∧ t.stk = s.stk
          else if (s.parkedCluster (2 * d) && s.parkedCluster (2 * d + 1)) = false then ended t ∧ result t = 6 ∧ t.stk = s.stk
          else if s.eligible n = false ∨ (s.stk.lmap[Fin.ofNat 4 n]).isSome = true then ended t ∧ result t = 7 ∧ t.stk = s.stk
          else t.stk = { s.stk with
              lmap := s.stk.lmap.set (Fin.ofNat 4 d) (some (part, bitsOf v 17 16, true))
              dieMove := some ⟨part, bitsOf v 17 16, d, n, false⟩ } ∧ t.fld (stkReg 0x38) 0 0 = 1))

/-- Pages and logical dies on the move (R364, R367, R368, R371, R377 to R379): a move ends once all its frames have moved and no access uses
its old entry, and then the page is at its new frames with its heat count gone; the copy of a logical die ends the request; heat
is halved after DECAY tides; an evacuation ends with event 0x1304, and a retry leaves no page of the stack stranded.

MMU_INV (R368): a GO while none is busy takes the range, and BUSY reads 1 until every access of the die that used one of its entries,
those of a page that any part of the range lies in, is performed; then DONE is set. -/
def Obligations.PagesAndInvalidations : Prop :=
  (∀ s : State,
     (∀ (i : Fin 256) (m : PageMove), s.stk.moves[i.val]? = some m →
       (m.moved < m.frames ∨ s.accessPending m.old m.frames = true → exec (.pageMoveComplete i) s = .next s) ∧
       (m.frames ≤ m.moved → s.accessPending m.old m.frames = false → s.stk.freeing = none →
         ∃ t, exec (.pageMoveComplete i) s = .next t ∧ t = { s with mem := t.mem, poison := t.poison, stk := { s.stk with
             allocs := s.stk.allocs.map (fun (a : PageAlloc) => if a.pa = m.old then { a with pa := m.new } else a)
             moves := s.stk.moves.filter (fun q => q.old != m.old)
             heat := s.stk.heat.map (fun l => l.filter (fun e => e.pa != m.old)) } } ∧
           (∀ a, s.stk.allocs.find? (fun (a : PageAlloc) => a.pa = m.old) = some a →
             t.mem = (s.putLeaf a.part a.va a.frames (leafWord m.new a.perm a.pin)).mem))) ∧
     (s.wf = true → ∀ m, s.stk.dieMove = some m → m.copied = false → ∃ t, exec .stkMoveComplete s = .next t ∧
       t.stk = { s.stk with dieMove := some { m with copied := true } } ∧ t.fld (stkReg 0x38) 0 0 = 0 ∧
       t.fld (stkReg 0x38) 1 1 = 1 ∧ t.disp = s.disp ∧ t.slu = s.slu) ∧
     exec .heatDecay s = .next (if max 1 (s.fld (stkReg 8) 63 48) ≤ s.stk.decayTides then { s with stk := { s.stk with
       decayTides := 0
       heat := s.stk.heat.map (fun l => l.map (fun (e : HeatEntry) => { e with counts := e.counts.map (· / 2) })) } } else s) ∧
     (∀ (k : Fin 16) (p : Fin 64), s.stk.evac.contains (k.val, p.val) = true →
       let over_ := s.stk.allocs.all (fun (a : PageAlloc) => !s.pageOn a (k.val, p.val) || s.stk.stranded.contains a.pa)
       (over_ = false → exec (.evacuationEnd k p) s = .next s) ∧
       (over_ = true → ∃ t, exec (.evacuationEnd k p) s = .next t ∧ t.stk = { s.stk with
           evac := s.stk.evac.filter (fun r => r != (k.val, p.val)) } ∧
         t = { s with stk := t.stk, fifo := t.fifo, fifoDrop := t.fifoDrop, ctr := t.ctr })) ∧
     (∀ k : Fin 16, s.reachesDies = true → ∃ t, exec (.evacRetry k) s = .next t ∧ t = { s with stk := t.stk } ∧
       (∀ p < 64, t.strandedOn (k.val, p) = 0 ∧ (0 < s.strandedOn (k.val, p) → (k.val, p) ∈ t.stk.evac)) ∧
       t.stk.allocs = s.stk.allocs)) ∧
  (∀ (s : State) (d : DieIx) (v : BitVec 64), s.wf = true →
     let off := memBase d.val + 0x1010
     (s.reachesDies = true →
       ((s.reg off).getLsbD 8 = false → ∃ t, exec (.mmuInvalidate d v) s = .next t ∧ t = { s with regs := t.regs, stk := t.stk } ∧
         t.stk = { s.stk with inv := s.stk.inv.set d (some (bitsOf v 2 1, 65536 * s.fld (memBase d.val + 0x1000) 55 16,
           s.fld (memBase d.val + 0x1008) 40 0)) } ∧ t.fld off 8 8 = 1) ∧
       ((s.reg off).getLsbD 8 = true → ∃ t, exec (.mmuInvalidate d v) s = .next t ∧ s.regsOnly t)) ∧
     (∀ part va n, s.stk.inv[d] = some (part, va, n) →
       let uses (a : Access) : Bool := s.partOfDie d.val == some part &&
         (n == 0 || decide (va < (s.pageOf part a.va).1 + (s.pageOf part a.va).2) &&
           decide ((s.pageOf part a.va).1 < va + 65536 * n)) &&
         (match a.op with
           | .ctlRd .. => false
           | .ctlWr .. => false
           | _ => true)
       let waits := (List.range 32).any (fun i => s.core[Fin.ofNat 128 (32 * d.val + i)].acc.any uses)
       (waits = true → exec (.mmuInvComplete d) s = .next s) ∧
       (waits = false → ∃ t, exec (.mmuInvComplete d) s = .next t ∧ t = { s with regs := t.regs, stk := t.stk } ∧
         t.stk = { s.stk with inv := s.stk.inv.set d none } ∧ t.fld off 8 8 = 0 ∧ t.fld off 9 9 = 1)))

/-- TIME (R35 to R37, R493 to R495): the master sends at every 64th edge; a follower measures its error, slews it within the tides to come
up to 1 µs and beyond that has its next tide take the nearest phase, and the edge that ends it the number of whole tides on; sixteen measurements within 25 ns make it ALIGNED, and one
outside ends that. The numbers adopted rest on log entry 40 (the model's choice). -/
def Obligations.TimeOfTheFleet : Prop :=
  (∀ (s : State) (origin : Vector (BitVec 32) 64),
    let sends := s.awake = true ∧ s.fld 0x1020 1 0 = 1 ∧ s.tide.num.toNat % 64 = 0
    (sends → ∃ t, exec (.timeSend origin) s = .next t ∧ s.linksOnly t ∧ t.link.timeSeq = s.link.timeSeq + 1) ∧
    (¬ sends → exec (.timeSend origin) s = .next s)) ∧
  (∀ (s : State) (p : PortIx) (ago : BitVec 32) (resid : Vector (BitVec 32) 64) (g : Seg) (u : Nat),
    s.wf = true → s.headSeg p 2 = some (g, u) → s.fld 0x100000 7 4 = 0 → g.invalid 2 = false → g.dstDev = s.device →
    g.typ = 6 → g.data.length = 32 → s.fld 0x1020 1 0 = 2 → (s.reg (optBase 0 + 0x10)).getLsbD 6 = true →
    bitsOf (s.reg (optBase 0 + 0x10)) 5 0 = p.val → recNat g.data 0 2 = s.fld 0x1020 63 48 →
    (∀ q : Fin 4, s.job[q] = none) → s.mgmt.queue = [] →
    let err : Int := (recNat g.data 16 4 : Int) + recNat g.data 20 4 + s.fld (linkReg p 0x10) 31 0 -
      s.arrival (BitVec.ofNat 64 (recNat g.data 8 8)) ago
    let period : Int := 16000 * s.periodUs
    ∃ t, exec (.segTime p ago resid) s = .next t ∧ t.tide.num = s.tide.num ∧ t.core = s.core ∧ t.mem = s.mem ∧
      t.link.port[p].rx[(2 : Fin 4)].bytes = s.link.port[p].rx[(2 : Fin 4)].bytes.drop (32 * u) ∧
      (err.natAbs ≤ 16000 → t.tide.slew = err ∧ t.tide.adj = s.tide.adj ∧ t.tide.step = s.tide.step) ∧
      (16000 < err.natAbs → t.tide.slew = 0 ∧ ∃ (k phi : Int) (n : BitVec 32), err = k * period + phi ∧
        -period ≤ 2 * phi ∧ 2 * phi < period ∧ t.tide.step = some (phi, BitVec.ofInt 64 (s.tide.num.toNat + 2 + k), n) ∧ t.tide.adj = s.tide.adj) ∧
      (err.natAbs ≤ 400 → t.tide.alignRun = s.tide.alignRun + 1 ∧ (15 ≤ s.tide.alignRun → t.fld 0x1020 6 6 = 1)) ∧
      (400 < err.natAbs → t.tide.alignRun = 0 ∧ t.fld 0x1020 6 6 = 0))

/-- A balancing round moves power and makes none (R550): over the modules of a job, with no device named twice, the changes of the caps
add up to zero, no module gives below its floor or more than 100 W.

A balancing round and the broker's successor (R550): the module schedules its own change, a reduction for edge T and an increase for 64
tides later; after 1000 tides without a message the next device takes the broker's place. -/
def Obligations.PowerBalancing : Prop :=
  (∀ parts : List BalPart, (parts.map (·.dev)).Nodup →
     (parts.map (fun b => balance parts b.dev.toNat)).sum = 0 ∧
     ∀ b ∈ parts, -4 ≤ balance parts b.dev.toNat ∧
       (balance parts b.dev.toNat < 0 → (b.floor.toNat : Int) ≤ b.cap.toNat + balance parts b.dev.toNat)) ∧
  (∀ (s : State) (p : PartIx) (parts : List BalPart) (e : BitVec 64) (j : JobSt), s.wf = true → s.serving = true →
     s.job[p] = some j → j.man.balance = true →
     let d := balance parts s.device
     let target := if d < 0 then e else e + 64
     (s.tide.num.toNat + 200 ≤ e.toNat → e.toNat + 64 < s.tide.num.toNat + 2 ^ 20 →
       ∃ t, exec (.balanceRound p parts e) s = .next t ∧ t.core = s.core ∧ t.mgmt.brokerTide = s.mgmt.brokerTide.set p s.tide.num ∧
         (d = 0 → s.regs = t.regs) ∧
         (d ≠ 0 → 0 ≤ (s.fld 0x100010 8 0 : Int) + d → t.pwr.capTarget = target ∧
           (t.fld 0x100018 8 0 : Int) = ((s.fld 0x100010 8 0 : Int) + d) % 512)) ∧
     (e.toNat < s.tide.num.toNat + 200 → exec (.balanceRound p parts e) s = .next s) ∧
     (s.tide.num.toNat < s.mgmt.brokerTide[p].toNat + 1000 → exec (.brokerTakeover p) s = .next s) ∧
     (s.mgmt.brokerTide[p].toNat + 1000 ≤ s.tide.num.toNat → exec (.brokerTakeover p) s = .next { s with mgmt := { s.mgmt with
       broker := s.mgmt.broker.set p ((s.mgmt.broker[p] + 1) % max 1 j.devs.length)
       brokerTide := s.mgmt.brokerTide.set p s.tide.num } }))

/-- Sessions, and the commands out of sequence (R22, R576, R577, R579, R583): by a path that is open, a certificate of the owner key
in effect, or of the vendor for field service in PROVISIONED, opens a session; HELLO takes an epoch and answers where both rings stand; EVT_ACK acknowledges up to
the last record; QUERY and /metrics read. Only the session's own answer and firmware's state change.

The order of sequenced commands (R578 to R580): the next one is accepted and counted; an older one is answered with what became of
it, one from further on with the gap, one of a stale epoch or a bad header so; a session whose role may not issue a command, or a
malformed body, retires it and changes nothing else. -/
def Obligations.SessionsAndCommandOrder : Prop :=
  (∀ (s : State) (n : Fin 16) (path : SesPath) (c : Cert) (h : CmdHdr) (q : BitVec 64) (ses : Session), s.serving = true → s.handingOver = false →
     let put (f : MgmtSt → MgmtSt) (k : Nat) (r : Reply) : State :=
       { s with mgmt := { (f s.mgmt) with reply := some (k, r) } }
     let known := assoc h.ses.val s.mgmt.sessions = some ses ∧ badHdr h = false
     let last := s.reg 0x300040
     ((∀ m : Fin 2, path = .mgmt m → s.pathOpen path = true) ∧
       (∀ o, path = .tuimal o → s.pathOpen path = (s.portState o == 3))) ∧
     (s.pathOpen path = false → exec (.sessionOpen n ⟨path, c⟩) s = .next s) ∧
     (s.pathOpen path = true → s.certOk c = true → exec (.sessionOpen n ⟨path, c⟩) s =
       .next (put (fun m => { m with sessions := assocPut n.val ⟨c.role.val, c.id⟩ m.sessions }) n.val .opened)) ∧
     (s.pathOpen path = true → s.certOk c = false → exec (.sessionOpen n ⟨path, c⟩) s = .next (put id n.val .denied)) ∧
     (known →
       (s.mgmt.epoch.toNat ≤ h.epoch.toNat → exec (.hello h) s = .next (put (fun m => { m with epoch := h.epoch }) h.ses.val
         (.hello (s.reg 0x300008) (s.reg 0x300030) (s.reg 0x300038)
           (((s.mgmt.ring.head?).map (·.1)).getD (last + 1)) (last + 1) h.epoch))) ∧
       (h.epoch.toNat < s.mgmt.epoch.toNat → exec (.hello h) s = .next (put id h.ses.val .staleEpoch)) ∧
       (∃ t, exec (.evtAck h q) s = .next t ∧ t.mgmt.acked.toNat = max s.mgmt.acked.toNat (min q.toNat last.toNat) ∧
         t.mgmt.reply = some (h.ses.val, .acked q) ∧ t = { s with mgmt := { s.mgmt with acked := t.mgmt.acked, reply := t.mgmt.reply } }) ∧
       exec (.query h .slotId) s = .next (put id h.ses.val (.slotId s.board.slotId)) ∧
       (∀ p, exec (.query h (.partition p)) s = .next (put id h.ses.val (.partition ((s.job[p]).map (·.id))))) ∧
       (∀ off : BitVec 32, ∀ v, s.windowRead off.toNat = some v → s.offAccess off.toNat = false →
          s.openAt off.toNat = none → fillsAt off.toNat = [] →
         exec (.query h (.register off)) s = .next (put id h.ses.val (.register v)))) ∧
     (assoc h.ses.val s.mgmt.sessions = none → exec (.hello h) s = .next s) ∧
     ∃ t : State, exec .metricsGet s = .next { t with mgmt := { s.mgmt with reply := some (16, .metrics (s.reg 0x1010) t.shadow) } } ∧
       t = { s with ctr := t.ctr, shadow := t.shadow, tide := { s.tide with snapSeen := t.tide.snapSeen }, free := t.free } ∧
       ∀ key, openKeys.contains key = false → mapGet zero64 t.shadow key = mapGet zero64 s.shadow key) ∧
  (∀ (s : State) (h : CmdHdr) (ses : Session) (bad : Bool) (body : CtlBody) (i : Instr), isCtlRow h bad i body → s.serving = true →
     s.handingOver = false → assoc h.ses.val s.mgmt.sessions = some ses →
     let acc := s.acceptedSeq
     let replies (r : Reply) : Prop :=
       exec i s = .next { s with mgmt := { s.mgmt with reply := some (h.ses.val, r) } }
     (badHdr h = true → replies .badHeader) ∧
     (badHdr h = false →
       (h.epoch.toNat < s.mgmt.epoch.toNat → replies .staleEpoch) ∧
       (h.epoch = s.mgmt.epoch → h.seq ≠ acc + 1 →
         (h.seq.toNat ≤ acc.toNat → replies (.duplicate h.seq (assoc h.seq s.mgmt.retired))) ∧
         (acc.toNat < h.seq.toNat → replies (.gap acc))) ∧
       (h.epoch = s.mgmt.epoch → h.seq = acc + 1 → 1024 + s.mgmt.retired.length ≤ acc.toNat → replies .full)) ∧
     (s.wf = true → s.accepts h ses →
       (body.roleOk ses.role = false ∨ bad = true → ∃ t, exec i s = .next t ∧ t.acceptedSeq = h.seq ∧
         t.mgmt.retired = s.mgmt.retired ++ [(h.seq, if body.roleOk ses.role then 2 else 1)] ∧ t.mgmt.current = none ∧
         t = { s with regs := t.regs, ctr := t.ctr, fifo := t.fifo, fifoDrop := t.fifoDrop, mgmt := t.mgmt })))

/-- What the sequenced commands do (R458, R522, R532 to R534, R555, R569, R573 to R575, R595, R596), each from a role that may issue it: the command
retires OK and has its effect. -/
def Obligations.SequencedCommands : Prop :=
  ∀ (s : State) (h : CmdHdr) (ses : Session), s.wf = true → s.accepts h ses →
    let does (i : Instr) (f : State → Prop) : Prop := ∃ t, exec i s = .next t ∧ t.acceptedSeq = h.seq ∧
      t.mgmt.retired = s.mgmt.retired ++ [(h.seq, 0)] ∧ t.mgmt.current = none ∧ f t
    (ses.role = 2 →
      (∀ cap, does (.setCap h false cap none) (fun t => (assoc 0x100010 t.staged).map (fun w => bitsOf w 8 0) = some cap.toNat)) ∧
      (∀ cap (e : BitVec 48), (e.toNat + 2 ^ 48 - (s.tide.num.toNat + 1) % 2 ^ 48) % 2 ^ 48 < 2 ^ 20 →
        does (.setCap h false cap (some e)) (fun t => t.fld 0x100018 8 0 = cap.toNat ∧ t.fld 0x100018 63 16 = e.toNat)) ∧
      (∀ e, s.tide.num.toNat < e.toNat →
        does (.snapshot h false e) (fun t => t.reg 0x1040 = e ∧ (t.reg 0x1048).getLsbD 0 = true)) ∧
      (s.fld 0x100000 7 4 = 0 → does (.powerState h false 1) (fun t => t.pwr.m1Wait = true)) ∧
      (∀ b, s.laser (partnerBay b.val) = 2 →
        does (.laserRelease h false b) (fun t => (t.reg (laserReg b.val 8)).getLsbD 0 = true)) ∧
      (∀ x force, s.xtl[x].resetting = false → s.xtl[x].running = none →
        does (.xtlReset h false x force) (fun t => t.xtl[x].resetting = true ∧ t.xtl[x].queue = [])) ∧
      (∀ u, does (.fence h false u true) (fun t => t.fenceSet (fenceName u).1 (fenceName u).2.1 (fenceName u).2.2 = true)) ∧
      (∀ id p j, s.jobPart id = some p → s.job[p] = some j → j.phase = .running →
        does (.jobAbort h false id) (fun t => (t.job[p]).map (·.phase) = some (.ending 1)))) ∧
    (ses.role = 1 →
      (∀ i, s.imageBad i = none → does (.fwStage h false i) (fun t => t.mgmt.slots[s.otherSlot] = some ⟨i, false, 0⟩)) ∧
      (∀ k e, s.fld 0x300000 7 7 = 0 → s.slotBad s.mgmt.slots[k] = none →
        does (.fwActivate h false k e) (fun t => t.mgmt.handover = some ⟨k, e⟩)) ∧
      (∀ k data, does (.ucodeLoad h false (.calibration k data)) (fun t => t.mgmt.calib = s.mgmt.calib.set k data)) ∧
      (∀ dies image v o, s.signedOk image v o = true → (∀ d : DieIx, s.brn[d].queue = [] ∧ s.brn[d].batches = []) →
        does (.ucodeLoad h false (.brine dies image v o)) (fun t => ∀ d : DieIx,
          t.mgmt.ucode[d] = if dies.getLsbD d.val then image else s.mgmt.ucode[d])) ∧
      (∀ c : Fin 4, s.fld 0x100008 1 0 < c.val → s.ledgerCount 1 < 8 →
        does (.classRaise h false c) (fun t => t.fld 0x100008 1 0 = c.val ∧ t.ledgerCount 1 = s.ledgerCount 1 + 1)) ∧
      (∀ hash, s.mgmt.ownerKeys.length = s.fld 0x300208 4 0 → s.fld 0x300208 4 0 < 16 → s.ledgerCount 4 < 16 →
        does (.ownerRotate h false hash) (fun t => t.mgmt.ownerKeys = s.mgmt.ownerKeys ++ [hash] ∧
          t.fld 0x300208 4 0 = s.fld 0x300208 4 0 + 1)) ∧
      (∀ st : Fin 4, s.fld 0x300200 1 0 < st.val → (st.val = 2 → s.fld 0x300208 4 0 ≠ 0) → s.ledgerCount 5 < 3 →
        does (.lifecycle h false st) (fun t => t.fld 0x300200 1 0 = st.val))) ∧
    (ses.role = 3 →
      (∀ token, (s.ownerKey).any (fun k => Config.verifies k s.serialBytes token) = true → s.ledgerCount 2 < 4 →
        does (.debugUnlock h false token) (fun t => t.fld 0x300210 0 0 = 1)) ∧
      (∀ (p : ClusterIx) (v : BitVec 64), bitsOf v 8 0 ≤ 259 → bitsOf (s.reg (panBase p.val + 0x38)) 15 0 ≠ bitsOf v 15 0 →
        s.mgmt.fuses.any (fun (q : Nat × BitVec 64) => q.1 == p.val && bitsOf q.2 15 9 == bitsOf v 15 9) = false →
        does (.fuseProg h false p v) (fun t => t.mgmt.fuses = s.mgmt.fuses ++ [(p.val, (v.setWidth 16).setWidth 64)])))

/-- The life of a job (R586 to R590): a submit that a check refuses, or whose start window fails, retires with the status and leaves jobs
and memory as they were; one whose window ends well holds the partition, and runs at once where the module is aligned; a start that
waited too long is given up; an end empties the partition once it is drained; a cause that firmware has begins the end of a
running job. -/
def Obligations.JobLifecycle : Prop :=
  (∀ (s : State) (h : CmdHdr) (ses : Session) (m : Manifest), s.wf = true → s.accepts h ses → ses.role = 2 →
    let c : CtlCmd := ⟨h.seq, ses.role, ses.id, false, .jobSubmit m⟩
    let took := s.took h c
    (∀ n, s.submitRefusal m = some n → ∃ t, exec (.jobSubmit h false m) s = .next t ∧ t.job = s.job ∧ t.mem = s.mem ∧
      t.mgmt.retired = s.mgmt.retired ++ [(h.seq, n)]) ∧
    (s.submitRefusal m = none → ∀ p, (List.finRange 4).find? (fun p => (s.job[p]).isNone) = some p →
      match took.startWindow p ((took.pickDies m).getD []) m h.seq with
      | .error (n, _) => ∃ t, exec (.jobSubmit h false m) s = .next t ∧ t.job = s.job ∧ t.mem = s.mem ∧ t.core = s.core ∧
        t.mgmt.retired = s.mgmt.retired ++ [(h.seq, n)]
      | .ok u => ∃ t, exec (.jobSubmit h false m) s = .next t ∧ (t.job[p]).map (·.id) = some m.jobId ∧
        (t.job[p]).map (·.phase) = some (if u.jobAligned m then .running else .starting) ∧
        (∀ q, q ≠ p → t.job[q] = s.job[q]) ∧
        t.mgmt.retired = if u.jobAligned m then s.mgmt.retired ++ [(h.seq, 0)] else s.mgmt.retired)) ∧
  (∀ (s : State) (p : PartIx) (j : JobSt) (why : EndWhy), s.serving = true → s.job[p] = some j → s.mgmt.queue = [] →
    (j.phase = .starting → s.jobAligned j.man = false → ∃ t, exec (.alignTimeout p) s = .next t ∧ t.job[p] = none ∧
      ∀ q, j.seq = some q → (q, 8) ∈ t.mgmt.retired) ∧
    (s.jobAligned j.man = true → exec (.alignTimeout p) s = .next s) ∧
    (∀ r, j.phase = .ending r → (s.killPart p.val).partDrained p.val = true → ∃ t, exec (.jobEnd p .finish) s = .next t ∧
      t.job[p] = none ∧ (∀ q, q ≠ p → t.job[q] = s.job[q]) ∧ (∀ a ∈ t.stk.allocs, a.part ≠ p.val) ∧ t.mem = s.mem) ∧
    (j.phase = .running → s.abortCause p why = true → ∃ t, exec (.jobEnd p why) s = .next t ∧
      (t.job[p]).map (·.phase) = some (.ending (endCode why)) ∧ t.mem = s.mem) ∧
    (j.phase = .running → s.abortCause p why = false → exec (.jobEnd p why) s = .next s))

/-- The watchdog and handover (R566, R567, R595): the first failure of the heartbeat moves the primary to D1 with event 0x0404 and retires
the command in progress INTERRUPTED, or begins the boot anew; a second asserts FAULT_L; a handover that ends well toggles the
primary die and runs the slot it named, one that fails leaves both.

The event ring (R583 to R585): the records of the four FIFOs go to the ring in the order of their stamps, each with the next sequence
number, and the FIFOs are empty. -/
def Obligations.TakeoverAndEventRing : Prop :=
  (∀ (s : State) (ok : Bool), s.wf = true →
     (s.awake = true → s.board.d1Failed = false →
       (s.primary = 1 → ∃ t, exec .heartbeatTimeout s = .next t ∧ t.board.d1Failed = true ∧ t.faultL = true ∧
         t.board.log = s.board.log ++ [⟨4, 0, s.tide.num⟩] ∧ t = { s with board := t.board }) ∧
       (s.primary ≠ 1 → s.board.phase = .run → s.mgmt.waiting = [] → s.mgmt.queue = [] →
         (∀ p : Fin 4, s.job[p] = none) → ∃ t, exec .heartbeatTimeout s = .next t ∧ t.primary = 1 ∧ t.fld 0x300000 7 7 = 1 ∧
           t.board = { s.board with mcHeld := true } ∧ t.mgmt.handover = none ∧ t.mgmt.current = none ∧
           t.mgmt.retired = s.mgmt.retired ++ (s.mgmt.current.toList.map (fun c => (c.seq, 11)))) ∧
       (s.primary ≠ 1 → s.board.phase = .boot → ∃ t, exec .heartbeatTimeout s = .next t ∧ t.primary = 1 ∧
         t.board = { s.board with mcHeld := true, phase := .boot, tookInBoot := true } ∧ t.mgmt.queue = [])) ∧
     (∀ hd, s.mgmt.handover = some hd → s.serving = true → s.handingOver = true → s.mgmt.waiting = [] → s.primary < 2 →
       ∃ t, exec (.fwHandover ok) s = .next t ∧ t.mgmt.handover = none ∧ t.core = s.core ∧
         t.primary = (if ok then 1 - s.primary else s.primary) ∧ (ok = true → t.fld 0x300000 5 5 = hd.slot.val))) ∧
  (∀ s : State, s.wf = true →
     let l := s.fifoRecords
     l.Perm s.fifo.toList.flatten ∧
     l.Pairwise (fun a b => a.tide.toNat < b.tide.toNat ∨ (a.tide = b.tide ∧ a.ns ≤ b.ns)) ∧
     (s.serving = true → (∀ d : DieIx, s.fifoDrop[d] = 0) → s.mgmt.ring.length + l.length ≤ ringSize →
       ∃ t, exec .eventRingAppend s = .next t ∧ t.fifo = Vector.replicate 4 [] ∧
         t.reg 0x300040 = s.reg 0x300040 + BitVec.ofNat 64 l.length ∧
         t.mgmt.ring = s.mgmt.ring ++ l.zipIdx.map (fun q => (s.reg 0x300040 + BitVec.ofNat 64 (q.2 + 1), q.1)) ∧
         t = { s with regs := t.regs, ctr := t.ctr, fifo := t.fifo, mgmt := t.mgmt }))

/-- Mailbox requests (R360, R590, R591, R49): each operation is served by its own row alone; END ends the request with STATUS 1 and
begins the job's end; ALLOC, FREE and MOVE are the Stacker's own request for the partition and wait for it; SNAPSHOT arms the
module snapshot; a completion with a QUEUE is a SEND, and one whose ring is full keeps BUSY; an operation outside the list ends with
a status of 0x100 or more (the number is a free value: DESIGN CHOICE of log entry 6).

Checkpoints (R591, R593): a tap that another owner holds ends the request with 0x101 and event 0x0407; a region written to a RoCE
target goes out behind nothing, followed by the index that gives its CRC; a region read back is written through its sluice, and one
whose CRC differs raises event 0x040B. The index's place and layout are the model's (DESIGN CHOICE of log entry 57). -/
def Obligations.MailboxAndCheckpoints : Prop :=
  (∀ (s : State) (p : PartIx) (pa : Nat), s.wf = true → s.serving = true → s.fld (mboxReg p.val) 0 0 = 1 →
     s.mboxPa p.val = some pa → s.mgmt.mboxWait[p] = none →
     let b := s.rdBytes pa 64
     let op := recNat b 0 2
     let quiet := s.rdByte (pa + 2) = 0xFF
     let free := s.fld (stkReg 0x38) 0 0 = 0 ∧ (∀ q : PartIx, s.mgmt.mboxWait[q] ≠ some 0)
     let word (i : Nat) : BitVec 64 := BitVec.ofNat 64 (recNat b i 8)
     let asked := (s.setReg (stkReg 0x20) (word 16 &&& 0x00FFFFFFFFFF0000)).setReg (stkReg 0x28) (word 24 &&& 0x1FFFFFF)
     let stacker (i k : Instr) : Prop := ∃ u t, exec k asked = .next u ∧ exec i s = .next t ∧
       (u.fld (stkReg 0x38) 0 0 = 1 → t = { u with mgmt := { u.mgmt with mboxWait := u.mgmt.mboxWait.set p (some 0) } }) ∧
       (u.fld (stkReg 0x38) 0 0 = 0 → ∀ at_, u.mboxPa p.val = some at_ → u.rdByte (at_ + 2) = 0xFF →
         let r := u.fld (stkReg 0x38) 11 8
         t.fld (mboxReg p.val) 0 0 = 0 ∧ t.stk = u.stk ∧
           t.mem = (u.store (at_ + 4) (leBytes 4 (if r = 0 then 1 else 0x100 + r))).mem)
     let rows : List (Nat × Instr) :=
       [(1, .mboxEnd p), (2, .mboxAlloc p), (3, .mboxFree p), (4, .mboxMove p), (7, .mboxSnapshot p)]
     (1 ≤ op → op ≤ 7 → ∀ q ∈ rows, q.1 ≠ op → exec q.2 s = .next s) ∧
     (op = 0 ∨ 7 < op → quiet → ∀ q ∈ rows, ∃ t v, exec q.2 s = .next t ∧ t.fld (mboxReg p.val) 0 0 = 0 ∧
       v < 256 ∧ t.mem = (s.store (pa + 4) (leBytes 4 (0x100 + v))).mem) ∧
     (op = 1 → ∃ t, exec (.mboxEnd p) s = .next t ∧ (∀ j, s.job[p] = some j → j.phase = .running → (t.job[p]).map (·.phase) = some (.ending 0)) ∧
       (quiet → t.fld (mboxReg p.val) 0 0 = 0 ∧ (∀ i < 4, t.byteAt (pa + 4 + i) = if i = 0 then 1 else 0)) ∧
       (¬ quiet →
         let d := s.mgmt.mboxDie[p]
         let bs := leBytes 8 (s.mboxVa p.val) ++ leBytes 4 1 ++ List.replicate 20 0
         let r := ((s.store (pa + 4) (leBytes 4 1)).performSend d d (s.rdByte (pa + 2)).toNat s.device d bs).2
         (r = none → t.fld (mboxReg p.val) 0 0 = 1 ∧ t.mgmt.mboxWait[p] = some 1) ∧
         (r.isSome → t.fld (mboxReg p.val) 0 0 = 0))) ∧
     (s.domainsOff = false → free →
       let v := setBits (word 8) 63 62 p.val
       (op = 2 → stacker (.mboxAlloc p) (.stkAlloc v)) ∧
       (op = 3 → stacker (.mboxFree p) (.stkFree v)) ∧
       (op = 4 → stacker (.mboxMove p) (.stkMove v))) ∧
     (op = 7 → s.tide.num.toNat < (word 8).toNat → quiet → ∃ t, exec (.mboxSnapshot p) s = .next t ∧
       t.fld (mboxReg p.val) 0 0 = 0 ∧ t.reg 0x1040 = word 8 ∧ t.fld 0x1048 0 0 = 1) ∧
     exec (.mboxClearDropped p) s = .next (s.setFld (mboxReg p.val) 1 1 0)) ∧
  (∀ (s : State) (p : PartIx) (pa : Nat) (r : CkptRegion) (b : List Byte) (crc : BitVec 64), s.wf = true → s.serving = true →
     s.fld (mboxReg p.val) 0 0 = 1 → s.mboxPa p.val = some pa → s.mgmt.mboxWait[p] = none →
     let op := recNat (s.rdBytes pa 64) 0 2
     let busy (i : Instr) (q : Nat × Nat) : Prop := s.rdByte (pa + 2) = 0xFF → ∃ t, exec i s = .next t ∧
       t.fld (mboxReg p.val) 0 0 = 0 ∧ (∀ k < 4, t.byteAt (pa + 4 + k) = if k < 2 then 1 else 0) ∧
       t.fifo = (s.raiseMod 3 0x407 (pack [(q.1, 0), (0xC0, 16), (q.2, 24)])).fifo ∧ t.int = s.int
     (op = 5 → ∀ plan target q, s.tapHeld plan false = some q → busy (.ckptWrite p plan target) q) ∧
     (op = 6 → ∀ plan back q, s.tapHeld plan true = some q → busy (.ckptRead p plan back) q) ∧
     (op = 5 → s.tapHeld [r] false = none → s.planOk p.val [r] = true → ∀ (n : Fin 256) (port : Fin 8) (a : BitVec 64),
       let x := (s.ckptCtx r).rdLong r.va.toNat r.len.toNat
       x.2.received.2 = true → ∃ t, exec (.ckptWrite p [r] (.roce n port a)) s = .next t ∧
         t.link.qpOut = x.2.received.1.link.qpOut ++ [(n.val, a.toNat, x.1),
           (n.val, a.toNat + x.1.length, ckptIndexOf [(r, crc64 x.1)])] ∧
         t.mgmt.ckptIndex = ckptIndexOf [(r, crc64 x.1)]) ∧
     (op = 6 → s.tapHeld [r] true = none → s.planOk p.val [r] = true →
       let w := ((s.ckptCtx r).wrLong r.va.toNat (b.take r.len.toNat)).received
       (crc64 (b.take r.len.toNat) = crc → w.2 = true → exec (.ckptRead p [r] [(b, crc)]) s = .next (w.1.mboxEnd p 1)) ∧
       (crc64 (b.take r.len.toNat) ≠ crc → exec (.ckptRead p [r] [(b, crc)]) s =
         .next ((w.1.raiseMod 3 0x40B (pack [(r.va.toNat, 0), (p.val, 56)]) p.val).mboxFail p))))

/-- The I3C target (R613, R619, R620): without power of the island nothing answers; ENTDAA and SETDASA at 0x2A give an address once,
RSTDAA takes it back; the GET codes answer; a private write sets the index and, at the alert register alone, clears the bits whose
cause is gone; a private read returns the bytes of the map from the index upwards. GETSTATUS has no content in the spec (free value,
log entry 6).

What the I3C map reads (R620): DEV_ID, DEV_SERIAL, the state, the alert register, VIN, input power, the die temperatures, the slot and
the last entry of the fault log.

The JTAG port (R621): each instruction leaves what its data register captured; DBG_ACCESS reaches the debug modules, whose answer the
spec leaves open (free value, log entry 6), only while MGMT_STATUS.DEBUG is 1, and acts as BYPASS otherwise. -/
def Obligations.PinsAndTestPort : Prop :=
  (∀ (s : State) (a st : BitVec 7) (n e : BitVec 8) (i : Byte) (l : List Byte),
     let q := s.board
     let pid := (leBytes 6 s.provisionedId.toNat).reverse
     let up : Prop := s.i3cUp = true
     (¬ up → ∀ j ∈ ([.entdaa a, .setdasa st a, .rstdaa, .enec e, .disec e, .getpid, .getbcr, .getdcr, .getstatus,
         .i3cPrivateWrite l, .i3cPrivateRead n] : List Instr), exec j s = .next s) ∧
     (up →
       exec .rstdaa s = .next { s with board := { q with dynAddr := none } } ∧
       exec (.enec e) s = .next { s with board := { q with ibiEn := q.ibiEn || e.getLsbD 0 } } ∧
       exec (.disec e) s = .next { s with board := { q with ibiEn := q.ibiEn && !e.getLsbD 0 } } ∧
       (q.dynAddr = none →
         exec (.entdaa a) s = .next { s with board := { q with i3cOut := pid ++ [0x06, Config.i3cDcr], dynAddr := some a } } ∧
         exec (.setdasa 0x2A a) s = .next { s with board := { q with dynAddr := some a } } ∧
         (st ≠ 0x2A → exec (.setdasa st a) s = .next s) ∧
         (∀ j ∈ ([.getpid, .getbcr, .getdcr, .getstatus, .i3cPrivateWrite l, .i3cPrivateRead n] : List Instr),
           exec j s = .next s)) ∧
       (∀ d, q.dynAddr = some d →
         exec (.entdaa a) s = .next s ∧ exec (.setdasa st a) s = .next s ∧
         exec .getpid s = .next { s with board := { q with i3cOut := pid } } ∧
         exec .getbcr s = .next { s with board := { q with i3cOut := [0x06] } } ∧
         exec .getdcr s = .next { s with board := { q with i3cOut := [Config.i3cDcr] } } ∧
         (∃ t, exec .getstatus s = .next t ∧ t.board.i3cOut.length = 2 ∧
           t = { s with free := s.free + 1, board := { q with i3cOut := t.board.i3cOut } }) ∧
         (∃ t, exec (.i3cPrivateRead n) s = .next t ∧ t.board.i3cOut.length = n.toNat ∧
           (∀ k < n.toNat, t.board.i3cOut[k]? = some (s.i3cByte (q.i3cIx + k))) ∧
           t = { s with board := { q with i3cOut := t.board.i3cOut, i3cIx := q.i3cIx + n.toNat } }) ∧
         (i.toNat + l.length ≤ 0x11 ∨ 0x11 < i.toNat →
           exec (.i3cPrivateWrite (i :: l)) s = .next { s with board := { q with i3cIx := i.toNat } }) ∧
         (∃ t, exec (.i3cPrivateWrite [0x11, i]) s = .next t ∧ t.board.i3cIx = 0x11 ∧
           (∀ k : Fin 5, t.board.alert.getLsbD k.val =
             ((q.alert.getLsbD k.val && !i.getLsbD k.val) || (i.getLsbD k.val && s.alertCause k))) ∧
           t = { s with board := { q with i3cIx := t.board.i3cIx, alert := t.board.alert, ibi := t.board.ibi } })))) ∧
  (∀ s : State, let m := s.i3cByte
     (∀ k < 8, m k = BitVec.ofNat 8 ((s.reg 0).toNat / 256 ^ k) ∧ m (8 + k) = BitVec.ofNat 8 ((s.reg 8).toNat / 256 ^ k)) ∧
     (s.board.phase = .run → m 0x10 = BitVec.ofNat 8 s.pstate) ∧ (s.board.phase = .boot → m 0x10 = 6) ∧
     (s.board.phase = .reset → m 0x10 = 7) ∧ (s.board.phase = .tripped → m 0x10 = 0xFF) ∧
     m 0x11 = s.board.alert.setWidth 8 ∧ m 0x1A = s.board.slotId.setWidth 8 ∧
     (∀ k < 2, s.board.vin < 2 ^ 16 → s.board.watts < 2 ^ 16 →
       m (0x12 + k) = BitVec.ofNat 8 (s.board.vin / 256 ^ k) ∧ m (0x14 + k) = BitVec.ofNat 8 (s.board.watts / 256 ^ k)) ∧
     (∀ d : DieIx, m (0x16 + d.val) = if s.diePowered then BitVec.ofNat 8 (s.pwr.die[d]).tj else 0xFF) ∧
     (s.board.log = [] → m 0x20 = 0xFF) ∧
     (∀ l r, s.board.log = l ++ [r] → m 0x20 = BitVec.ofNat 8 r.cause ∧ (r.cause = 2 → m 0x21 = BitVec.ofNat 8 r.die) ∧
       ∀ k < 8, m (0x28 + k) = BitVec.ofNat 8 (r.tide.toNat / 256 ^ k)) ∧
     (∀ k, 0x30 ≤ k → m k = 0)) ∧
  (∀ (s : State) (pins cells : BitVec 13),
     let q := s.board
     (s.islandOn = false → ∀ j ∈ ([.idcode, .bypass, .tapReset, .dbgAccess, .extest pins cells, .samplePreload pins cells] : List Instr),
       exec j s = .next s) ∧
     (s.islandOn = true →
       exec .idcode s = .next { s with board := { q with ir := 0x01, dr := 0x1F80112F } } ∧
       exec .tapReset s = .next { s with board := { q with ir := 0x01, dr := 0x1F80112F } } ∧
       exec .bypass s = .next { s with board := { q with ir := 0xFF, dr := 0 } } ∧
       exec (.extest pins cells) s =
         .next { s with board := { q with ir := 0, capture := pins, bscan := cells, dr := pins.setWidth 32 } } ∧
       exec (.samplePreload pins cells) s =
         .next { s with board := { q with ir := 2, capture := pins, bscan := cells, dr := pins.setWidth 32 } } ∧
       (s.fld 0x300000 6 6 = 0 → exec .dbgAccess s = .next { s with board := { q with ir := 0x20, dr := 0 } }) ∧
       (s.fld 0x300000 6 6 = 1 → ∃ t, exec .dbgAccess s = .next t ∧
         t = { s with free := s.free + 1, board := { q with ir := 0x20, dr := t.board.dr } })))

/-- A write of the control window by firmware (R8 to R14, R557): RW bits take the value, a 1 clears a W1C bit, RWT bits wait for the next
edge, other bits and other registers stand; counters and shadows take nothing; an offset no chapter lists, or a misaligned one,
raises event 0x0101 and changes no register, and a block of a domain that is off event 0x020B. -/
def Obligations.RegisterWrite : Prop :=
  ∀ (s : State) (m : Fin 8) (off v : BitVec 64), s.wf = true → s.awake = true →
    (s.offAccess off.toNat = false →
      (∀ d b o r, slotOf off.toNat = some (.reg d b o r) →
        let a := canonOff b off.toNat r
        s.specialWrite b a r v = none → s.frozen b r v = 0 → a < 0x210200 ∨ 0x210290 ≤ a →
        ∃ t, exec (.registerWrite m off v) s = .next t ∧
          t.reg a = ((s.reg a &&& ~~~d.rw) ||| (v &&& d.rw)) &&& ~~~(v &&& d.w1c) ∧
          (∀ x, x ≠ a → t.reg x = s.reg x ∧ assoc x t.staged = assoc x s.staged) ∧
          (d.rwt = 0 → t.staged = s.staged) ∧
          (d.rwt ≠ 0 → (assoc a t.staged).map (fun w => w &&& d.rwt) = some (v &&& d.rwt)) ∧
          t = { s with regs := t.regs, staged := t.staged }) ∧
      (∀ o, slotOf off.toNat = some (.ctr o) ∨ slotOf off.toNat = some (.shadow o) →
        exec (.registerWrite m off v) s = .next s) ∧
      (slotOf off.toNat = none → exec (.registerWrite m off v) s = .next (s.raise (s.mcSrc m.val) 0x101
        (pack [(min off.toNat (2 ^ 40 - 1), 0), (1, 40), (b2n (decide (off.toNat % 8 ≠ 0)), 41), (m.val, 48)])))) ∧
    (s.offAccess off.toNat = true → s.pwr.offTide ≠ some s.tide.num →
      ∃ t, exec (.registerWrite m off v) s = .next t ∧ t.regs = s.regs ∧ t.pwr.offTide = some s.tide.num ∧
        t.fifo = (s.raiseMod 1 0x20B (pack [(low 32 off.toNat, 0), (1, 32)])).fifo)

/-- The dispatch ring's TAIL, KILL and START (R251, R254, R258, R259): a TAIL that would take entries back raises event 0x1114 and leaves
it; START runs a HALTED or STOPPED core; KILL drops the core's buffered commands, marks its granule, raises event 0x1115 and halts the
core once its units are done, and touches no other core and no memory.

Claims (R597, R598): a free resource goes to the feature that asks, a held one stays, with event 0x0407; only the holder gives it
back; a query changes no claim; CLAIM_STATUS tells the holder and the result. -/
def Obligations.CoreControlAndClaims : Prop :=
  (∀ (s : State) (c : CoreIx) (k : ClusterIx) (tl : BitVec 6), s.wf = true → s.awake = true → s.domainsOff = false →
     let ptr := dispReg k.val 0x10
     let head := s.fld ptr 13 8
     let ahead (x : Nat) : Nat := (x + 64 - head) % 64
     let q := s.core[c]
     (ahead tl.toNat < ahead (s.fld ptr 5 0) → exec (.grqTailWrite k tl) s =
       .next (s.raise (s.dispSrc k.val) 0x1114 (pack [(tl.toNat, 0), (head, 8), (k.val, 16)]))) ∧
     (ahead (s.fld ptr 5 0) ≤ ahead tl.toNat → exec (.grqTailWrite k tl) s = .next (s.setFld ptr 5 0 tl.toNat)) ∧
     (q.mode = .halted ∨ q.mode = .stopped →
       exec (.coreStart c) s = .next (s.setCore c { q with mode := .running, stall := none, wait := none })) ∧
     (q.mode ≠ .halted → q.mode ≠ .stopped → exec (.coreStart c) s = .next s) ∧
     ∃ t, exec (.coreKill c) s = .next t ∧ t.mem = s.mem ∧ t.regs = s.regs ∧ (∀ d, d ≠ c → t.core[d] = s.core[d]) ∧
       t.core[c].bufPan = [] ∧ t.core[c].bufSlu = [] ∧ t.core[c].bufBrn = [] ∧ t.core[c].bufXtl = [] ∧
       t.core[c].sreg = q.sreg ∧ t.core[c].vreg = q.vreg ∧ t.core[c].preg = q.preg ∧ t.core[c].local_ = q.local_ ∧
       (t.core[c].kill = true ∨ (t.core[c].mode = .halted ∨ q.mode = .fenced) ∧ t.core[c].unitsDone = true) ∧
       (∀ g, s.disp[clusterOf c].running = some g → c ∈ g.cores →
         (t.disp[clusterOf c].running).map (·.killed) = some true) ∧
       t.fifo = (s.raise (s.coreSrc c.val) 0x1115 (pack [(c.val, 0)])).fifo) ∧
  (∀ (s : State) (o : BitVec 8) (r : BitVec 16), s.wf = true → s.awake = true →
     let owner := o.toNat
     let n := r.toNat
     let h := assoc n s.int.claims
     let tells (t : State) (holder result : Nat) : Prop := t.fld 0x3008 47 40 = holder ∧ t.fld 0x3008 1 0 = result
     (resourceOk n = false ∨ owner < 0xC0 → ∀ i ∈ ([.claim o r, .claimRelease o r, .claimQuery o r] : List Instr),
       exec i s = .next (s.setReg 0x3008 3)) ∧
     (resourceOk n = true → 0xC0 ≤ owner →
       (h = none → ∃ t, exec (.claim o r) s = .next t ∧ tells t owner 0 ∧ assoc n t.int.claims = some owner ∧
         (∀ m, m ≠ n → assoc m t.int.claims = assoc m s.int.claims) ∧ (n = 0x5003 → t.board.alert.getLsbD 4 = true)) ∧
       (∀ w, h = some w → w < 256 → w ≠ owner →
         (∃ t, exec (.claim o r) s = .next t ∧ tells t w 1 ∧ t.int = s.int ∧
           t.fifo = (s.raiseMod 3 0x407 (pack [(n, 0), (owner, 16), (w, 24)])).fifo) ∧
         ∃ t, exec (.claimRelease o r) s = .next t ∧ tells t w 2 ∧ s.regsOnly t) ∧
       (h = some owner → ∃ t, exec (.claimRelease o r) s = .next t ∧ tells t 0 0 ∧ assoc n t.int.claims = none ∧
         ∀ m, m ≠ n → assoc m t.int.claims = assoc m s.int.claims) ∧
       (h = some owner → ∃ t, exec (.claim o r) s = .next t ∧ tells t owner 0 ∧ s.regsOnly t) ∧
       (h = none → ∃ t, exec (.claimRelease o r) s = .next t ∧ tells t 0 2 ∧ s.regsOnly t) ∧
       (h.getD 0 < 256 → ∃ t, exec (.claimQuery o r) s = .next t ∧ tells t (h.getD 0) 0 ∧ s.regsOnly t)))

/-- Every command answers a next state in every state, but for one: an access performed at an address that the physical address space does
not map, which no translation of the model's own tables yields (R353), stops. -/
def Obligations.EveryCommandCompletes : Prop :=
  ∀ (i : Instr) (s : State),
    (∃ t, exec i s = .next t) ∨
    (∃ c n tries a, i = .accessPerformed c n tries ∧ s.clocked = true ∧ s.core[c].acc[n]? = some a ∧
      a.op.isCtl = false ∧ s.region (s.forward a.pa) = none ∧ exec i s = .fault (.noSuchAddress (s.forward a.pa)))
end

