-- ==== Sys2Proof/Laws/Sparse.lean ====
section
/-! SUPPORT. The sparse maps: what a write reads back as, what it leaves, and that every map operation keeps the one
canonical form. -/

namespace Sys2Proof.Machine

variable {α : Type}

/-! Sorted lists. -/

theorem mapSorted_weaken {m : List (Nat × α)} {lo : Nat} (h : mapSorted (some lo) m = true) : mapSorted none m = true := by
  cases m <;> simp_all [mapSorted]

theorem mapSorted_lower {m : List (Nat × α)} {a b : Nat} (hab : a ≤ b) (h : mapSorted (some b) m = true) :
    mapSorted (some a) m = true := by
  cases m with
  | nil => rfl
  | cons q r => simp_all [mapSorted]; omega

theorem mapGet_below (d : Nat → α) {m : List (Nat × α)} {lo k : Nat} (h : mapSorted (some lo) m = true) (hk : k ≤ lo) :
    mapGet d m k = d k := by
  cases m with
  | nil => rfl
  | cons q r =>
    simp only [mapSorted, Bool.and_eq_true, decide_eq_true_eq] at h
    unfold mapGet
    rw [if_neg (by omega), if_pos (by omega)]

variable [DecidableEq α]

theorem mapSorted_put (d : Nat → α) (k : Nat) (v : α) (m : List (Nat × α)) (lo : Option Nat)
    (hk : ∀ l ∈ lo, l < k) (h : mapSorted lo m = true) : mapSorted lo (mapPut d k v m) = true := by
  induction m generalizing lo with
  | nil => unfold mapPut; split <;> cases lo <;> simp_all [mapSorted]
  | cons q r ih =>
    obtain ⟨k', v'⟩ := q
    have hr : mapSorted (some k') r = true := by cases lo <;> simp_all [mapSorted]
    have hl : ∀ l ∈ lo, l < k' := by cases lo <;> simp_all [mapSorted]
    unfold mapPut
    split
    · split
      · exact h
      · cases lo <;> simp_all [mapSorted]
    · split
      · subst k'
        split
        · cases lo with
          | none => exact mapSorted_weaken hr
          | some l => exact mapSorted_lower (by have := hk l rfl; omega) hr
        · cases lo <;> simp_all [mapSorted]
      · have := ih (some k') (by simp; omega) hr
        cases lo <;> simp_all [mapSorted]

theorem mapTrim_put (d : Nat → α) (k : Nat) (v : α) (m : List (Nat × α)) (h : mapTrim d m = true) :
    mapTrim d (mapPut d k v m) = true := by
  induction m with
  | nil => unfold mapPut; split <;> simp_all [mapTrim]
  | cons q r ih =>
    obtain ⟨k', v'⟩ := q
    simp only [mapTrim, Bool.and_eq_true] at h
    unfold mapPut
    (repeat' split) <;> simp_all [mapTrim]

/-- A write keeps the canonical form. -/
theorem mapWf_put {d : Nat → α} {m : List (Nat × α)} (h : mapWf d m = true) (k : Nat) (v : α) :
    mapWf d (mapPut d k v m) = true := by
  simp only [mapWf, Bool.and_eq_true] at h ⊢
  exact ⟨mapSorted_put d k v m none (by simp) h.1, mapTrim_put d k v m h.2⟩

omit [DecidableEq α] in
theorem mapSorted_drop (p : Nat → Bool) (m : List (Nat × α)) (lo : Option Nat) (h : mapSorted lo m = true) :
    mapSorted lo (mapDrop p m) = true := by
  induction m generalizing lo with
  | nil => exact h
  | cons q r ih =>
    have hr : mapSorted (some q.1) r = true := by cases lo <;> simp_all [mapSorted]
    unfold mapDrop
    split
    · cases lo with
      | none => exact ih none (mapSorted_weaken hr)
      | some l => exact ih (some l) (mapSorted_lower (by simp_all [mapSorted]; omega) hr)
    · have := ih (some q.1) hr
      cases lo <;> simp_all [mapSorted]

theorem mapTrim_drop (d : Nat → α) (p : Nat → Bool) (m : List (Nat × α)) (h : mapTrim d m = true) :
    mapTrim d (mapDrop p m) = true := by
  induction m with
  | nil => exact h
  | cons q r ih =>
    simp only [mapTrim, Bool.and_eq_true] at h
    unfold mapDrop
    split
    · exact ih h.2
    · simp only [mapTrim, Bool.and_eq_true]; exact ⟨h.1, ih h.2⟩

/-- Removing entries keeps the canonical form. -/
theorem mapWf_drop {d : Nat → α} {m : List (Nat × α)} (h : mapWf d m = true) (p : Nat → Bool) :
    mapWf d (mapDrop p m) = true := by
  simp only [mapWf, Bool.and_eq_true] at h ⊢
  exact ⟨mapSorted_drop p m none h.1, mapTrim_drop d p m h.2⟩

/-- Many writes keep the canonical form. -/
theorem mapWf_puts {d : Nat → α} (l : List (Nat × α)) {m : List (Nat × α)} (h : mapWf d m = true) :
    mapWf d (mapPuts d l m) = true := by
  induction l generalizing m with
  | nil => exact h
  | cons q r ih => exact ih (mapWf_put h q.1 q.2)

theorem mapWf_nil (d : Nat → α) : mapWf d [] = true := rfl

theorem mapGet_put_sorted (d : Nat → α) (k : Nat) (v : α) (m : List (Nat × α)) (lo : Option Nat)
    (h : mapSorted lo m = true) (x : Nat) : mapGet d (mapPut d k v m) x = if x = k then v else mapGet d m x := by
  induction m generalizing lo with
  | nil =>
    unfold mapPut
    split
    · by_cases hx : x = k <;> simp_all [mapGet]
    · by_cases hx : x = k <;> simp [mapGet, hx]
  | cons q r ih =>
    obtain ⟨k', v'⟩ := q
    have hr : mapSorted (some k') r = true := by cases lo <;> simp_all [mapSorted]
    have low : ∀ y, y ≤ k' → mapGet d r y = d y := fun y hy => mapGet_below d hr hy
    unfold mapPut
    split
    · split
      · by_cases hx : x = k
        · subst x; simp_all [mapGet]; omega
        · simp [hx]
      · simp only [mapGet]
        by_cases hx : x = k
        · simp [hx]
        · simp only [hx, if_false]
          split
          · rw [if_neg (by omega), if_pos (by omega)]
          · rfl
    · split
      · subst k'
        split
        · by_cases hx : x = k
          · subst x; simp [low k (Nat.le_refl k), *]
          · simp only [hx, if_false, mapGet]
            split
            · exact low x (by omega)
            · rfl
        · simp only [mapGet]
          by_cases hx : x = k <;> simp [hx]
      · have := ih (some k') hr
        simp only [mapGet, this]
        by_cases hx : x = k
        · subst x
          rw [if_neg (by omega), if_neg (by omega)]; simp
        · simp [hx]

/-- A write reads back, and leaves every other key. -/
theorem mapGet_put {d : Nat → α} {m : List (Nat × α)} (h : mapWf d m = true) (k : Nat) (v : α) (x : Nat) :
    mapGet d (mapPut d k v m) x = if x = k then v else mapGet d m x := by
  simp only [mapWf, Bool.and_eq_true] at h
  exact mapGet_put_sorted d k v m none h.1 x

theorem mapGet_put_same {d : Nat → α} {m : List (Nat × α)} (h : mapWf d m = true) (k : Nat) (v : α) :
    mapGet d (mapPut d k v m) k = v := by simp [mapGet_put h]

theorem mapGet_put_other {d : Nat → α} {m : List (Nat × α)} (h : mapWf d m = true) {k x : Nat} (v : α) (hx : x ≠ k) :
    mapGet d (mapPut d k v m) x = mapGet d m x := by simp [mapGet_put h, hx]

omit [DecidableEq α] in
theorem mapGet_drop_sorted (d : Nat → α) (p : Nat → Bool) (m : List (Nat × α)) (lo : Option Nat)
    (h : mapSorted lo m = true) (x : Nat) : mapGet d (mapDrop p m) x = if p x then d x else mapGet d m x := by
  induction m generalizing lo with
  | nil => simp [mapDrop, mapGet]
  | cons q r ih =>
    obtain ⟨k', v'⟩ := q
    have hr : mapSorted (some k') r = true := by cases lo <;> simp_all [mapSorted]
    have ih := ih (some k') hr
    unfold mapDrop
    by_cases hx : x = k'
    · subst x
      split
      · simp_all
      · simp_all [mapGet]
    · split
      · rw [ih]
        by_cases hp : p x
        · simp [hp]
        · simp only [hp]
          by_cases hl : x < k'
          · simp [mapGet, hx, hl, mapGet_below d hr (Nat.le_of_lt hl)]
          · simp [mapGet, hx, hl]
      · simp only [mapGet, hx, if_false, ih]
        by_cases hp : p x <;> simp [hp]

/-- What a removal leaves. -/
theorem mapGet_drop {d : Nat → α} {m : List (Nat × α)} (h : mapWf d m = true) (p : Nat → Bool) (x : Nat) :
    mapGet d (mapDrop p m) x = if p x then d x else mapGet d m x := by
  simp only [mapWf, Bool.and_eq_true] at h
  exact mapGet_drop_sorted d p m none h.1 x

/-! Sets of lines. -/

theorem setAdd_keys_sorted (k : Nat) (l : List Nat) (lo : Option Nat) (hk : ∀ x ∈ lo, x < k)
    (h : mapSorted lo (l.map (fun k => (k, ()))) = true) : mapSorted lo ((setAdd k l).map (fun k => (k, ()))) = true := by
  induction l generalizing lo with
  | nil => cases lo <;> simp_all [setAdd, mapSorted]
  | cons y r ih =>
    have hr : mapSorted (some y) (r.map (fun k => (k, ()))) = true := by cases lo <;> simp_all [mapSorted]
    unfold setAdd
    split
    · cases lo <;> simp_all [mapSorted]
    · split
      · exact h
      · have := ih (some y) (by simp; omega) hr
        cases lo <;> simp_all [mapSorted]

/-- Adding a line keeps the set's form. -/
theorem keysWf_add {l : List Nat} (h : keysWf l = true) (k : Nat) : keysWf (setAdd k l) = true :=
  setAdd_keys_sorted k l none (by simp) h

theorem keys_filter_sorted (p : Nat → Bool) (l : List Nat) (lo : Option Nat)
    (h : mapSorted lo (l.map (fun k => (k, ()))) = true) :
    mapSorted lo ((l.filter p).map (fun k => (k, ()))) = true := by
  induction l generalizing lo with
  | nil => exact h
  | cons y r ih =>
    have hr : mapSorted (some y) (r.map (fun k => (k, ()))) = true := by cases lo <;> simp_all [mapSorted]
    unfold List.filter
    split
    · have := ih (some y) hr
      cases lo <;> simp_all [mapSorted]
    · cases lo with
      | none => exact ih none (mapSorted_weaken hr)
      | some x => exact ih (some x) (mapSorted_lower (by simp_all [mapSorted]; omega) hr)

/-- Removing lines keeps the set's form. -/
theorem keysWf_filter {l : List Nat} (h : keysWf l = true) (p : Nat → Bool) : keysWf (l.filter p) = true :=
  keys_filter_sorted p l none h

/-! Association lists. -/

variable {κ β : Type} [DecidableEq κ]

theorem assoc_put (k x : κ) (v : β) (m : List (κ × β)) :
    assoc x (assocPut k v m) = if x = k then some v else assoc x m := by
  induction m with
  | nil => simp [assocPut, assoc]
  | cons q r ih =>
    unfold assocPut
    split
    · rename_i hk
      by_cases hx : x = k
      · simp [assoc, hx]
      · simp [assoc, hx, ← hk]
    · simp only [assoc, ih]
      by_cases hx : x = k
      · subst x; simp [*]
      · simp [hx]

theorem assoc_filter_other (k x : κ) (m : List (κ × β)) (hx : x ≠ k) :
    assoc x (m.filter (fun q => q.1 != k)) = assoc x m := by
  induction m with
  | nil => rfl
  | cons q r ih =>
    unfold List.filter
    split
    · simp only [assoc, ih]
    · rename_i hq
      have : q.1 = k := by simpa using hq
      simp only [assoc, this, hx, if_false, ih]

theorem assoc_filter_same (k : κ) (m : List (κ × β)) : assoc k (m.filter (fun q => q.1 != k)) = none := by
  induction m with
  | nil => rfl
  | cons q r ih =>
    by_cases hq : q.1 = k
    · simpa [List.filter, hq] using ih
    · have h : ¬ k = q.1 := fun e => hq e.symm
      have hb : (q.1 != k) = true := by simpa using hq
      have e : (q :: r).filter (fun q => q.1 != k) = q :: r.filter (fun q => q.1 != k) := by simp [hq]
      rw [e, assoc, if_neg h]
      exact ih

end Sys2Proof.Machine
end

