-- ==== Sys2Proof/Laws/Memory.lean ====
section
/-! SUPPORT. Memory: what a write reads back as and leaves, what becomes of lost bytes, and that every operation keeps
the canonical form. -/

namespace Sys2Proof.Machine

variable {α : Type}

/-! Listed writes. -/

theorem mapSorted_set (k : Nat) (v : α) (m : List (Nat × α)) (lo : Option Nat) (hk : ∀ l ∈ lo, l < k)
    (h : mapSorted lo m = true) : mapSorted lo (mapSet k v m) = true := by
  induction m generalizing lo with
  | nil => cases lo <;> simp_all [mapSet, mapSorted]
  | cons q r ih =>
    obtain ⟨k', v'⟩ := q
    have hr : mapSorted (some k') r = true := by cases lo <;> simp_all [mapSorted]
    unfold mapSet
    split
    · cases lo <;> simp_all [mapSorted]
    · split
      · subst k'; cases lo <;> simp_all [mapSorted]
      · have := ih (some k') (by simp; omega) hr
        cases lo <;> simp_all [mapSorted]

theorem mapGet_set (d : Nat → α) (k : Nat) (v : α) (m : List (Nat × α)) (lo : Option Nat) (h : mapSorted lo m = true)
    (x : Nat) : mapGet d (mapSet k v m) x = if x = k then v else mapGet d m x := by
  induction m generalizing lo with
  | nil =>
    by_cases hx : x = k
    · simp [mapSet, mapGet, hx]
    · simp [mapSet, mapGet, hx]
  | cons q r ih =>
    obtain ⟨k', v'⟩ := q
    have hr : mapSorted (some k') r = true := by cases lo <;> simp_all [mapSorted]
    unfold mapSet
    split
    · rename_i hlt
      by_cases hx : x = k
      · subst x; simp [mapGet]
      · by_cases hl : x < k
        · have h2 : x < k' := by omega
          have h3 : x ≠ k' := by omega
          simp [mapGet, hx, hl, h2, h3]
        · simp [mapGet, hx, hl]
    · split
      · subst k'
        by_cases hx : x = k <;> simp [mapGet, hx]
      · rename_i h1 h2
        simp only [mapGet, ih _ hr]
        by_cases hx : x = k
        · subst x; rw [if_neg h2, if_neg h1]; simp
        · simp [hx]

/-- Two defaults that agree at a key read the same there. -/
theorem mapGet_default (d e : Nat → α) (m : List (Nat × α)) (x : Nat) (h : d x = e x) : mapGet d m x = mapGet e m x := by
  induction m with
  | nil => simpa [mapGet] using h
  | cons q r ih => obtain ⟨k, v⟩ := q; simp [mapGet, h, ih]

theorem mem_mapSet {k : Nat} {v : α} {m : List (Nat × α)} {q : Nat × α} (h : q ∈ mapSet k v m) : q = (k, v) ∨ q ∈ m := by
  induction m with
  | nil => simpa [mapSet] using h
  | cons p r ih =>
    unfold mapSet at h
    split at h
    · simp_all
    · split at h
      · rename_i hk
        rcases List.mem_cons.mp h with h | h
        · exact .inl (hk ▸ h)
        · exact .inr (by simp [h])
      · rcases List.mem_cons.mp h with h | h
        · simp [h]
        · rcases ih h with h | h <;> simp [h]

theorem mem_mapDrop {p : Nat → Bool} {m : List (Nat × α)} {q : Nat × α} (h : q ∈ mapDrop p m) : q ∈ m ∧ p q.1 = false := by
  induction m with
  | nil => simp [mapDrop] at h
  | cons a r ih =>
    unfold mapDrop at h
    split at h
    · exact ⟨by simp [(ih h).1], (ih h).2⟩
    · rcases List.mem_cons.mp h with h | h
      · subst h; simp_all
      · exact ⟨by simp [(ih h).1], (ih h).2⟩

/-! The canonical form. -/

theorem Memory.wf_iff (m : Memory) : Memory.wf m = true ↔
    mapSorted none m.cells = true ∧ ∀ q ∈ m.cells, q.2 = 0 → m.open_ q.1 = true := by
  simp only [Memory.wf, Bool.and_eq_true, List.all_eq_true, Bool.or_eq_true, bne_iff_ne, ne_eq]
  constructor
  · rintro ⟨a, b⟩
    exact ⟨a, fun q hq h0 => (b q hq).resolve_left (fun h => h h0)⟩
  · rintro ⟨a, b⟩
    exact ⟨a, fun q hq => (Classical.em (q.2 = 0)).elim (fun h => .inr (b q hq h)) .inl⟩

theorem Memory.empty_wf : Memory.wf Memory.empty = true := rfl

@[simp] theorem Memory.put_spans (m : Memory) (a : Nat) (b : Byte) : (m.put a b).spans = m.spans := by
  unfold Memory.put; split <;> rfl

theorem Memory.span_congr {m n : Memory} (h : m.spans = n.spans) (a : Nat) : m.span a = n.span a := by
  unfold Memory.span; rw [h]

theorem Memory.open_congr {m n : Memory} (h : m.spans = n.spans) (a : Nat) : m.open_ a = n.open_ a := by
  unfold Memory.open_; rw [Memory.span_congr h]

theorem Memory.unlisted_congr {m n : Memory} (h : m.spans = n.spans) : m.unlisted = n.unlisted := by
  funext a; unfold Memory.unlisted; rw [Memory.span_congr h]

/-- What an unlisted byte that is not open reads as. -/
theorem Memory.unlisted_closed {m : Memory} {a : Nat} (h : m.open_ a = false) : m.unlisted a = 0 := by
  unfold Memory.open_ at h
  unfold Memory.unlisted
  split
  · rfl
  · rename_i p hp
    rw [hp] at h
    simp only at h
    split
    · rfl
    · simp_all

/-- A write keeps the canonical form. -/
theorem Memory.put_wf {m : Memory} (h : Memory.wf m = true) (a : Nat) (b : Byte) : Memory.wf (m.put a b) = true := by
  rw [Memory.wf_iff] at h ⊢
  refine ⟨?_, ?_⟩
  · unfold Memory.put
    split
    · exact mapSorted_drop _ _ _ h.1
    · exact mapSorted_set _ _ _ none (by simp) h.1
  · intro q hq h0
    rw [Memory.open_congr (Memory.put_spans m a b)]
    unfold Memory.put at hq
    split at hq
    · exact h.2 q (mem_mapDrop hq).1 h0
    · rename_i hn
      rcases mem_mapSet hq with rfl | hq
      · simp_all
      · exact h.2 q hq h0

/-- A write reads back, and leaves every other byte. -/
theorem Memory.get_put {m : Memory} (h : Memory.wf m = true) (a : Nat) (b : Byte) (x : Nat) :
    (m.put a b).get x = if x = a then b else m.get x := by
  rw [Memory.wf_iff] at h
  unfold Memory.get
  rw [Memory.unlisted_congr (Memory.put_spans m a b)]
  unfold Memory.put
  split
  · rename_i hz
    rw [mapGet_drop_sorted m.unlisted _ _ none h.1]
    by_cases hx : x = a
    · subst x; simp [Memory.unlisted_closed hz.2, hz.1]
    · simp [hx]
  · exact mapGet_set _ _ _ _ none h.1 x

theorem Memory.puts_wf {m : Memory} (h : Memory.wf m = true) (a : Nat) (l : List Byte) : Memory.wf (m.puts a l) = true := by
  induction l generalizing m a with
  | nil => exact h
  | cons b r ih => exact ih (Memory.put_wf h a b) (a + 1)

/-! Lost bytes. -/

/-- Outside a painted range the governing span stands. -/
theorem Memory.span_paint {m : Memory} {lo hi : Nat} {src : Option (Nat × Nat)} {a : Nat} (ha : ¬ (lo ≤ a ∧ a < hi)) :
    (m.paint lo hi src).span a = m.span a := by
  unfold Memory.span Memory.paint
  simp only
  split
  · rfl
  · rw [List.find?_cons_of_neg (by simpa using ha)]
    generalize m.spans = l
    induction l with
    | nil => rfl
    | cons p r ih =>
      by_cases hp : lo ≤ p.lo ∧ p.hi ≤ hi
      · have hpa : ¬ (p.lo ≤ a ∧ a < p.hi) := by omega
        rw [List.filter_cons_of_neg (by simp [hp]), ih, List.find?_cons_of_neg (by simpa using hpa)]
      · rw [List.filter_cons_of_pos (by simp only [Bool.not_eq_true', Bool.and_eq_false_iff, decide_eq_false_iff_not]; omega)]
        by_cases hpa : p.lo ≤ a ∧ a < p.hi
        · rw [List.find?_cons_of_pos (by simpa using hpa), List.find?_cons_of_pos (by simpa using hpa)]
        · rw [List.find?_cons_of_neg (by simpa using hpa), List.find?_cons_of_neg (by simpa using hpa), ih]

/-- A painted range keeps the canonical form. -/
theorem Memory.paint_wf {m : Memory} (h : Memory.wf m = true) (lo hi : Nat) (src : Option (Nat × Nat)) :
    Memory.wf (m.paint lo hi src) = true := by
  rw [Memory.wf_iff] at h ⊢
  refine ⟨mapSorted_drop _ _ _ h.1, ?_⟩
  intro q hq h0
  have hd := mem_mapDrop (p := fun a => decide (lo ≤ a) && decide (a < hi)) hq
  have ho := h.2 q hd.1 h0
  unfold Memory.open_ at ho ⊢
  rwa [Memory.span_paint (by simpa using hd.2)]

theorem Memory.foldl_put_wf (f : Host.Cell → Host.Cell) (l : List Host.Cell) {m : Memory} (h : Memory.wf m = true) :
    Memory.wf (l.foldl (fun m q => m.put (f q).1 (f q).2) m) = true := by
  induction l generalizing m with
  | nil => exact h
  | cons q r ih => exact ih (Memory.put_wf h _ _)

/-- A part moved lies within the target range. -/
theorem MemSpan.moved_range {p q : MemSpan} {a b n : Nat} (h : p.moved a b n = some q) : b ≤ q.lo ∧ q.hi ≤ b + n := by
  unfold MemSpan.moved at h
  simp only at h
  split at h
  · obtain rfl := Option.some.inj h
    simp only
    omega
  · cases h

/-- A copy keeps the canonical form. -/
theorem Memory.copy_wf {m : Memory} (h : Memory.wf m = true) (a b n : Nat) : Memory.wf (m.copy a b n) = true := by
  unfold Memory.copy
  simp only
  refine Memory.foldl_put_wf (fun q => (q.1 - a + b, q.2)) _ ?_
  have hp := (Memory.wf_iff _).mp (Memory.paint_wf h b (b + n) none)
  rw [Memory.wf_iff]
  refine ⟨hp.1, ?_⟩
  intro q hq h0
  have ho := hp.2 q hq h0
  have hd := mem_mapDrop (p := fun x => decide (b ≤ x) && decide (x < b + n)) hq
  unfold Memory.open_ Memory.span at ho ⊢
  simp only [Memory.zero] at hq ⊢
  have hno : ∀ p ∈ m.spans.filterMap (fun p => p.moved a b n), ¬ (decide (p.lo ≤ q.1) && decide (q.1 < p.hi)) = true := by
    intro p hp
    obtain ⟨p', _, hp'⟩ := List.mem_filterMap.mp hp
    have := MemSpan.moved_range hp'
    have h2 : ¬ (b ≤ q.1 ∧ q.1 < b + n) := by simpa using hd.2
    simp only [Bool.and_eq_true, decide_eq_true_eq]
    omega
  rw [List.find?_append, List.find?_eq_none.mpr hno]
  simpa using ho

/-- A byte outside a painted range stands. -/
theorem Memory.get_paint_other {m : Memory} (h : Memory.wf m = true) {lo hi : Nat} (src : Option (Nat × Nat)) {x : Nat}
    (hx : ¬ (lo ≤ x ∧ x < hi)) : (m.paint lo hi src).get x = m.get x := by
  rw [Memory.wf_iff] at h
  have hc : (m.paint lo hi src).cells = mapDrop (fun a => decide (lo ≤ a) && decide (a < hi)) m.cells := rfl
  unfold Memory.get
  rw [hc, mapGet_drop_sorted _ _ _ none h.1, if_neg (by simpa using hx)]
  have hu : (m.paint lo hi src).unlisted x = m.unlisted x := by
    unfold Memory.unlisted; rw [Memory.span_paint hx]
  exact mapGet_default _ _ _ _ hu

/-- A byte that the device has lost reads as the byte of its free value. -/
theorem Memory.get_lose {m : Memory} (h : Memory.wf m = true) {lo hi x : Nat} (n : Nat) (h1 : lo ≤ x) (h2 : x < hi) :
    (m.lose lo hi n).get x = Config.freeByte n (x - lo) := by
  rw [Memory.wf_iff] at h
  have hc : (m.lose lo hi n).cells = mapDrop (fun a => decide (lo ≤ a) && decide (a < hi)) m.cells := rfl
  unfold Memory.get
  rw [hc, mapGet_drop_sorted _ _ _ none h.1, if_pos (by simp [h1, h2])]
  have hs : (m.lose lo hi n).span x = some ⟨lo, hi, some (n, 0)⟩ := by
    simp [Memory.lose, Memory.span, Memory.paint, h1, h2]
  unfold Memory.unlisted
  rw [hs]
  simp

end Sys2Proof.Machine
end

