-- ==== Sys2Proof/Laws/State.lean ====
section
/-! SUPPORT. What each update of State leaves of each field, and what registers, counters and memory read after a write. -/

namespace Sys2Proof.Machine

/-- An event changes the counters, the FIFOs and their drop counts, and nothing else. -/
theorem State.raise_eq (s : State) (u : Src) (code : Nat) (p : BitVec 64) : s.raise u code p =
    { s with
      ctr := (s.raise u code p).ctr
      fifo := (s.raise u code p).fifo
      fifoDrop := (s.raise u code p).fifoDrop } := by
  by_cases h : 4096 ≤ s.fifo[(Fin.ofNat 4 u.die : Fin 4)].length
  · have e : s.raise u code p = { s.count 0x300420 1 with
        fifoDrop := s.fifoDrop.set (Fin.ofNat 4 u.die : Fin 4) (s.fifoDrop[(Fin.ofNat 4 u.die : Fin 4)] + 1) } := if_pos h
    rw [e]; rfl
  · have e : s.raise u code p = { s with
        fifo := s.fifo.set (Fin.ofNat 4 u.die : Fin 4) (s.fifo[(Fin.ofNat 4 u.die : Fin 4)] ++
          [⟨s.tide.num, s.tide.ns, BitVec.ofNat 16 code, u.bits, p⟩]) } := if_neg h
    rw [e]

/-- The alert register and the in-band interrupts are all that an alert changes. -/
theorem State.alert_eq (s : State) (b : Fin 5) : s.alert b = { s with board := (s.alert b).board } := by
  unfold State.alert; simp only; split <;> rfl

/-! `setReg`. -/

@[simp] theorem State.setReg_pending (s : State) (off : Nat) (v : BitVec 64) : (s.setReg off v).pending = s.pending := rfl
@[simp] theorem State.setReg_free (s : State) (off : Nat) (v : BitVec 64) : (s.setReg off v).free = s.free := rfl
@[simp] theorem State.setReg_staged (s : State) (off : Nat) (v : BitVec 64) : (s.setReg off v).staged = s.staged := rfl
@[simp] theorem State.setReg_ctr (s : State) (off : Nat) (v : BitVec 64) : (s.setReg off v).ctr = s.ctr := rfl
@[simp] theorem State.setReg_shadow (s : State) (off : Nat) (v : BitVec 64) : (s.setReg off v).shadow = s.shadow := rfl
@[simp] theorem State.setReg_edgeCtr (s : State) (off : Nat) (v : BitVec 64) : (s.setReg off v).edgeCtr = s.edgeCtr := rfl
@[simp] theorem State.setReg_mem (s : State) (off : Nat) (v : BitVec 64) : (s.setReg off v).mem = s.mem := rfl
@[simp] theorem State.setReg_poison (s : State) (off : Nat) (v : BitVec 64) : (s.setReg off v).poison = s.poison := rfl
@[simp] theorem State.setReg_tide (s : State) (off : Nat) (v : BitVec 64) : (s.setReg off v).tide = s.tide := rfl
@[simp] theorem State.setReg_core (s : State) (off : Nat) (v : BitVec 64) : (s.setReg off v).core = s.core := rfl
@[simp] theorem State.setReg_disp (s : State) (off : Nat) (v : BitVec 64) : (s.setReg off v).disp = s.disp := rfl
@[simp] theorem State.setReg_fifo (s : State) (off : Nat) (v : BitVec 64) : (s.setReg off v).fifo = s.fifo := rfl
@[simp] theorem State.setReg_fifoDrop (s : State) (off : Nat) (v : BitVec 64) : (s.setReg off v).fifoDrop = s.fifoDrop := rfl
@[simp] theorem State.setReg_stk (s : State) (off : Nat) (v : BitVec 64) : (s.setReg off v).stk = s.stk := rfl
@[simp] theorem State.setReg_int (s : State) (off : Nat) (v : BitVec 64) : (s.setReg off v).int = s.int := rfl
@[simp] theorem State.setReg_seed (s : State) (off : Nat) (v : BitVec 64) : (s.setReg off v).seed = s.seed := rfl
@[simp] theorem State.setReg_job (s : State) (off : Nat) (v : BitVec 64) : (s.setReg off v).job = s.job := rfl
@[simp] theorem State.setReg_pan (s : State) (off : Nat) (v : BitVec 64) : (s.setReg off v).pan = s.pan := rfl
@[simp] theorem State.setReg_xtl (s : State) (off : Nat) (v : BitVec 64) : (s.setReg off v).xtl = s.xtl := rfl
@[simp] theorem State.setReg_gate (s : State) (off : Nat) (v : BitVec 64) : (s.setReg off v).gate = s.gate := rfl
@[simp] theorem State.setReg_slu (s : State) (off : Nat) (v : BitVec 64) : (s.setReg off v).slu = s.slu := rfl
@[simp] theorem State.setReg_dieSlu (s : State) (off : Nat) (v : BitVec 64) : (s.setReg off v).dieSlu = s.dieSlu := rfl
@[simp] theorem State.setReg_collRem (s : State) (off : Nat) (v : BitVec 64) : (s.setReg off v).collRem = s.collRem := rfl
@[simp] theorem State.setReg_link (s : State) (off : Nat) (v : BitVec 64) : (s.setReg off v).link = s.link := rfl
@[simp] theorem State.setReg_brn (s : State) (off : Nat) (v : BitVec 64) : (s.setReg off v).brn = s.brn := rfl
@[simp] theorem State.setReg_pwr (s : State) (off : Nat) (v : BitVec 64) : (s.setReg off v).pwr = s.pwr := rfl
@[simp] theorem State.setReg_mgmt (s : State) (off : Nat) (v : BitVec 64) : (s.setReg off v).mgmt = s.mgmt := rfl
@[simp] theorem State.setReg_board (s : State) (off : Nat) (v : BitVec 64) : (s.setReg off v).board = s.board := rfl

/-! `setFld`. -/

@[simp] theorem State.setFld_pending (s : State) (off hi lo x : Nat) : (s.setFld off hi lo x).pending = s.pending := rfl
@[simp] theorem State.setFld_free (s : State) (off hi lo x : Nat) : (s.setFld off hi lo x).free = s.free := rfl
@[simp] theorem State.setFld_staged (s : State) (off hi lo x : Nat) : (s.setFld off hi lo x).staged = s.staged := rfl
@[simp] theorem State.setFld_ctr (s : State) (off hi lo x : Nat) : (s.setFld off hi lo x).ctr = s.ctr := rfl
@[simp] theorem State.setFld_shadow (s : State) (off hi lo x : Nat) : (s.setFld off hi lo x).shadow = s.shadow := rfl
@[simp] theorem State.setFld_edgeCtr (s : State) (off hi lo x : Nat) : (s.setFld off hi lo x).edgeCtr = s.edgeCtr := rfl
@[simp] theorem State.setFld_mem (s : State) (off hi lo x : Nat) : (s.setFld off hi lo x).mem = s.mem := rfl
@[simp] theorem State.setFld_poison (s : State) (off hi lo x : Nat) : (s.setFld off hi lo x).poison = s.poison := rfl
@[simp] theorem State.setFld_tide (s : State) (off hi lo x : Nat) : (s.setFld off hi lo x).tide = s.tide := rfl
@[simp] theorem State.setFld_core (s : State) (off hi lo x : Nat) : (s.setFld off hi lo x).core = s.core := rfl
@[simp] theorem State.setFld_disp (s : State) (off hi lo x : Nat) : (s.setFld off hi lo x).disp = s.disp := rfl
@[simp] theorem State.setFld_fifo (s : State) (off hi lo x : Nat) : (s.setFld off hi lo x).fifo = s.fifo := rfl
@[simp] theorem State.setFld_fifoDrop (s : State) (off hi lo x : Nat) : (s.setFld off hi lo x).fifoDrop = s.fifoDrop := rfl
@[simp] theorem State.setFld_stk (s : State) (off hi lo x : Nat) : (s.setFld off hi lo x).stk = s.stk := rfl
@[simp] theorem State.setFld_int (s : State) (off hi lo x : Nat) : (s.setFld off hi lo x).int = s.int := rfl
@[simp] theorem State.setFld_seed (s : State) (off hi lo x : Nat) : (s.setFld off hi lo x).seed = s.seed := rfl
@[simp] theorem State.setFld_job (s : State) (off hi lo x : Nat) : (s.setFld off hi lo x).job = s.job := rfl
@[simp] theorem State.setFld_pan (s : State) (off hi lo x : Nat) : (s.setFld off hi lo x).pan = s.pan := rfl
@[simp] theorem State.setFld_xtl (s : State) (off hi lo x : Nat) : (s.setFld off hi lo x).xtl = s.xtl := rfl
@[simp] theorem State.setFld_gate (s : State) (off hi lo x : Nat) : (s.setFld off hi lo x).gate = s.gate := rfl
@[simp] theorem State.setFld_slu (s : State) (off hi lo x : Nat) : (s.setFld off hi lo x).slu = s.slu := rfl
@[simp] theorem State.setFld_dieSlu (s : State) (off hi lo x : Nat) : (s.setFld off hi lo x).dieSlu = s.dieSlu := rfl
@[simp] theorem State.setFld_collRem (s : State) (off hi lo x : Nat) : (s.setFld off hi lo x).collRem = s.collRem := rfl
@[simp] theorem State.setFld_link (s : State) (off hi lo x : Nat) : (s.setFld off hi lo x).link = s.link := rfl
@[simp] theorem State.setFld_brn (s : State) (off hi lo x : Nat) : (s.setFld off hi lo x).brn = s.brn := rfl
@[simp] theorem State.setFld_pwr (s : State) (off hi lo x : Nat) : (s.setFld off hi lo x).pwr = s.pwr := rfl
@[simp] theorem State.setFld_mgmt (s : State) (off hi lo x : Nat) : (s.setFld off hi lo x).mgmt = s.mgmt := rfl
@[simp] theorem State.setFld_board (s : State) (off hi lo x : Nat) : (s.setFld off hi lo x).board = s.board := rfl

/-! `count`. -/

@[simp] theorem State.count_pending (s : State) (off n : Nat) : (s.count off n).pending = s.pending := rfl
@[simp] theorem State.count_free (s : State) (off n : Nat) : (s.count off n).free = s.free := rfl
@[simp] theorem State.count_regs (s : State) (off n : Nat) : (s.count off n).regs = s.regs := rfl
@[simp] theorem State.count_staged (s : State) (off n : Nat) : (s.count off n).staged = s.staged := rfl
@[simp] theorem State.count_shadow (s : State) (off n : Nat) : (s.count off n).shadow = s.shadow := rfl
@[simp] theorem State.count_edgeCtr (s : State) (off n : Nat) : (s.count off n).edgeCtr = s.edgeCtr := rfl
@[simp] theorem State.count_mem (s : State) (off n : Nat) : (s.count off n).mem = s.mem := rfl
@[simp] theorem State.count_poison (s : State) (off n : Nat) : (s.count off n).poison = s.poison := rfl
@[simp] theorem State.count_tide (s : State) (off n : Nat) : (s.count off n).tide = s.tide := rfl
@[simp] theorem State.count_core (s : State) (off n : Nat) : (s.count off n).core = s.core := rfl
@[simp] theorem State.count_disp (s : State) (off n : Nat) : (s.count off n).disp = s.disp := rfl
@[simp] theorem State.count_fifo (s : State) (off n : Nat) : (s.count off n).fifo = s.fifo := rfl
@[simp] theorem State.count_fifoDrop (s : State) (off n : Nat) : (s.count off n).fifoDrop = s.fifoDrop := rfl
@[simp] theorem State.count_stk (s : State) (off n : Nat) : (s.count off n).stk = s.stk := rfl
@[simp] theorem State.count_int (s : State) (off n : Nat) : (s.count off n).int = s.int := rfl
@[simp] theorem State.count_seed (s : State) (off n : Nat) : (s.count off n).seed = s.seed := rfl
@[simp] theorem State.count_job (s : State) (off n : Nat) : (s.count off n).job = s.job := rfl
@[simp] theorem State.count_pan (s : State) (off n : Nat) : (s.count off n).pan = s.pan := rfl
@[simp] theorem State.count_xtl (s : State) (off n : Nat) : (s.count off n).xtl = s.xtl := rfl
@[simp] theorem State.count_gate (s : State) (off n : Nat) : (s.count off n).gate = s.gate := rfl
@[simp] theorem State.count_slu (s : State) (off n : Nat) : (s.count off n).slu = s.slu := rfl
@[simp] theorem State.count_dieSlu (s : State) (off n : Nat) : (s.count off n).dieSlu = s.dieSlu := rfl
@[simp] theorem State.count_collRem (s : State) (off n : Nat) : (s.count off n).collRem = s.collRem := rfl
@[simp] theorem State.count_link (s : State) (off n : Nat) : (s.count off n).link = s.link := rfl
@[simp] theorem State.count_brn (s : State) (off n : Nat) : (s.count off n).brn = s.brn := rfl
@[simp] theorem State.count_pwr (s : State) (off n : Nat) : (s.count off n).pwr = s.pwr := rfl
@[simp] theorem State.count_mgmt (s : State) (off n : Nat) : (s.count off n).mgmt = s.mgmt := rfl
@[simp] theorem State.count_board (s : State) (off n : Nat) : (s.count off n).board = s.board := rfl

/-! `stage`. -/

@[simp] theorem State.stage_pending (s : State) (off : Nat) (v : BitVec 64) : (s.stage off v).pending = s.pending := rfl
@[simp] theorem State.stage_free (s : State) (off : Nat) (v : BitVec 64) : (s.stage off v).free = s.free := rfl
@[simp] theorem State.stage_regs (s : State) (off : Nat) (v : BitVec 64) : (s.stage off v).regs = s.regs := rfl
@[simp] theorem State.stage_ctr (s : State) (off : Nat) (v : BitVec 64) : (s.stage off v).ctr = s.ctr := rfl
@[simp] theorem State.stage_shadow (s : State) (off : Nat) (v : BitVec 64) : (s.stage off v).shadow = s.shadow := rfl
@[simp] theorem State.stage_edgeCtr (s : State) (off : Nat) (v : BitVec 64) : (s.stage off v).edgeCtr = s.edgeCtr := rfl
@[simp] theorem State.stage_mem (s : State) (off : Nat) (v : BitVec 64) : (s.stage off v).mem = s.mem := rfl
@[simp] theorem State.stage_poison (s : State) (off : Nat) (v : BitVec 64) : (s.stage off v).poison = s.poison := rfl
@[simp] theorem State.stage_tide (s : State) (off : Nat) (v : BitVec 64) : (s.stage off v).tide = s.tide := rfl
@[simp] theorem State.stage_core (s : State) (off : Nat) (v : BitVec 64) : (s.stage off v).core = s.core := rfl
@[simp] theorem State.stage_disp (s : State) (off : Nat) (v : BitVec 64) : (s.stage off v).disp = s.disp := rfl
@[simp] theorem State.stage_fifo (s : State) (off : Nat) (v : BitVec 64) : (s.stage off v).fifo = s.fifo := rfl
@[simp] theorem State.stage_fifoDrop (s : State) (off : Nat) (v : BitVec 64) : (s.stage off v).fifoDrop = s.fifoDrop := rfl
@[simp] theorem State.stage_stk (s : State) (off : Nat) (v : BitVec 64) : (s.stage off v).stk = s.stk := rfl
@[simp] theorem State.stage_int (s : State) (off : Nat) (v : BitVec 64) : (s.stage off v).int = s.int := rfl
@[simp] theorem State.stage_seed (s : State) (off : Nat) (v : BitVec 64) : (s.stage off v).seed = s.seed := rfl
@[simp] theorem State.stage_job (s : State) (off : Nat) (v : BitVec 64) : (s.stage off v).job = s.job := rfl
@[simp] theorem State.stage_pan (s : State) (off : Nat) (v : BitVec 64) : (s.stage off v).pan = s.pan := rfl
@[simp] theorem State.stage_xtl (s : State) (off : Nat) (v : BitVec 64) : (s.stage off v).xtl = s.xtl := rfl
@[simp] theorem State.stage_gate (s : State) (off : Nat) (v : BitVec 64) : (s.stage off v).gate = s.gate := rfl
@[simp] theorem State.stage_slu (s : State) (off : Nat) (v : BitVec 64) : (s.stage off v).slu = s.slu := rfl
@[simp] theorem State.stage_dieSlu (s : State) (off : Nat) (v : BitVec 64) : (s.stage off v).dieSlu = s.dieSlu := rfl
@[simp] theorem State.stage_collRem (s : State) (off : Nat) (v : BitVec 64) : (s.stage off v).collRem = s.collRem := rfl
@[simp] theorem State.stage_link (s : State) (off : Nat) (v : BitVec 64) : (s.stage off v).link = s.link := rfl
@[simp] theorem State.stage_brn (s : State) (off : Nat) (v : BitVec 64) : (s.stage off v).brn = s.brn := rfl
@[simp] theorem State.stage_pwr (s : State) (off : Nat) (v : BitVec 64) : (s.stage off v).pwr = s.pwr := rfl
@[simp] theorem State.stage_mgmt (s : State) (off : Nat) (v : BitVec 64) : (s.stage off v).mgmt = s.mgmt := rfl
@[simp] theorem State.stage_board (s : State) (off : Nat) (v : BitVec 64) : (s.stage off v).board = s.board := rfl

/-! `wrByte`. -/

@[simp] theorem State.wrByte_pending (s : State) (pa : Nat) (b : Byte) : (s.wrByte pa b).pending = s.pending := rfl
@[simp] theorem State.wrByte_free (s : State) (pa : Nat) (b : Byte) : (s.wrByte pa b).free = s.free := rfl
@[simp] theorem State.wrByte_regs (s : State) (pa : Nat) (b : Byte) : (s.wrByte pa b).regs = s.regs := rfl
@[simp] theorem State.wrByte_staged (s : State) (pa : Nat) (b : Byte) : (s.wrByte pa b).staged = s.staged := rfl
@[simp] theorem State.wrByte_ctr (s : State) (pa : Nat) (b : Byte) : (s.wrByte pa b).ctr = s.ctr := rfl
@[simp] theorem State.wrByte_shadow (s : State) (pa : Nat) (b : Byte) : (s.wrByte pa b).shadow = s.shadow := rfl
@[simp] theorem State.wrByte_edgeCtr (s : State) (pa : Nat) (b : Byte) : (s.wrByte pa b).edgeCtr = s.edgeCtr := rfl
@[simp] theorem State.wrByte_poison (s : State) (pa : Nat) (b : Byte) : (s.wrByte pa b).poison = s.poison := rfl
@[simp] theorem State.wrByte_tide (s : State) (pa : Nat) (b : Byte) : (s.wrByte pa b).tide = s.tide := rfl
@[simp] theorem State.wrByte_core (s : State) (pa : Nat) (b : Byte) : (s.wrByte pa b).core = s.core := rfl
@[simp] theorem State.wrByte_disp (s : State) (pa : Nat) (b : Byte) : (s.wrByte pa b).disp = s.disp := rfl
@[simp] theorem State.wrByte_fifo (s : State) (pa : Nat) (b : Byte) : (s.wrByte pa b).fifo = s.fifo := rfl
@[simp] theorem State.wrByte_fifoDrop (s : State) (pa : Nat) (b : Byte) : (s.wrByte pa b).fifoDrop = s.fifoDrop := rfl
@[simp] theorem State.wrByte_stk (s : State) (pa : Nat) (b : Byte) : (s.wrByte pa b).stk = s.stk := rfl
@[simp] theorem State.wrByte_int (s : State) (pa : Nat) (b : Byte) : (s.wrByte pa b).int = s.int := rfl
@[simp] theorem State.wrByte_seed (s : State) (pa : Nat) (b : Byte) : (s.wrByte pa b).seed = s.seed := rfl
@[simp] theorem State.wrByte_job (s : State) (pa : Nat) (b : Byte) : (s.wrByte pa b).job = s.job := rfl
@[simp] theorem State.wrByte_pan (s : State) (pa : Nat) (b : Byte) : (s.wrByte pa b).pan = s.pan := rfl
@[simp] theorem State.wrByte_xtl (s : State) (pa : Nat) (b : Byte) : (s.wrByte pa b).xtl = s.xtl := rfl
@[simp] theorem State.wrByte_gate (s : State) (pa : Nat) (b : Byte) : (s.wrByte pa b).gate = s.gate := rfl
@[simp] theorem State.wrByte_slu (s : State) (pa : Nat) (b : Byte) : (s.wrByte pa b).slu = s.slu := rfl
@[simp] theorem State.wrByte_dieSlu (s : State) (pa : Nat) (b : Byte) : (s.wrByte pa b).dieSlu = s.dieSlu := rfl
@[simp] theorem State.wrByte_collRem (s : State) (pa : Nat) (b : Byte) : (s.wrByte pa b).collRem = s.collRem := rfl
@[simp] theorem State.wrByte_link (s : State) (pa : Nat) (b : Byte) : (s.wrByte pa b).link = s.link := rfl
@[simp] theorem State.wrByte_brn (s : State) (pa : Nat) (b : Byte) : (s.wrByte pa b).brn = s.brn := rfl
@[simp] theorem State.wrByte_pwr (s : State) (pa : Nat) (b : Byte) : (s.wrByte pa b).pwr = s.pwr := rfl
@[simp] theorem State.wrByte_mgmt (s : State) (pa : Nat) (b : Byte) : (s.wrByte pa b).mgmt = s.mgmt := rfl
@[simp] theorem State.wrByte_board (s : State) (pa : Nat) (b : Byte) : (s.wrByte pa b).board = s.board := rfl

/-! `onCore`. -/

@[simp] theorem State.onCore_pending (s : State) (c : CoreIx) (f : CoreSt → CoreSt) : (s.onCore c f).pending = s.pending := rfl
@[simp] theorem State.onCore_free (s : State) (c : CoreIx) (f : CoreSt → CoreSt) : (s.onCore c f).free = s.free := rfl
@[simp] theorem State.onCore_regs (s : State) (c : CoreIx) (f : CoreSt → CoreSt) : (s.onCore c f).regs = s.regs := rfl
@[simp] theorem State.onCore_staged (s : State) (c : CoreIx) (f : CoreSt → CoreSt) : (s.onCore c f).staged = s.staged := rfl
@[simp] theorem State.onCore_ctr (s : State) (c : CoreIx) (f : CoreSt → CoreSt) : (s.onCore c f).ctr = s.ctr := rfl
@[simp] theorem State.onCore_shadow (s : State) (c : CoreIx) (f : CoreSt → CoreSt) : (s.onCore c f).shadow = s.shadow := rfl
@[simp] theorem State.onCore_edgeCtr (s : State) (c : CoreIx) (f : CoreSt → CoreSt) : (s.onCore c f).edgeCtr = s.edgeCtr := rfl
@[simp] theorem State.onCore_mem (s : State) (c : CoreIx) (f : CoreSt → CoreSt) : (s.onCore c f).mem = s.mem := rfl
@[simp] theorem State.onCore_poison (s : State) (c : CoreIx) (f : CoreSt → CoreSt) : (s.onCore c f).poison = s.poison := rfl
@[simp] theorem State.onCore_tide (s : State) (c : CoreIx) (f : CoreSt → CoreSt) : (s.onCore c f).tide = s.tide := rfl
@[simp] theorem State.onCore_disp (s : State) (c : CoreIx) (f : CoreSt → CoreSt) : (s.onCore c f).disp = s.disp := rfl
@[simp] theorem State.onCore_fifo (s : State) (c : CoreIx) (f : CoreSt → CoreSt) : (s.onCore c f).fifo = s.fifo := rfl
@[simp] theorem State.onCore_fifoDrop (s : State) (c : CoreIx) (f : CoreSt → CoreSt) : (s.onCore c f).fifoDrop = s.fifoDrop := rfl
@[simp] theorem State.onCore_stk (s : State) (c : CoreIx) (f : CoreSt → CoreSt) : (s.onCore c f).stk = s.stk := rfl
@[simp] theorem State.onCore_int (s : State) (c : CoreIx) (f : CoreSt → CoreSt) : (s.onCore c f).int = s.int := rfl
@[simp] theorem State.onCore_seed (s : State) (c : CoreIx) (f : CoreSt → CoreSt) : (s.onCore c f).seed = s.seed := rfl
@[simp] theorem State.onCore_job (s : State) (c : CoreIx) (f : CoreSt → CoreSt) : (s.onCore c f).job = s.job := rfl
@[simp] theorem State.onCore_pan (s : State) (c : CoreIx) (f : CoreSt → CoreSt) : (s.onCore c f).pan = s.pan := rfl
@[simp] theorem State.onCore_xtl (s : State) (c : CoreIx) (f : CoreSt → CoreSt) : (s.onCore c f).xtl = s.xtl := rfl
@[simp] theorem State.onCore_gate (s : State) (c : CoreIx) (f : CoreSt → CoreSt) : (s.onCore c f).gate = s.gate := rfl
@[simp] theorem State.onCore_slu (s : State) (c : CoreIx) (f : CoreSt → CoreSt) : (s.onCore c f).slu = s.slu := rfl
@[simp] theorem State.onCore_dieSlu (s : State) (c : CoreIx) (f : CoreSt → CoreSt) : (s.onCore c f).dieSlu = s.dieSlu := rfl
@[simp] theorem State.onCore_collRem (s : State) (c : CoreIx) (f : CoreSt → CoreSt) : (s.onCore c f).collRem = s.collRem := rfl
@[simp] theorem State.onCore_link (s : State) (c : CoreIx) (f : CoreSt → CoreSt) : (s.onCore c f).link = s.link := rfl
@[simp] theorem State.onCore_brn (s : State) (c : CoreIx) (f : CoreSt → CoreSt) : (s.onCore c f).brn = s.brn := rfl
@[simp] theorem State.onCore_pwr (s : State) (c : CoreIx) (f : CoreSt → CoreSt) : (s.onCore c f).pwr = s.pwr := rfl
@[simp] theorem State.onCore_mgmt (s : State) (c : CoreIx) (f : CoreSt → CoreSt) : (s.onCore c f).mgmt = s.mgmt := rfl
@[simp] theorem State.onCore_board (s : State) (c : CoreIx) (f : CoreSt → CoreSt) : (s.onCore c f).board = s.board := rfl

/-! `setCore`. -/

@[simp] theorem State.setCore_pending (s : State) (c : CoreIx) (k : CoreSt) : (s.setCore c k).pending = s.pending := rfl
@[simp] theorem State.setCore_free (s : State) (c : CoreIx) (k : CoreSt) : (s.setCore c k).free = s.free := rfl
@[simp] theorem State.setCore_regs (s : State) (c : CoreIx) (k : CoreSt) : (s.setCore c k).regs = s.regs := rfl
@[simp] theorem State.setCore_staged (s : State) (c : CoreIx) (k : CoreSt) : (s.setCore c k).staged = s.staged := rfl
@[simp] theorem State.setCore_ctr (s : State) (c : CoreIx) (k : CoreSt) : (s.setCore c k).ctr = s.ctr := rfl
@[simp] theorem State.setCore_shadow (s : State) (c : CoreIx) (k : CoreSt) : (s.setCore c k).shadow = s.shadow := rfl
@[simp] theorem State.setCore_edgeCtr (s : State) (c : CoreIx) (k : CoreSt) : (s.setCore c k).edgeCtr = s.edgeCtr := rfl
@[simp] theorem State.setCore_mem (s : State) (c : CoreIx) (k : CoreSt) : (s.setCore c k).mem = s.mem := rfl
@[simp] theorem State.setCore_poison (s : State) (c : CoreIx) (k : CoreSt) : (s.setCore c k).poison = s.poison := rfl
@[simp] theorem State.setCore_tide (s : State) (c : CoreIx) (k : CoreSt) : (s.setCore c k).tide = s.tide := rfl
@[simp] theorem State.setCore_disp (s : State) (c : CoreIx) (k : CoreSt) : (s.setCore c k).disp = s.disp := rfl
@[simp] theorem State.setCore_fifo (s : State) (c : CoreIx) (k : CoreSt) : (s.setCore c k).fifo = s.fifo := rfl
@[simp] theorem State.setCore_fifoDrop (s : State) (c : CoreIx) (k : CoreSt) : (s.setCore c k).fifoDrop = s.fifoDrop := rfl
@[simp] theorem State.setCore_stk (s : State) (c : CoreIx) (k : CoreSt) : (s.setCore c k).stk = s.stk := rfl
@[simp] theorem State.setCore_int (s : State) (c : CoreIx) (k : CoreSt) : (s.setCore c k).int = s.int := rfl
@[simp] theorem State.setCore_seed (s : State) (c : CoreIx) (k : CoreSt) : (s.setCore c k).seed = s.seed := rfl
@[simp] theorem State.setCore_job (s : State) (c : CoreIx) (k : CoreSt) : (s.setCore c k).job = s.job := rfl
@[simp] theorem State.setCore_pan (s : State) (c : CoreIx) (k : CoreSt) : (s.setCore c k).pan = s.pan := rfl
@[simp] theorem State.setCore_xtl (s : State) (c : CoreIx) (k : CoreSt) : (s.setCore c k).xtl = s.xtl := rfl
@[simp] theorem State.setCore_gate (s : State) (c : CoreIx) (k : CoreSt) : (s.setCore c k).gate = s.gate := rfl
@[simp] theorem State.setCore_slu (s : State) (c : CoreIx) (k : CoreSt) : (s.setCore c k).slu = s.slu := rfl
@[simp] theorem State.setCore_dieSlu (s : State) (c : CoreIx) (k : CoreSt) : (s.setCore c k).dieSlu = s.dieSlu := rfl
@[simp] theorem State.setCore_collRem (s : State) (c : CoreIx) (k : CoreSt) : (s.setCore c k).collRem = s.collRem := rfl
@[simp] theorem State.setCore_link (s : State) (c : CoreIx) (k : CoreSt) : (s.setCore c k).link = s.link := rfl
@[simp] theorem State.setCore_brn (s : State) (c : CoreIx) (k : CoreSt) : (s.setCore c k).brn = s.brn := rfl
@[simp] theorem State.setCore_pwr (s : State) (c : CoreIx) (k : CoreSt) : (s.setCore c k).pwr = s.pwr := rfl
@[simp] theorem State.setCore_mgmt (s : State) (c : CoreIx) (k : CoreSt) : (s.setCore c k).mgmt = s.mgmt := rfl
@[simp] theorem State.setCore_board (s : State) (c : CoreIx) (k : CoreSt) : (s.setCore c k).board = s.board := rfl

/-! `onDisp`. -/

@[simp] theorem State.onDisp_pending (s : State) (c : ClusterIx) (f : DispSt → DispSt) : (s.onDisp c f).pending = s.pending := rfl
@[simp] theorem State.onDisp_free (s : State) (c : ClusterIx) (f : DispSt → DispSt) : (s.onDisp c f).free = s.free := rfl
@[simp] theorem State.onDisp_regs (s : State) (c : ClusterIx) (f : DispSt → DispSt) : (s.onDisp c f).regs = s.regs := rfl
@[simp] theorem State.onDisp_staged (s : State) (c : ClusterIx) (f : DispSt → DispSt) : (s.onDisp c f).staged = s.staged := rfl
@[simp] theorem State.onDisp_ctr (s : State) (c : ClusterIx) (f : DispSt → DispSt) : (s.onDisp c f).ctr = s.ctr := rfl
@[simp] theorem State.onDisp_shadow (s : State) (c : ClusterIx) (f : DispSt → DispSt) : (s.onDisp c f).shadow = s.shadow := rfl
@[simp] theorem State.onDisp_edgeCtr (s : State) (c : ClusterIx) (f : DispSt → DispSt) : (s.onDisp c f).edgeCtr = s.edgeCtr := rfl
@[simp] theorem State.onDisp_mem (s : State) (c : ClusterIx) (f : DispSt → DispSt) : (s.onDisp c f).mem = s.mem := rfl
@[simp] theorem State.onDisp_poison (s : State) (c : ClusterIx) (f : DispSt → DispSt) : (s.onDisp c f).poison = s.poison := rfl
@[simp] theorem State.onDisp_tide (s : State) (c : ClusterIx) (f : DispSt → DispSt) : (s.onDisp c f).tide = s.tide := rfl
@[simp] theorem State.onDisp_core (s : State) (c : ClusterIx) (f : DispSt → DispSt) : (s.onDisp c f).core = s.core := rfl
@[simp] theorem State.onDisp_fifo (s : State) (c : ClusterIx) (f : DispSt → DispSt) : (s.onDisp c f).fifo = s.fifo := rfl
@[simp] theorem State.onDisp_fifoDrop (s : State) (c : ClusterIx) (f : DispSt → DispSt) : (s.onDisp c f).fifoDrop = s.fifoDrop := rfl
@[simp] theorem State.onDisp_stk (s : State) (c : ClusterIx) (f : DispSt → DispSt) : (s.onDisp c f).stk = s.stk := rfl
@[simp] theorem State.onDisp_int (s : State) (c : ClusterIx) (f : DispSt → DispSt) : (s.onDisp c f).int = s.int := rfl
@[simp] theorem State.onDisp_seed (s : State) (c : ClusterIx) (f : DispSt → DispSt) : (s.onDisp c f).seed = s.seed := rfl
@[simp] theorem State.onDisp_job (s : State) (c : ClusterIx) (f : DispSt → DispSt) : (s.onDisp c f).job = s.job := rfl
@[simp] theorem State.onDisp_pan (s : State) (c : ClusterIx) (f : DispSt → DispSt) : (s.onDisp c f).pan = s.pan := rfl
@[simp] theorem State.onDisp_xtl (s : State) (c : ClusterIx) (f : DispSt → DispSt) : (s.onDisp c f).xtl = s.xtl := rfl
@[simp] theorem State.onDisp_gate (s : State) (c : ClusterIx) (f : DispSt → DispSt) : (s.onDisp c f).gate = s.gate := rfl
@[simp] theorem State.onDisp_slu (s : State) (c : ClusterIx) (f : DispSt → DispSt) : (s.onDisp c f).slu = s.slu := rfl
@[simp] theorem State.onDisp_dieSlu (s : State) (c : ClusterIx) (f : DispSt → DispSt) : (s.onDisp c f).dieSlu = s.dieSlu := rfl
@[simp] theorem State.onDisp_collRem (s : State) (c : ClusterIx) (f : DispSt → DispSt) : (s.onDisp c f).collRem = s.collRem := rfl
@[simp] theorem State.onDisp_link (s : State) (c : ClusterIx) (f : DispSt → DispSt) : (s.onDisp c f).link = s.link := rfl
@[simp] theorem State.onDisp_brn (s : State) (c : ClusterIx) (f : DispSt → DispSt) : (s.onDisp c f).brn = s.brn := rfl
@[simp] theorem State.onDisp_pwr (s : State) (c : ClusterIx) (f : DispSt → DispSt) : (s.onDisp c f).pwr = s.pwr := rfl
@[simp] theorem State.onDisp_mgmt (s : State) (c : ClusterIx) (f : DispSt → DispSt) : (s.onDisp c f).mgmt = s.mgmt := rfl
@[simp] theorem State.onDisp_board (s : State) (c : ClusterIx) (f : DispSt → DispSt) : (s.onDisp c f).board = s.board := rfl

/-! `onPan`. -/

@[simp] theorem State.onPan_pending (s : State) (p : ClusterIx) (f : PanSt → PanSt) : (s.onPan p f).pending = s.pending := rfl
@[simp] theorem State.onPan_free (s : State) (p : ClusterIx) (f : PanSt → PanSt) : (s.onPan p f).free = s.free := rfl
@[simp] theorem State.onPan_regs (s : State) (p : ClusterIx) (f : PanSt → PanSt) : (s.onPan p f).regs = s.regs := rfl
@[simp] theorem State.onPan_staged (s : State) (p : ClusterIx) (f : PanSt → PanSt) : (s.onPan p f).staged = s.staged := rfl
@[simp] theorem State.onPan_ctr (s : State) (p : ClusterIx) (f : PanSt → PanSt) : (s.onPan p f).ctr = s.ctr := rfl
@[simp] theorem State.onPan_shadow (s : State) (p : ClusterIx) (f : PanSt → PanSt) : (s.onPan p f).shadow = s.shadow := rfl
@[simp] theorem State.onPan_edgeCtr (s : State) (p : ClusterIx) (f : PanSt → PanSt) : (s.onPan p f).edgeCtr = s.edgeCtr := rfl
@[simp] theorem State.onPan_mem (s : State) (p : ClusterIx) (f : PanSt → PanSt) : (s.onPan p f).mem = s.mem := rfl
@[simp] theorem State.onPan_poison (s : State) (p : ClusterIx) (f : PanSt → PanSt) : (s.onPan p f).poison = s.poison := rfl
@[simp] theorem State.onPan_tide (s : State) (p : ClusterIx) (f : PanSt → PanSt) : (s.onPan p f).tide = s.tide := rfl
@[simp] theorem State.onPan_core (s : State) (p : ClusterIx) (f : PanSt → PanSt) : (s.onPan p f).core = s.core := rfl
@[simp] theorem State.onPan_disp (s : State) (p : ClusterIx) (f : PanSt → PanSt) : (s.onPan p f).disp = s.disp := rfl
@[simp] theorem State.onPan_fifo (s : State) (p : ClusterIx) (f : PanSt → PanSt) : (s.onPan p f).fifo = s.fifo := rfl
@[simp] theorem State.onPan_fifoDrop (s : State) (p : ClusterIx) (f : PanSt → PanSt) : (s.onPan p f).fifoDrop = s.fifoDrop := rfl
@[simp] theorem State.onPan_stk (s : State) (p : ClusterIx) (f : PanSt → PanSt) : (s.onPan p f).stk = s.stk := rfl
@[simp] theorem State.onPan_int (s : State) (p : ClusterIx) (f : PanSt → PanSt) : (s.onPan p f).int = s.int := rfl
@[simp] theorem State.onPan_seed (s : State) (p : ClusterIx) (f : PanSt → PanSt) : (s.onPan p f).seed = s.seed := rfl
@[simp] theorem State.onPan_job (s : State) (p : ClusterIx) (f : PanSt → PanSt) : (s.onPan p f).job = s.job := rfl
@[simp] theorem State.onPan_xtl (s : State) (p : ClusterIx) (f : PanSt → PanSt) : (s.onPan p f).xtl = s.xtl := rfl
@[simp] theorem State.onPan_gate (s : State) (p : ClusterIx) (f : PanSt → PanSt) : (s.onPan p f).gate = s.gate := rfl
@[simp] theorem State.onPan_slu (s : State) (p : ClusterIx) (f : PanSt → PanSt) : (s.onPan p f).slu = s.slu := rfl
@[simp] theorem State.onPan_dieSlu (s : State) (p : ClusterIx) (f : PanSt → PanSt) : (s.onPan p f).dieSlu = s.dieSlu := rfl
@[simp] theorem State.onPan_collRem (s : State) (p : ClusterIx) (f : PanSt → PanSt) : (s.onPan p f).collRem = s.collRem := rfl
@[simp] theorem State.onPan_link (s : State) (p : ClusterIx) (f : PanSt → PanSt) : (s.onPan p f).link = s.link := rfl
@[simp] theorem State.onPan_brn (s : State) (p : ClusterIx) (f : PanSt → PanSt) : (s.onPan p f).brn = s.brn := rfl
@[simp] theorem State.onPan_pwr (s : State) (p : ClusterIx) (f : PanSt → PanSt) : (s.onPan p f).pwr = s.pwr := rfl
@[simp] theorem State.onPan_mgmt (s : State) (p : ClusterIx) (f : PanSt → PanSt) : (s.onPan p f).mgmt = s.mgmt := rfl
@[simp] theorem State.onPan_board (s : State) (p : ClusterIx) (f : PanSt → PanSt) : (s.onPan p f).board = s.board := rfl

/-! `onSlu`. -/

@[simp] theorem State.onSlu_pending (s : State) (i : SluIx) (f : SluSt → SluSt) : (s.onSlu i f).pending = s.pending := rfl
@[simp] theorem State.onSlu_free (s : State) (i : SluIx) (f : SluSt → SluSt) : (s.onSlu i f).free = s.free := rfl
@[simp] theorem State.onSlu_regs (s : State) (i : SluIx) (f : SluSt → SluSt) : (s.onSlu i f).regs = s.regs := rfl
@[simp] theorem State.onSlu_staged (s : State) (i : SluIx) (f : SluSt → SluSt) : (s.onSlu i f).staged = s.staged := rfl
@[simp] theorem State.onSlu_ctr (s : State) (i : SluIx) (f : SluSt → SluSt) : (s.onSlu i f).ctr = s.ctr := rfl
@[simp] theorem State.onSlu_shadow (s : State) (i : SluIx) (f : SluSt → SluSt) : (s.onSlu i f).shadow = s.shadow := rfl
@[simp] theorem State.onSlu_edgeCtr (s : State) (i : SluIx) (f : SluSt → SluSt) : (s.onSlu i f).edgeCtr = s.edgeCtr := rfl
@[simp] theorem State.onSlu_mem (s : State) (i : SluIx) (f : SluSt → SluSt) : (s.onSlu i f).mem = s.mem := rfl
@[simp] theorem State.onSlu_poison (s : State) (i : SluIx) (f : SluSt → SluSt) : (s.onSlu i f).poison = s.poison := rfl
@[simp] theorem State.onSlu_tide (s : State) (i : SluIx) (f : SluSt → SluSt) : (s.onSlu i f).tide = s.tide := rfl
@[simp] theorem State.onSlu_core (s : State) (i : SluIx) (f : SluSt → SluSt) : (s.onSlu i f).core = s.core := rfl
@[simp] theorem State.onSlu_disp (s : State) (i : SluIx) (f : SluSt → SluSt) : (s.onSlu i f).disp = s.disp := rfl
@[simp] theorem State.onSlu_fifo (s : State) (i : SluIx) (f : SluSt → SluSt) : (s.onSlu i f).fifo = s.fifo := rfl
@[simp] theorem State.onSlu_fifoDrop (s : State) (i : SluIx) (f : SluSt → SluSt) : (s.onSlu i f).fifoDrop = s.fifoDrop := rfl
@[simp] theorem State.onSlu_stk (s : State) (i : SluIx) (f : SluSt → SluSt) : (s.onSlu i f).stk = s.stk := rfl
@[simp] theorem State.onSlu_int (s : State) (i : SluIx) (f : SluSt → SluSt) : (s.onSlu i f).int = s.int := rfl
@[simp] theorem State.onSlu_seed (s : State) (i : SluIx) (f : SluSt → SluSt) : (s.onSlu i f).seed = s.seed := rfl
@[simp] theorem State.onSlu_job (s : State) (i : SluIx) (f : SluSt → SluSt) : (s.onSlu i f).job = s.job := rfl
@[simp] theorem State.onSlu_pan (s : State) (i : SluIx) (f : SluSt → SluSt) : (s.onSlu i f).pan = s.pan := rfl
@[simp] theorem State.onSlu_xtl (s : State) (i : SluIx) (f : SluSt → SluSt) : (s.onSlu i f).xtl = s.xtl := rfl
@[simp] theorem State.onSlu_gate (s : State) (i : SluIx) (f : SluSt → SluSt) : (s.onSlu i f).gate = s.gate := rfl
@[simp] theorem State.onSlu_dieSlu (s : State) (i : SluIx) (f : SluSt → SluSt) : (s.onSlu i f).dieSlu = s.dieSlu := rfl
@[simp] theorem State.onSlu_collRem (s : State) (i : SluIx) (f : SluSt → SluSt) : (s.onSlu i f).collRem = s.collRem := rfl
@[simp] theorem State.onSlu_link (s : State) (i : SluIx) (f : SluSt → SluSt) : (s.onSlu i f).link = s.link := rfl
@[simp] theorem State.onSlu_brn (s : State) (i : SluIx) (f : SluSt → SluSt) : (s.onSlu i f).brn = s.brn := rfl
@[simp] theorem State.onSlu_pwr (s : State) (i : SluIx) (f : SluSt → SluSt) : (s.onSlu i f).pwr = s.pwr := rfl
@[simp] theorem State.onSlu_mgmt (s : State) (i : SluIx) (f : SluSt → SluSt) : (s.onSlu i f).mgmt = s.mgmt := rfl
@[simp] theorem State.onSlu_board (s : State) (i : SluIx) (f : SluSt → SluSt) : (s.onSlu i f).board = s.board := rfl

/-! `onXtl`. -/

@[simp] theorem State.onXtl_pending (s : State) (x : XtlIx) (f : XtlSt → XtlSt) : (s.onXtl x f).pending = s.pending := rfl
@[simp] theorem State.onXtl_free (s : State) (x : XtlIx) (f : XtlSt → XtlSt) : (s.onXtl x f).free = s.free := rfl
@[simp] theorem State.onXtl_regs (s : State) (x : XtlIx) (f : XtlSt → XtlSt) : (s.onXtl x f).regs = s.regs := rfl
@[simp] theorem State.onXtl_staged (s : State) (x : XtlIx) (f : XtlSt → XtlSt) : (s.onXtl x f).staged = s.staged := rfl
@[simp] theorem State.onXtl_ctr (s : State) (x : XtlIx) (f : XtlSt → XtlSt) : (s.onXtl x f).ctr = s.ctr := rfl
@[simp] theorem State.onXtl_shadow (s : State) (x : XtlIx) (f : XtlSt → XtlSt) : (s.onXtl x f).shadow = s.shadow := rfl
@[simp] theorem State.onXtl_edgeCtr (s : State) (x : XtlIx) (f : XtlSt → XtlSt) : (s.onXtl x f).edgeCtr = s.edgeCtr := rfl
@[simp] theorem State.onXtl_mem (s : State) (x : XtlIx) (f : XtlSt → XtlSt) : (s.onXtl x f).mem = s.mem := rfl
@[simp] theorem State.onXtl_poison (s : State) (x : XtlIx) (f : XtlSt → XtlSt) : (s.onXtl x f).poison = s.poison := rfl
@[simp] theorem State.onXtl_tide (s : State) (x : XtlIx) (f : XtlSt → XtlSt) : (s.onXtl x f).tide = s.tide := rfl
@[simp] theorem State.onXtl_core (s : State) (x : XtlIx) (f : XtlSt → XtlSt) : (s.onXtl x f).core = s.core := rfl
@[simp] theorem State.onXtl_disp (s : State) (x : XtlIx) (f : XtlSt → XtlSt) : (s.onXtl x f).disp = s.disp := rfl
@[simp] theorem State.onXtl_fifo (s : State) (x : XtlIx) (f : XtlSt → XtlSt) : (s.onXtl x f).fifo = s.fifo := rfl
@[simp] theorem State.onXtl_fifoDrop (s : State) (x : XtlIx) (f : XtlSt → XtlSt) : (s.onXtl x f).fifoDrop = s.fifoDrop := rfl
@[simp] theorem State.onXtl_stk (s : State) (x : XtlIx) (f : XtlSt → XtlSt) : (s.onXtl x f).stk = s.stk := rfl
@[simp] theorem State.onXtl_int (s : State) (x : XtlIx) (f : XtlSt → XtlSt) : (s.onXtl x f).int = s.int := rfl
@[simp] theorem State.onXtl_seed (s : State) (x : XtlIx) (f : XtlSt → XtlSt) : (s.onXtl x f).seed = s.seed := rfl
@[simp] theorem State.onXtl_job (s : State) (x : XtlIx) (f : XtlSt → XtlSt) : (s.onXtl x f).job = s.job := rfl
@[simp] theorem State.onXtl_pan (s : State) (x : XtlIx) (f : XtlSt → XtlSt) : (s.onXtl x f).pan = s.pan := rfl
@[simp] theorem State.onXtl_gate (s : State) (x : XtlIx) (f : XtlSt → XtlSt) : (s.onXtl x f).gate = s.gate := rfl
@[simp] theorem State.onXtl_slu (s : State) (x : XtlIx) (f : XtlSt → XtlSt) : (s.onXtl x f).slu = s.slu := rfl
@[simp] theorem State.onXtl_dieSlu (s : State) (x : XtlIx) (f : XtlSt → XtlSt) : (s.onXtl x f).dieSlu = s.dieSlu := rfl
@[simp] theorem State.onXtl_collRem (s : State) (x : XtlIx) (f : XtlSt → XtlSt) : (s.onXtl x f).collRem = s.collRem := rfl
@[simp] theorem State.onXtl_link (s : State) (x : XtlIx) (f : XtlSt → XtlSt) : (s.onXtl x f).link = s.link := rfl
@[simp] theorem State.onXtl_brn (s : State) (x : XtlIx) (f : XtlSt → XtlSt) : (s.onXtl x f).brn = s.brn := rfl
@[simp] theorem State.onXtl_pwr (s : State) (x : XtlIx) (f : XtlSt → XtlSt) : (s.onXtl x f).pwr = s.pwr := rfl
@[simp] theorem State.onXtl_mgmt (s : State) (x : XtlIx) (f : XtlSt → XtlSt) : (s.onXtl x f).mgmt = s.mgmt := rfl
@[simp] theorem State.onXtl_board (s : State) (x : XtlIx) (f : XtlSt → XtlSt) : (s.onXtl x f).board = s.board := rfl

/-! `onBrn`. -/

@[simp] theorem State.onBrn_pending (s : State) (d : DieIx) (f : BrnSt → BrnSt) : (s.onBrn d f).pending = s.pending := rfl
@[simp] theorem State.onBrn_free (s : State) (d : DieIx) (f : BrnSt → BrnSt) : (s.onBrn d f).free = s.free := rfl
@[simp] theorem State.onBrn_regs (s : State) (d : DieIx) (f : BrnSt → BrnSt) : (s.onBrn d f).regs = s.regs := rfl
@[simp] theorem State.onBrn_staged (s : State) (d : DieIx) (f : BrnSt → BrnSt) : (s.onBrn d f).staged = s.staged := rfl
@[simp] theorem State.onBrn_ctr (s : State) (d : DieIx) (f : BrnSt → BrnSt) : (s.onBrn d f).ctr = s.ctr := rfl
@[simp] theorem State.onBrn_shadow (s : State) (d : DieIx) (f : BrnSt → BrnSt) : (s.onBrn d f).shadow = s.shadow := rfl
@[simp] theorem State.onBrn_edgeCtr (s : State) (d : DieIx) (f : BrnSt → BrnSt) : (s.onBrn d f).edgeCtr = s.edgeCtr := rfl
@[simp] theorem State.onBrn_mem (s : State) (d : DieIx) (f : BrnSt → BrnSt) : (s.onBrn d f).mem = s.mem := rfl
@[simp] theorem State.onBrn_poison (s : State) (d : DieIx) (f : BrnSt → BrnSt) : (s.onBrn d f).poison = s.poison := rfl
@[simp] theorem State.onBrn_tide (s : State) (d : DieIx) (f : BrnSt → BrnSt) : (s.onBrn d f).tide = s.tide := rfl
@[simp] theorem State.onBrn_core (s : State) (d : DieIx) (f : BrnSt → BrnSt) : (s.onBrn d f).core = s.core := rfl
@[simp] theorem State.onBrn_disp (s : State) (d : DieIx) (f : BrnSt → BrnSt) : (s.onBrn d f).disp = s.disp := rfl
@[simp] theorem State.onBrn_fifo (s : State) (d : DieIx) (f : BrnSt → BrnSt) : (s.onBrn d f).fifo = s.fifo := rfl
@[simp] theorem State.onBrn_fifoDrop (s : State) (d : DieIx) (f : BrnSt → BrnSt) : (s.onBrn d f).fifoDrop = s.fifoDrop := rfl
@[simp] theorem State.onBrn_stk (s : State) (d : DieIx) (f : BrnSt → BrnSt) : (s.onBrn d f).stk = s.stk := rfl
@[simp] theorem State.onBrn_int (s : State) (d : DieIx) (f : BrnSt → BrnSt) : (s.onBrn d f).int = s.int := rfl
@[simp] theorem State.onBrn_seed (s : State) (d : DieIx) (f : BrnSt → BrnSt) : (s.onBrn d f).seed = s.seed := rfl
@[simp] theorem State.onBrn_job (s : State) (d : DieIx) (f : BrnSt → BrnSt) : (s.onBrn d f).job = s.job := rfl
@[simp] theorem State.onBrn_pan (s : State) (d : DieIx) (f : BrnSt → BrnSt) : (s.onBrn d f).pan = s.pan := rfl
@[simp] theorem State.onBrn_xtl (s : State) (d : DieIx) (f : BrnSt → BrnSt) : (s.onBrn d f).xtl = s.xtl := rfl
@[simp] theorem State.onBrn_gate (s : State) (d : DieIx) (f : BrnSt → BrnSt) : (s.onBrn d f).gate = s.gate := rfl
@[simp] theorem State.onBrn_slu (s : State) (d : DieIx) (f : BrnSt → BrnSt) : (s.onBrn d f).slu = s.slu := rfl
@[simp] theorem State.onBrn_dieSlu (s : State) (d : DieIx) (f : BrnSt → BrnSt) : (s.onBrn d f).dieSlu = s.dieSlu := rfl
@[simp] theorem State.onBrn_collRem (s : State) (d : DieIx) (f : BrnSt → BrnSt) : (s.onBrn d f).collRem = s.collRem := rfl
@[simp] theorem State.onBrn_link (s : State) (d : DieIx) (f : BrnSt → BrnSt) : (s.onBrn d f).link = s.link := rfl
@[simp] theorem State.onBrn_pwr (s : State) (d : DieIx) (f : BrnSt → BrnSt) : (s.onBrn d f).pwr = s.pwr := rfl
@[simp] theorem State.onBrn_mgmt (s : State) (d : DieIx) (f : BrnSt → BrnSt) : (s.onBrn d f).mgmt = s.mgmt := rfl
@[simp] theorem State.onBrn_board (s : State) (d : DieIx) (f : BrnSt → BrnSt) : (s.onBrn d f).board = s.board := rfl

/-! `onPort`. -/

@[simp] theorem State.onPort_pending (s : State) (p : PortIx) (f : PortSt → PortSt) : (s.onPort p f).pending = s.pending := rfl
@[simp] theorem State.onPort_free (s : State) (p : PortIx) (f : PortSt → PortSt) : (s.onPort p f).free = s.free := rfl
@[simp] theorem State.onPort_regs (s : State) (p : PortIx) (f : PortSt → PortSt) : (s.onPort p f).regs = s.regs := rfl
@[simp] theorem State.onPort_staged (s : State) (p : PortIx) (f : PortSt → PortSt) : (s.onPort p f).staged = s.staged := rfl
@[simp] theorem State.onPort_ctr (s : State) (p : PortIx) (f : PortSt → PortSt) : (s.onPort p f).ctr = s.ctr := rfl
@[simp] theorem State.onPort_shadow (s : State) (p : PortIx) (f : PortSt → PortSt) : (s.onPort p f).shadow = s.shadow := rfl
@[simp] theorem State.onPort_edgeCtr (s : State) (p : PortIx) (f : PortSt → PortSt) : (s.onPort p f).edgeCtr = s.edgeCtr := rfl
@[simp] theorem State.onPort_mem (s : State) (p : PortIx) (f : PortSt → PortSt) : (s.onPort p f).mem = s.mem := rfl
@[simp] theorem State.onPort_poison (s : State) (p : PortIx) (f : PortSt → PortSt) : (s.onPort p f).poison = s.poison := rfl
@[simp] theorem State.onPort_tide (s : State) (p : PortIx) (f : PortSt → PortSt) : (s.onPort p f).tide = s.tide := rfl
@[simp] theorem State.onPort_core (s : State) (p : PortIx) (f : PortSt → PortSt) : (s.onPort p f).core = s.core := rfl
@[simp] theorem State.onPort_disp (s : State) (p : PortIx) (f : PortSt → PortSt) : (s.onPort p f).disp = s.disp := rfl
@[simp] theorem State.onPort_fifo (s : State) (p : PortIx) (f : PortSt → PortSt) : (s.onPort p f).fifo = s.fifo := rfl
@[simp] theorem State.onPort_fifoDrop (s : State) (p : PortIx) (f : PortSt → PortSt) : (s.onPort p f).fifoDrop = s.fifoDrop := rfl
@[simp] theorem State.onPort_stk (s : State) (p : PortIx) (f : PortSt → PortSt) : (s.onPort p f).stk = s.stk := rfl
@[simp] theorem State.onPort_int (s : State) (p : PortIx) (f : PortSt → PortSt) : (s.onPort p f).int = s.int := rfl
@[simp] theorem State.onPort_seed (s : State) (p : PortIx) (f : PortSt → PortSt) : (s.onPort p f).seed = s.seed := rfl
@[simp] theorem State.onPort_job (s : State) (p : PortIx) (f : PortSt → PortSt) : (s.onPort p f).job = s.job := rfl
@[simp] theorem State.onPort_pan (s : State) (p : PortIx) (f : PortSt → PortSt) : (s.onPort p f).pan = s.pan := rfl
@[simp] theorem State.onPort_xtl (s : State) (p : PortIx) (f : PortSt → PortSt) : (s.onPort p f).xtl = s.xtl := rfl
@[simp] theorem State.onPort_gate (s : State) (p : PortIx) (f : PortSt → PortSt) : (s.onPort p f).gate = s.gate := rfl
@[simp] theorem State.onPort_slu (s : State) (p : PortIx) (f : PortSt → PortSt) : (s.onPort p f).slu = s.slu := rfl
@[simp] theorem State.onPort_dieSlu (s : State) (p : PortIx) (f : PortSt → PortSt) : (s.onPort p f).dieSlu = s.dieSlu := rfl
@[simp] theorem State.onPort_collRem (s : State) (p : PortIx) (f : PortSt → PortSt) : (s.onPort p f).collRem = s.collRem := rfl
@[simp] theorem State.onPort_brn (s : State) (p : PortIx) (f : PortSt → PortSt) : (s.onPort p f).brn = s.brn := rfl
@[simp] theorem State.onPort_pwr (s : State) (p : PortIx) (f : PortSt → PortSt) : (s.onPort p f).pwr = s.pwr := rfl
@[simp] theorem State.onPort_mgmt (s : State) (p : PortIx) (f : PortSt → PortSt) : (s.onPort p f).mgmt = s.mgmt := rfl
@[simp] theorem State.onPort_board (s : State) (p : PortIx) (f : PortSt → PortSt) : (s.onPort p f).board = s.board := rfl

/-! `onStk`. -/

@[simp] theorem State.onStk_pending (s : State) (f : StkSt → StkSt) : (s.onStk f).pending = s.pending := rfl
@[simp] theorem State.onStk_free (s : State) (f : StkSt → StkSt) : (s.onStk f).free = s.free := rfl
@[simp] theorem State.onStk_regs (s : State) (f : StkSt → StkSt) : (s.onStk f).regs = s.regs := rfl
@[simp] theorem State.onStk_staged (s : State) (f : StkSt → StkSt) : (s.onStk f).staged = s.staged := rfl
@[simp] theorem State.onStk_ctr (s : State) (f : StkSt → StkSt) : (s.onStk f).ctr = s.ctr := rfl
@[simp] theorem State.onStk_shadow (s : State) (f : StkSt → StkSt) : (s.onStk f).shadow = s.shadow := rfl
@[simp] theorem State.onStk_edgeCtr (s : State) (f : StkSt → StkSt) : (s.onStk f).edgeCtr = s.edgeCtr := rfl
@[simp] theorem State.onStk_mem (s : State) (f : StkSt → StkSt) : (s.onStk f).mem = s.mem := rfl
@[simp] theorem State.onStk_poison (s : State) (f : StkSt → StkSt) : (s.onStk f).poison = s.poison := rfl
@[simp] theorem State.onStk_tide (s : State) (f : StkSt → StkSt) : (s.onStk f).tide = s.tide := rfl
@[simp] theorem State.onStk_core (s : State) (f : StkSt → StkSt) : (s.onStk f).core = s.core := rfl
@[simp] theorem State.onStk_disp (s : State) (f : StkSt → StkSt) : (s.onStk f).disp = s.disp := rfl
@[simp] theorem State.onStk_fifo (s : State) (f : StkSt → StkSt) : (s.onStk f).fifo = s.fifo := rfl
@[simp] theorem State.onStk_fifoDrop (s : State) (f : StkSt → StkSt) : (s.onStk f).fifoDrop = s.fifoDrop := rfl
@[simp] theorem State.onStk_int (s : State) (f : StkSt → StkSt) : (s.onStk f).int = s.int := rfl
@[simp] theorem State.onStk_seed (s : State) (f : StkSt → StkSt) : (s.onStk f).seed = s.seed := rfl
@[simp] theorem State.onStk_job (s : State) (f : StkSt → StkSt) : (s.onStk f).job = s.job := rfl
@[simp] theorem State.onStk_pan (s : State) (f : StkSt → StkSt) : (s.onStk f).pan = s.pan := rfl
@[simp] theorem State.onStk_xtl (s : State) (f : StkSt → StkSt) : (s.onStk f).xtl = s.xtl := rfl
@[simp] theorem State.onStk_gate (s : State) (f : StkSt → StkSt) : (s.onStk f).gate = s.gate := rfl
@[simp] theorem State.onStk_slu (s : State) (f : StkSt → StkSt) : (s.onStk f).slu = s.slu := rfl
@[simp] theorem State.onStk_dieSlu (s : State) (f : StkSt → StkSt) : (s.onStk f).dieSlu = s.dieSlu := rfl
@[simp] theorem State.onStk_collRem (s : State) (f : StkSt → StkSt) : (s.onStk f).collRem = s.collRem := rfl
@[simp] theorem State.onStk_link (s : State) (f : StkSt → StkSt) : (s.onStk f).link = s.link := rfl
@[simp] theorem State.onStk_brn (s : State) (f : StkSt → StkSt) : (s.onStk f).brn = s.brn := rfl
@[simp] theorem State.onStk_pwr (s : State) (f : StkSt → StkSt) : (s.onStk f).pwr = s.pwr := rfl
@[simp] theorem State.onStk_mgmt (s : State) (f : StkSt → StkSt) : (s.onStk f).mgmt = s.mgmt := rfl
@[simp] theorem State.onStk_board (s : State) (f : StkSt → StkSt) : (s.onStk f).board = s.board := rfl

/-! `onPwr`. -/

@[simp] theorem State.onPwr_pending (s : State) (f : PwrSt → PwrSt) : (s.onPwr f).pending = s.pending := rfl
@[simp] theorem State.onPwr_free (s : State) (f : PwrSt → PwrSt) : (s.onPwr f).free = s.free := rfl
@[simp] theorem State.onPwr_regs (s : State) (f : PwrSt → PwrSt) : (s.onPwr f).regs = s.regs := rfl
@[simp] theorem State.onPwr_staged (s : State) (f : PwrSt → PwrSt) : (s.onPwr f).staged = s.staged := rfl
@[simp] theorem State.onPwr_ctr (s : State) (f : PwrSt → PwrSt) : (s.onPwr f).ctr = s.ctr := rfl
@[simp] theorem State.onPwr_shadow (s : State) (f : PwrSt → PwrSt) : (s.onPwr f).shadow = s.shadow := rfl
@[simp] theorem State.onPwr_edgeCtr (s : State) (f : PwrSt → PwrSt) : (s.onPwr f).edgeCtr = s.edgeCtr := rfl
@[simp] theorem State.onPwr_mem (s : State) (f : PwrSt → PwrSt) : (s.onPwr f).mem = s.mem := rfl
@[simp] theorem State.onPwr_poison (s : State) (f : PwrSt → PwrSt) : (s.onPwr f).poison = s.poison := rfl
@[simp] theorem State.onPwr_tide (s : State) (f : PwrSt → PwrSt) : (s.onPwr f).tide = s.tide := rfl
@[simp] theorem State.onPwr_core (s : State) (f : PwrSt → PwrSt) : (s.onPwr f).core = s.core := rfl
@[simp] theorem State.onPwr_disp (s : State) (f : PwrSt → PwrSt) : (s.onPwr f).disp = s.disp := rfl
@[simp] theorem State.onPwr_fifo (s : State) (f : PwrSt → PwrSt) : (s.onPwr f).fifo = s.fifo := rfl
@[simp] theorem State.onPwr_fifoDrop (s : State) (f : PwrSt → PwrSt) : (s.onPwr f).fifoDrop = s.fifoDrop := rfl
@[simp] theorem State.onPwr_stk (s : State) (f : PwrSt → PwrSt) : (s.onPwr f).stk = s.stk := rfl
@[simp] theorem State.onPwr_int (s : State) (f : PwrSt → PwrSt) : (s.onPwr f).int = s.int := rfl
@[simp] theorem State.onPwr_seed (s : State) (f : PwrSt → PwrSt) : (s.onPwr f).seed = s.seed := rfl
@[simp] theorem State.onPwr_job (s : State) (f : PwrSt → PwrSt) : (s.onPwr f).job = s.job := rfl
@[simp] theorem State.onPwr_pan (s : State) (f : PwrSt → PwrSt) : (s.onPwr f).pan = s.pan := rfl
@[simp] theorem State.onPwr_xtl (s : State) (f : PwrSt → PwrSt) : (s.onPwr f).xtl = s.xtl := rfl
@[simp] theorem State.onPwr_gate (s : State) (f : PwrSt → PwrSt) : (s.onPwr f).gate = s.gate := rfl
@[simp] theorem State.onPwr_slu (s : State) (f : PwrSt → PwrSt) : (s.onPwr f).slu = s.slu := rfl
@[simp] theorem State.onPwr_dieSlu (s : State) (f : PwrSt → PwrSt) : (s.onPwr f).dieSlu = s.dieSlu := rfl
@[simp] theorem State.onPwr_collRem (s : State) (f : PwrSt → PwrSt) : (s.onPwr f).collRem = s.collRem := rfl
@[simp] theorem State.onPwr_link (s : State) (f : PwrSt → PwrSt) : (s.onPwr f).link = s.link := rfl
@[simp] theorem State.onPwr_brn (s : State) (f : PwrSt → PwrSt) : (s.onPwr f).brn = s.brn := rfl
@[simp] theorem State.onPwr_mgmt (s : State) (f : PwrSt → PwrSt) : (s.onPwr f).mgmt = s.mgmt := rfl
@[simp] theorem State.onPwr_board (s : State) (f : PwrSt → PwrSt) : (s.onPwr f).board = s.board := rfl

/-! `onMgmt`. -/

@[simp] theorem State.onMgmt_pending (s : State) (f : MgmtSt → MgmtSt) : (s.onMgmt f).pending = s.pending := rfl
@[simp] theorem State.onMgmt_free (s : State) (f : MgmtSt → MgmtSt) : (s.onMgmt f).free = s.free := rfl
@[simp] theorem State.onMgmt_regs (s : State) (f : MgmtSt → MgmtSt) : (s.onMgmt f).regs = s.regs := rfl
@[simp] theorem State.onMgmt_staged (s : State) (f : MgmtSt → MgmtSt) : (s.onMgmt f).staged = s.staged := rfl
@[simp] theorem State.onMgmt_ctr (s : State) (f : MgmtSt → MgmtSt) : (s.onMgmt f).ctr = s.ctr := rfl
@[simp] theorem State.onMgmt_shadow (s : State) (f : MgmtSt → MgmtSt) : (s.onMgmt f).shadow = s.shadow := rfl
@[simp] theorem State.onMgmt_edgeCtr (s : State) (f : MgmtSt → MgmtSt) : (s.onMgmt f).edgeCtr = s.edgeCtr := rfl
@[simp] theorem State.onMgmt_mem (s : State) (f : MgmtSt → MgmtSt) : (s.onMgmt f).mem = s.mem := rfl
@[simp] theorem State.onMgmt_poison (s : State) (f : MgmtSt → MgmtSt) : (s.onMgmt f).poison = s.poison := rfl
@[simp] theorem State.onMgmt_tide (s : State) (f : MgmtSt → MgmtSt) : (s.onMgmt f).tide = s.tide := rfl
@[simp] theorem State.onMgmt_core (s : State) (f : MgmtSt → MgmtSt) : (s.onMgmt f).core = s.core := rfl
@[simp] theorem State.onMgmt_disp (s : State) (f : MgmtSt → MgmtSt) : (s.onMgmt f).disp = s.disp := rfl
@[simp] theorem State.onMgmt_fifo (s : State) (f : MgmtSt → MgmtSt) : (s.onMgmt f).fifo = s.fifo := rfl
@[simp] theorem State.onMgmt_fifoDrop (s : State) (f : MgmtSt → MgmtSt) : (s.onMgmt f).fifoDrop = s.fifoDrop := rfl
@[simp] theorem State.onMgmt_stk (s : State) (f : MgmtSt → MgmtSt) : (s.onMgmt f).stk = s.stk := rfl
@[simp] theorem State.onMgmt_int (s : State) (f : MgmtSt → MgmtSt) : (s.onMgmt f).int = s.int := rfl
@[simp] theorem State.onMgmt_seed (s : State) (f : MgmtSt → MgmtSt) : (s.onMgmt f).seed = s.seed := rfl
@[simp] theorem State.onMgmt_job (s : State) (f : MgmtSt → MgmtSt) : (s.onMgmt f).job = s.job := rfl
@[simp] theorem State.onMgmt_pan (s : State) (f : MgmtSt → MgmtSt) : (s.onMgmt f).pan = s.pan := rfl
@[simp] theorem State.onMgmt_xtl (s : State) (f : MgmtSt → MgmtSt) : (s.onMgmt f).xtl = s.xtl := rfl
@[simp] theorem State.onMgmt_gate (s : State) (f : MgmtSt → MgmtSt) : (s.onMgmt f).gate = s.gate := rfl
@[simp] theorem State.onMgmt_slu (s : State) (f : MgmtSt → MgmtSt) : (s.onMgmt f).slu = s.slu := rfl
@[simp] theorem State.onMgmt_dieSlu (s : State) (f : MgmtSt → MgmtSt) : (s.onMgmt f).dieSlu = s.dieSlu := rfl
@[simp] theorem State.onMgmt_collRem (s : State) (f : MgmtSt → MgmtSt) : (s.onMgmt f).collRem = s.collRem := rfl
@[simp] theorem State.onMgmt_link (s : State) (f : MgmtSt → MgmtSt) : (s.onMgmt f).link = s.link := rfl
@[simp] theorem State.onMgmt_brn (s : State) (f : MgmtSt → MgmtSt) : (s.onMgmt f).brn = s.brn := rfl
@[simp] theorem State.onMgmt_pwr (s : State) (f : MgmtSt → MgmtSt) : (s.onMgmt f).pwr = s.pwr := rfl
@[simp] theorem State.onMgmt_board (s : State) (f : MgmtSt → MgmtSt) : (s.onMgmt f).board = s.board := rfl

/-! `onBoard`. -/

@[simp] theorem State.onBoard_pending (s : State) (f : BoardSt → BoardSt) : (s.onBoard f).pending = s.pending := rfl
@[simp] theorem State.onBoard_free (s : State) (f : BoardSt → BoardSt) : (s.onBoard f).free = s.free := rfl
@[simp] theorem State.onBoard_regs (s : State) (f : BoardSt → BoardSt) : (s.onBoard f).regs = s.regs := rfl
@[simp] theorem State.onBoard_staged (s : State) (f : BoardSt → BoardSt) : (s.onBoard f).staged = s.staged := rfl
@[simp] theorem State.onBoard_ctr (s : State) (f : BoardSt → BoardSt) : (s.onBoard f).ctr = s.ctr := rfl
@[simp] theorem State.onBoard_shadow (s : State) (f : BoardSt → BoardSt) : (s.onBoard f).shadow = s.shadow := rfl
@[simp] theorem State.onBoard_edgeCtr (s : State) (f : BoardSt → BoardSt) : (s.onBoard f).edgeCtr = s.edgeCtr := rfl
@[simp] theorem State.onBoard_mem (s : State) (f : BoardSt → BoardSt) : (s.onBoard f).mem = s.mem := rfl
@[simp] theorem State.onBoard_poison (s : State) (f : BoardSt → BoardSt) : (s.onBoard f).poison = s.poison := rfl
@[simp] theorem State.onBoard_tide (s : State) (f : BoardSt → BoardSt) : (s.onBoard f).tide = s.tide := rfl
@[simp] theorem State.onBoard_core (s : State) (f : BoardSt → BoardSt) : (s.onBoard f).core = s.core := rfl
@[simp] theorem State.onBoard_disp (s : State) (f : BoardSt → BoardSt) : (s.onBoard f).disp = s.disp := rfl
@[simp] theorem State.onBoard_fifo (s : State) (f : BoardSt → BoardSt) : (s.onBoard f).fifo = s.fifo := rfl
@[simp] theorem State.onBoard_fifoDrop (s : State) (f : BoardSt → BoardSt) : (s.onBoard f).fifoDrop = s.fifoDrop := rfl
@[simp] theorem State.onBoard_stk (s : State) (f : BoardSt → BoardSt) : (s.onBoard f).stk = s.stk := rfl
@[simp] theorem State.onBoard_int (s : State) (f : BoardSt → BoardSt) : (s.onBoard f).int = s.int := rfl
@[simp] theorem State.onBoard_seed (s : State) (f : BoardSt → BoardSt) : (s.onBoard f).seed = s.seed := rfl
@[simp] theorem State.onBoard_job (s : State) (f : BoardSt → BoardSt) : (s.onBoard f).job = s.job := rfl
@[simp] theorem State.onBoard_pan (s : State) (f : BoardSt → BoardSt) : (s.onBoard f).pan = s.pan := rfl
@[simp] theorem State.onBoard_xtl (s : State) (f : BoardSt → BoardSt) : (s.onBoard f).xtl = s.xtl := rfl
@[simp] theorem State.onBoard_gate (s : State) (f : BoardSt → BoardSt) : (s.onBoard f).gate = s.gate := rfl
@[simp] theorem State.onBoard_slu (s : State) (f : BoardSt → BoardSt) : (s.onBoard f).slu = s.slu := rfl
@[simp] theorem State.onBoard_dieSlu (s : State) (f : BoardSt → BoardSt) : (s.onBoard f).dieSlu = s.dieSlu := rfl
@[simp] theorem State.onBoard_collRem (s : State) (f : BoardSt → BoardSt) : (s.onBoard f).collRem = s.collRem := rfl
@[simp] theorem State.onBoard_link (s : State) (f : BoardSt → BoardSt) : (s.onBoard f).link = s.link := rfl
@[simp] theorem State.onBoard_brn (s : State) (f : BoardSt → BoardSt) : (s.onBoard f).brn = s.brn := rfl
@[simp] theorem State.onBoard_pwr (s : State) (f : BoardSt → BoardSt) : (s.onBoard f).pwr = s.pwr := rfl
@[simp] theorem State.onBoard_mgmt (s : State) (f : BoardSt → BoardSt) : (s.onBoard f).mgmt = s.mgmt := rfl

/-! `raise`. -/

@[simp] theorem State.raise_pending (s : State) (u : Src) (code : Nat) (p : BitVec 64) : (s.raise u code p).pending = s.pending := by rw [State.raise_eq]
@[simp] theorem State.raise_free (s : State) (u : Src) (code : Nat) (p : BitVec 64) : (s.raise u code p).free = s.free := by rw [State.raise_eq]
@[simp] theorem State.raise_regs (s : State) (u : Src) (code : Nat) (p : BitVec 64) : (s.raise u code p).regs = s.regs := by rw [State.raise_eq]
@[simp] theorem State.raise_staged (s : State) (u : Src) (code : Nat) (p : BitVec 64) : (s.raise u code p).staged = s.staged := by rw [State.raise_eq]
@[simp] theorem State.raise_shadow (s : State) (u : Src) (code : Nat) (p : BitVec 64) : (s.raise u code p).shadow = s.shadow := by rw [State.raise_eq]
@[simp] theorem State.raise_edgeCtr (s : State) (u : Src) (code : Nat) (p : BitVec 64) : (s.raise u code p).edgeCtr = s.edgeCtr := by rw [State.raise_eq]
@[simp] theorem State.raise_mem (s : State) (u : Src) (code : Nat) (p : BitVec 64) : (s.raise u code p).mem = s.mem := by rw [State.raise_eq]
@[simp] theorem State.raise_poison (s : State) (u : Src) (code : Nat) (p : BitVec 64) : (s.raise u code p).poison = s.poison := by rw [State.raise_eq]
@[simp] theorem State.raise_tide (s : State) (u : Src) (code : Nat) (p : BitVec 64) : (s.raise u code p).tide = s.tide := by rw [State.raise_eq]
@[simp] theorem State.raise_core (s : State) (u : Src) (code : Nat) (p : BitVec 64) : (s.raise u code p).core = s.core := by rw [State.raise_eq]
@[simp] theorem State.raise_disp (s : State) (u : Src) (code : Nat) (p : BitVec 64) : (s.raise u code p).disp = s.disp := by rw [State.raise_eq]
@[simp] theorem State.raise_stk (s : State) (u : Src) (code : Nat) (p : BitVec 64) : (s.raise u code p).stk = s.stk := by rw [State.raise_eq]
@[simp] theorem State.raise_int (s : State) (u : Src) (code : Nat) (p : BitVec 64) : (s.raise u code p).int = s.int := by rw [State.raise_eq]
@[simp] theorem State.raise_seed (s : State) (u : Src) (code : Nat) (p : BitVec 64) : (s.raise u code p).seed = s.seed := by rw [State.raise_eq]
@[simp] theorem State.raise_job (s : State) (u : Src) (code : Nat) (p : BitVec 64) : (s.raise u code p).job = s.job := by rw [State.raise_eq]
@[simp] theorem State.raise_pan (s : State) (u : Src) (code : Nat) (p : BitVec 64) : (s.raise u code p).pan = s.pan := by rw [State.raise_eq]
@[simp] theorem State.raise_xtl (s : State) (u : Src) (code : Nat) (p : BitVec 64) : (s.raise u code p).xtl = s.xtl := by rw [State.raise_eq]
@[simp] theorem State.raise_gate (s : State) (u : Src) (code : Nat) (p : BitVec 64) : (s.raise u code p).gate = s.gate := by rw [State.raise_eq]
@[simp] theorem State.raise_slu (s : State) (u : Src) (code : Nat) (p : BitVec 64) : (s.raise u code p).slu = s.slu := by rw [State.raise_eq]
@[simp] theorem State.raise_dieSlu (s : State) (u : Src) (code : Nat) (p : BitVec 64) : (s.raise u code p).dieSlu = s.dieSlu := by rw [State.raise_eq]
@[simp] theorem State.raise_collRem (s : State) (u : Src) (code : Nat) (p : BitVec 64) : (s.raise u code p).collRem = s.collRem := by rw [State.raise_eq]
@[simp] theorem State.raise_link (s : State) (u : Src) (code : Nat) (p : BitVec 64) : (s.raise u code p).link = s.link := by rw [State.raise_eq]
@[simp] theorem State.raise_brn (s : State) (u : Src) (code : Nat) (p : BitVec 64) : (s.raise u code p).brn = s.brn := by rw [State.raise_eq]
@[simp] theorem State.raise_pwr (s : State) (u : Src) (code : Nat) (p : BitVec 64) : (s.raise u code p).pwr = s.pwr := by rw [State.raise_eq]
@[simp] theorem State.raise_mgmt (s : State) (u : Src) (code : Nat) (p : BitVec 64) : (s.raise u code p).mgmt = s.mgmt := by rw [State.raise_eq]
@[simp] theorem State.raise_board (s : State) (u : Src) (code : Nat) (p : BitVec 64) : (s.raise u code p).board = s.board := by rw [State.raise_eq]

/-! `raiseMod`. -/

@[simp] theorem State.raiseMod_pending (s : State) (cls code : Nat) (p : BitVec 64) (part : Nat) : (s.raiseMod cls code p part).pending = s.pending := by simp [State.raiseMod]
@[simp] theorem State.raiseMod_free (s : State) (cls code : Nat) (p : BitVec 64) (part : Nat) : (s.raiseMod cls code p part).free = s.free := by simp [State.raiseMod]
@[simp] theorem State.raiseMod_regs (s : State) (cls code : Nat) (p : BitVec 64) (part : Nat) : (s.raiseMod cls code p part).regs = s.regs := by simp [State.raiseMod]
@[simp] theorem State.raiseMod_staged (s : State) (cls code : Nat) (p : BitVec 64) (part : Nat) : (s.raiseMod cls code p part).staged = s.staged := by simp [State.raiseMod]
@[simp] theorem State.raiseMod_shadow (s : State) (cls code : Nat) (p : BitVec 64) (part : Nat) : (s.raiseMod cls code p part).shadow = s.shadow := by simp [State.raiseMod]
@[simp] theorem State.raiseMod_edgeCtr (s : State) (cls code : Nat) (p : BitVec 64) (part : Nat) : (s.raiseMod cls code p part).edgeCtr = s.edgeCtr := by simp [State.raiseMod]
@[simp] theorem State.raiseMod_mem (s : State) (cls code : Nat) (p : BitVec 64) (part : Nat) : (s.raiseMod cls code p part).mem = s.mem := by simp [State.raiseMod]
@[simp] theorem State.raiseMod_poison (s : State) (cls code : Nat) (p : BitVec 64) (part : Nat) : (s.raiseMod cls code p part).poison = s.poison := by simp [State.raiseMod]
@[simp] theorem State.raiseMod_tide (s : State) (cls code : Nat) (p : BitVec 64) (part : Nat) : (s.raiseMod cls code p part).tide = s.tide := by simp [State.raiseMod]
@[simp] theorem State.raiseMod_core (s : State) (cls code : Nat) (p : BitVec 64) (part : Nat) : (s.raiseMod cls code p part).core = s.core := by simp [State.raiseMod]
@[simp] theorem State.raiseMod_disp (s : State) (cls code : Nat) (p : BitVec 64) (part : Nat) : (s.raiseMod cls code p part).disp = s.disp := by simp [State.raiseMod]
@[simp] theorem State.raiseMod_stk (s : State) (cls code : Nat) (p : BitVec 64) (part : Nat) : (s.raiseMod cls code p part).stk = s.stk := by simp [State.raiseMod]
@[simp] theorem State.raiseMod_int (s : State) (cls code : Nat) (p : BitVec 64) (part : Nat) : (s.raiseMod cls code p part).int = s.int := by simp [State.raiseMod]
@[simp] theorem State.raiseMod_seed (s : State) (cls code : Nat) (p : BitVec 64) (part : Nat) : (s.raiseMod cls code p part).seed = s.seed := by simp [State.raiseMod]
@[simp] theorem State.raiseMod_job (s : State) (cls code : Nat) (p : BitVec 64) (part : Nat) : (s.raiseMod cls code p part).job = s.job := by simp [State.raiseMod]
@[simp] theorem State.raiseMod_pan (s : State) (cls code : Nat) (p : BitVec 64) (part : Nat) : (s.raiseMod cls code p part).pan = s.pan := by simp [State.raiseMod]
@[simp] theorem State.raiseMod_xtl (s : State) (cls code : Nat) (p : BitVec 64) (part : Nat) : (s.raiseMod cls code p part).xtl = s.xtl := by simp [State.raiseMod]
@[simp] theorem State.raiseMod_gate (s : State) (cls code : Nat) (p : BitVec 64) (part : Nat) : (s.raiseMod cls code p part).gate = s.gate := by simp [State.raiseMod]
@[simp] theorem State.raiseMod_slu (s : State) (cls code : Nat) (p : BitVec 64) (part : Nat) : (s.raiseMod cls code p part).slu = s.slu := by simp [State.raiseMod]
@[simp] theorem State.raiseMod_dieSlu (s : State) (cls code : Nat) (p : BitVec 64) (part : Nat) : (s.raiseMod cls code p part).dieSlu = s.dieSlu := by simp [State.raiseMod]
@[simp] theorem State.raiseMod_collRem (s : State) (cls code : Nat) (p : BitVec 64) (part : Nat) : (s.raiseMod cls code p part).collRem = s.collRem := by simp [State.raiseMod]
@[simp] theorem State.raiseMod_link (s : State) (cls code : Nat) (p : BitVec 64) (part : Nat) : (s.raiseMod cls code p part).link = s.link := by simp [State.raiseMod]
@[simp] theorem State.raiseMod_brn (s : State) (cls code : Nat) (p : BitVec 64) (part : Nat) : (s.raiseMod cls code p part).brn = s.brn := by simp [State.raiseMod]
@[simp] theorem State.raiseMod_pwr (s : State) (cls code : Nat) (p : BitVec 64) (part : Nat) : (s.raiseMod cls code p part).pwr = s.pwr := by simp [State.raiseMod]
@[simp] theorem State.raiseMod_mgmt (s : State) (cls code : Nat) (p : BitVec 64) (part : Nat) : (s.raiseMod cls code p part).mgmt = s.mgmt := by simp [State.raiseMod]
@[simp] theorem State.raiseMod_board (s : State) (cls code : Nat) (p : BitVec 64) (part : Nat) : (s.raiseMod cls code p part).board = s.board := by simp [State.raiseMod]

/-! `alert`. -/

@[simp] theorem State.alert_pending (s : State) (b : Fin 5) : (s.alert b).pending = s.pending := by rw [State.alert_eq]
@[simp] theorem State.alert_free (s : State) (b : Fin 5) : (s.alert b).free = s.free := by rw [State.alert_eq]
@[simp] theorem State.alert_regs (s : State) (b : Fin 5) : (s.alert b).regs = s.regs := by rw [State.alert_eq]
@[simp] theorem State.alert_staged (s : State) (b : Fin 5) : (s.alert b).staged = s.staged := by rw [State.alert_eq]
@[simp] theorem State.alert_ctr (s : State) (b : Fin 5) : (s.alert b).ctr = s.ctr := by rw [State.alert_eq]
@[simp] theorem State.alert_shadow (s : State) (b : Fin 5) : (s.alert b).shadow = s.shadow := by rw [State.alert_eq]
@[simp] theorem State.alert_edgeCtr (s : State) (b : Fin 5) : (s.alert b).edgeCtr = s.edgeCtr := by rw [State.alert_eq]
@[simp] theorem State.alert_mem (s : State) (b : Fin 5) : (s.alert b).mem = s.mem := by rw [State.alert_eq]
@[simp] theorem State.alert_poison (s : State) (b : Fin 5) : (s.alert b).poison = s.poison := by rw [State.alert_eq]
@[simp] theorem State.alert_tide (s : State) (b : Fin 5) : (s.alert b).tide = s.tide := by rw [State.alert_eq]
@[simp] theorem State.alert_core (s : State) (b : Fin 5) : (s.alert b).core = s.core := by rw [State.alert_eq]
@[simp] theorem State.alert_disp (s : State) (b : Fin 5) : (s.alert b).disp = s.disp := by rw [State.alert_eq]
@[simp] theorem State.alert_fifo (s : State) (b : Fin 5) : (s.alert b).fifo = s.fifo := by rw [State.alert_eq]
@[simp] theorem State.alert_fifoDrop (s : State) (b : Fin 5) : (s.alert b).fifoDrop = s.fifoDrop := by rw [State.alert_eq]
@[simp] theorem State.alert_stk (s : State) (b : Fin 5) : (s.alert b).stk = s.stk := by rw [State.alert_eq]
@[simp] theorem State.alert_int (s : State) (b : Fin 5) : (s.alert b).int = s.int := by rw [State.alert_eq]
@[simp] theorem State.alert_seed (s : State) (b : Fin 5) : (s.alert b).seed = s.seed := by rw [State.alert_eq]
@[simp] theorem State.alert_job (s : State) (b : Fin 5) : (s.alert b).job = s.job := by rw [State.alert_eq]
@[simp] theorem State.alert_pan (s : State) (b : Fin 5) : (s.alert b).pan = s.pan := by rw [State.alert_eq]
@[simp] theorem State.alert_xtl (s : State) (b : Fin 5) : (s.alert b).xtl = s.xtl := by rw [State.alert_eq]
@[simp] theorem State.alert_gate (s : State) (b : Fin 5) : (s.alert b).gate = s.gate := by rw [State.alert_eq]
@[simp] theorem State.alert_slu (s : State) (b : Fin 5) : (s.alert b).slu = s.slu := by rw [State.alert_eq]
@[simp] theorem State.alert_dieSlu (s : State) (b : Fin 5) : (s.alert b).dieSlu = s.dieSlu := by rw [State.alert_eq]
@[simp] theorem State.alert_collRem (s : State) (b : Fin 5) : (s.alert b).collRem = s.collRem := by rw [State.alert_eq]
@[simp] theorem State.alert_link (s : State) (b : Fin 5) : (s.alert b).link = s.link := by rw [State.alert_eq]
@[simp] theorem State.alert_brn (s : State) (b : Fin 5) : (s.alert b).brn = s.brn := by rw [State.alert_eq]
@[simp] theorem State.alert_pwr (s : State) (b : Fin 5) : (s.alert b).pwr = s.pwr := by rw [State.alert_eq]
@[simp] theorem State.alert_mgmt (s : State) (b : Fin 5) : (s.alert b).mgmt = s.mgmt := by rw [State.alert_eq]

/-! `wrBytes`. -/

@[simp] theorem State.wrBytes_pending (s : State) (pa : Nat) (l : List Byte) : (s.wrBytes pa l).pending = s.pending := by
  induction l generalizing s pa with
  | nil => rfl
  | cons b r ih => exact ih (s.wrByte pa b) (pa + 1)
@[simp] theorem State.wrBytes_free (s : State) (pa : Nat) (l : List Byte) : (s.wrBytes pa l).free = s.free := by
  induction l generalizing s pa with
  | nil => rfl
  | cons b r ih => exact ih (s.wrByte pa b) (pa + 1)
@[simp] theorem State.wrBytes_regs (s : State) (pa : Nat) (l : List Byte) : (s.wrBytes pa l).regs = s.regs := by
  induction l generalizing s pa with
  | nil => rfl
  | cons b r ih => exact ih (s.wrByte pa b) (pa + 1)
@[simp] theorem State.wrBytes_staged (s : State) (pa : Nat) (l : List Byte) : (s.wrBytes pa l).staged = s.staged := by
  induction l generalizing s pa with
  | nil => rfl
  | cons b r ih => exact ih (s.wrByte pa b) (pa + 1)
@[simp] theorem State.wrBytes_ctr (s : State) (pa : Nat) (l : List Byte) : (s.wrBytes pa l).ctr = s.ctr := by
  induction l generalizing s pa with
  | nil => rfl
  | cons b r ih => exact ih (s.wrByte pa b) (pa + 1)
@[simp] theorem State.wrBytes_shadow (s : State) (pa : Nat) (l : List Byte) : (s.wrBytes pa l).shadow = s.shadow := by
  induction l generalizing s pa with
  | nil => rfl
  | cons b r ih => exact ih (s.wrByte pa b) (pa + 1)
@[simp] theorem State.wrBytes_edgeCtr (s : State) (pa : Nat) (l : List Byte) : (s.wrBytes pa l).edgeCtr = s.edgeCtr := by
  induction l generalizing s pa with
  | nil => rfl
  | cons b r ih => exact ih (s.wrByte pa b) (pa + 1)
@[simp] theorem State.wrBytes_poison (s : State) (pa : Nat) (l : List Byte) : (s.wrBytes pa l).poison = s.poison := by
  induction l generalizing s pa with
  | nil => rfl
  | cons b r ih => exact ih (s.wrByte pa b) (pa + 1)
@[simp] theorem State.wrBytes_tide (s : State) (pa : Nat) (l : List Byte) : (s.wrBytes pa l).tide = s.tide := by
  induction l generalizing s pa with
  | nil => rfl
  | cons b r ih => exact ih (s.wrByte pa b) (pa + 1)
@[simp] theorem State.wrBytes_core (s : State) (pa : Nat) (l : List Byte) : (s.wrBytes pa l).core = s.core := by
  induction l generalizing s pa with
  | nil => rfl
  | cons b r ih => exact ih (s.wrByte pa b) (pa + 1)
@[simp] theorem State.wrBytes_disp (s : State) (pa : Nat) (l : List Byte) : (s.wrBytes pa l).disp = s.disp := by
  induction l generalizing s pa with
  | nil => rfl
  | cons b r ih => exact ih (s.wrByte pa b) (pa + 1)
@[simp] theorem State.wrBytes_fifo (s : State) (pa : Nat) (l : List Byte) : (s.wrBytes pa l).fifo = s.fifo := by
  induction l generalizing s pa with
  | nil => rfl
  | cons b r ih => exact ih (s.wrByte pa b) (pa + 1)
@[simp] theorem State.wrBytes_fifoDrop (s : State) (pa : Nat) (l : List Byte) : (s.wrBytes pa l).fifoDrop = s.fifoDrop := by
  induction l generalizing s pa with
  | nil => rfl
  | cons b r ih => exact ih (s.wrByte pa b) (pa + 1)
@[simp] theorem State.wrBytes_stk (s : State) (pa : Nat) (l : List Byte) : (s.wrBytes pa l).stk = s.stk := by
  induction l generalizing s pa with
  | nil => rfl
  | cons b r ih => exact ih (s.wrByte pa b) (pa + 1)
@[simp] theorem State.wrBytes_int (s : State) (pa : Nat) (l : List Byte) : (s.wrBytes pa l).int = s.int := by
  induction l generalizing s pa with
  | nil => rfl
  | cons b r ih => exact ih (s.wrByte pa b) (pa + 1)
@[simp] theorem State.wrBytes_seed (s : State) (pa : Nat) (l : List Byte) : (s.wrBytes pa l).seed = s.seed := by
  induction l generalizing s pa with
  | nil => rfl
  | cons b r ih => exact ih (s.wrByte pa b) (pa + 1)
@[simp] theorem State.wrBytes_job (s : State) (pa : Nat) (l : List Byte) : (s.wrBytes pa l).job = s.job := by
  induction l generalizing s pa with
  | nil => rfl
  | cons b r ih => exact ih (s.wrByte pa b) (pa + 1)
@[simp] theorem State.wrBytes_pan (s : State) (pa : Nat) (l : List Byte) : (s.wrBytes pa l).pan = s.pan := by
  induction l generalizing s pa with
  | nil => rfl
  | cons b r ih => exact ih (s.wrByte pa b) (pa + 1)
@[simp] theorem State.wrBytes_xtl (s : State) (pa : Nat) (l : List Byte) : (s.wrBytes pa l).xtl = s.xtl := by
  induction l generalizing s pa with
  | nil => rfl
  | cons b r ih => exact ih (s.wrByte pa b) (pa + 1)
@[simp] theorem State.wrBytes_gate (s : State) (pa : Nat) (l : List Byte) : (s.wrBytes pa l).gate = s.gate := by
  induction l generalizing s pa with
  | nil => rfl
  | cons b r ih => exact ih (s.wrByte pa b) (pa + 1)
@[simp] theorem State.wrBytes_slu (s : State) (pa : Nat) (l : List Byte) : (s.wrBytes pa l).slu = s.slu := by
  induction l generalizing s pa with
  | nil => rfl
  | cons b r ih => exact ih (s.wrByte pa b) (pa + 1)
@[simp] theorem State.wrBytes_dieSlu (s : State) (pa : Nat) (l : List Byte) : (s.wrBytes pa l).dieSlu = s.dieSlu := by
  induction l generalizing s pa with
  | nil => rfl
  | cons b r ih => exact ih (s.wrByte pa b) (pa + 1)
@[simp] theorem State.wrBytes_collRem (s : State) (pa : Nat) (l : List Byte) : (s.wrBytes pa l).collRem = s.collRem := by
  induction l generalizing s pa with
  | nil => rfl
  | cons b r ih => exact ih (s.wrByte pa b) (pa + 1)
@[simp] theorem State.wrBytes_link (s : State) (pa : Nat) (l : List Byte) : (s.wrBytes pa l).link = s.link := by
  induction l generalizing s pa with
  | nil => rfl
  | cons b r ih => exact ih (s.wrByte pa b) (pa + 1)
@[simp] theorem State.wrBytes_brn (s : State) (pa : Nat) (l : List Byte) : (s.wrBytes pa l).brn = s.brn := by
  induction l generalizing s pa with
  | nil => rfl
  | cons b r ih => exact ih (s.wrByte pa b) (pa + 1)
@[simp] theorem State.wrBytes_pwr (s : State) (pa : Nat) (l : List Byte) : (s.wrBytes pa l).pwr = s.pwr := by
  induction l generalizing s pa with
  | nil => rfl
  | cons b r ih => exact ih (s.wrByte pa b) (pa + 1)
@[simp] theorem State.wrBytes_mgmt (s : State) (pa : Nat) (l : List Byte) : (s.wrBytes pa l).mgmt = s.mgmt := by
  induction l generalizing s pa with
  | nil => rfl
  | cons b r ih => exact ih (s.wrByte pa b) (pa + 1)
@[simp] theorem State.wrBytes_board (s : State) (pa : Nat) (l : List Byte) : (s.wrBytes pa l).board = s.board := by
  induction l generalizing s pa with
  | nil => rfl
  | cons b r ih => exact ih (s.wrByte pa b) (pa + 1)

/-! `unpoison`. -/

@[simp] theorem State.unpoison_pending (s : State) (pa n : Nat) : (s.unpoison pa n).pending = s.pending := rfl
@[simp] theorem State.unpoison_free (s : State) (pa n : Nat) : (s.unpoison pa n).free = s.free := rfl
@[simp] theorem State.unpoison_regs (s : State) (pa n : Nat) : (s.unpoison pa n).regs = s.regs := rfl
@[simp] theorem State.unpoison_staged (s : State) (pa n : Nat) : (s.unpoison pa n).staged = s.staged := rfl
@[simp] theorem State.unpoison_ctr (s : State) (pa n : Nat) : (s.unpoison pa n).ctr = s.ctr := rfl
@[simp] theorem State.unpoison_shadow (s : State) (pa n : Nat) : (s.unpoison pa n).shadow = s.shadow := rfl
@[simp] theorem State.unpoison_edgeCtr (s : State) (pa n : Nat) : (s.unpoison pa n).edgeCtr = s.edgeCtr := rfl
@[simp] theorem State.unpoison_mem (s : State) (pa n : Nat) : (s.unpoison pa n).mem = s.mem := rfl
@[simp] theorem State.unpoison_tide (s : State) (pa n : Nat) : (s.unpoison pa n).tide = s.tide := rfl
@[simp] theorem State.unpoison_core (s : State) (pa n : Nat) : (s.unpoison pa n).core = s.core := rfl
@[simp] theorem State.unpoison_disp (s : State) (pa n : Nat) : (s.unpoison pa n).disp = s.disp := rfl
@[simp] theorem State.unpoison_fifo (s : State) (pa n : Nat) : (s.unpoison pa n).fifo = s.fifo := rfl
@[simp] theorem State.unpoison_fifoDrop (s : State) (pa n : Nat) : (s.unpoison pa n).fifoDrop = s.fifoDrop := rfl
@[simp] theorem State.unpoison_stk (s : State) (pa n : Nat) : (s.unpoison pa n).stk = s.stk := rfl
@[simp] theorem State.unpoison_int (s : State) (pa n : Nat) : (s.unpoison pa n).int = s.int := rfl
@[simp] theorem State.unpoison_seed (s : State) (pa n : Nat) : (s.unpoison pa n).seed = s.seed := rfl
@[simp] theorem State.unpoison_job (s : State) (pa n : Nat) : (s.unpoison pa n).job = s.job := rfl
@[simp] theorem State.unpoison_pan (s : State) (pa n : Nat) : (s.unpoison pa n).pan = s.pan := rfl
@[simp] theorem State.unpoison_xtl (s : State) (pa n : Nat) : (s.unpoison pa n).xtl = s.xtl := rfl
@[simp] theorem State.unpoison_gate (s : State) (pa n : Nat) : (s.unpoison pa n).gate = s.gate := rfl
@[simp] theorem State.unpoison_slu (s : State) (pa n : Nat) : (s.unpoison pa n).slu = s.slu := rfl
@[simp] theorem State.unpoison_dieSlu (s : State) (pa n : Nat) : (s.unpoison pa n).dieSlu = s.dieSlu := rfl
@[simp] theorem State.unpoison_collRem (s : State) (pa n : Nat) : (s.unpoison pa n).collRem = s.collRem := rfl
@[simp] theorem State.unpoison_link (s : State) (pa n : Nat) : (s.unpoison pa n).link = s.link := rfl
@[simp] theorem State.unpoison_brn (s : State) (pa n : Nat) : (s.unpoison pa n).brn = s.brn := rfl
@[simp] theorem State.unpoison_pwr (s : State) (pa n : Nat) : (s.unpoison pa n).pwr = s.pwr := rfl
@[simp] theorem State.unpoison_mgmt (s : State) (pa n : Nat) : (s.unpoison pa n).mgmt = s.mgmt := rfl
@[simp] theorem State.unpoison_board (s : State) (pa n : Nat) : (s.unpoison pa n).board = s.board := rfl

/-! `store`. -/

@[simp] theorem State.store_pending (s : State) (pa : Nat) (l : List Byte) : (s.store pa l).pending = s.pending := by unfold State.store; split <;> simp
@[simp] theorem State.store_free (s : State) (pa : Nat) (l : List Byte) : (s.store pa l).free = s.free := by unfold State.store; split <;> simp
@[simp] theorem State.store_regs (s : State) (pa : Nat) (l : List Byte) : (s.store pa l).regs = s.regs := by unfold State.store; split <;> simp
@[simp] theorem State.store_staged (s : State) (pa : Nat) (l : List Byte) : (s.store pa l).staged = s.staged := by unfold State.store; split <;> simp
@[simp] theorem State.store_ctr (s : State) (pa : Nat) (l : List Byte) : (s.store pa l).ctr = s.ctr := by unfold State.store; split <;> simp
@[simp] theorem State.store_shadow (s : State) (pa : Nat) (l : List Byte) : (s.store pa l).shadow = s.shadow := by unfold State.store; split <;> simp
@[simp] theorem State.store_edgeCtr (s : State) (pa : Nat) (l : List Byte) : (s.store pa l).edgeCtr = s.edgeCtr := by unfold State.store; split <;> simp
@[simp] theorem State.store_tide (s : State) (pa : Nat) (l : List Byte) : (s.store pa l).tide = s.tide := by unfold State.store; split <;> simp
@[simp] theorem State.store_core (s : State) (pa : Nat) (l : List Byte) : (s.store pa l).core = s.core := by unfold State.store; split <;> simp
@[simp] theorem State.store_disp (s : State) (pa : Nat) (l : List Byte) : (s.store pa l).disp = s.disp := by unfold State.store; split <;> simp
@[simp] theorem State.store_fifo (s : State) (pa : Nat) (l : List Byte) : (s.store pa l).fifo = s.fifo := by unfold State.store; split <;> simp
@[simp] theorem State.store_fifoDrop (s : State) (pa : Nat) (l : List Byte) : (s.store pa l).fifoDrop = s.fifoDrop := by unfold State.store; split <;> simp
@[simp] theorem State.store_stk (s : State) (pa : Nat) (l : List Byte) : (s.store pa l).stk = s.stk := by unfold State.store; split <;> simp
@[simp] theorem State.store_int (s : State) (pa : Nat) (l : List Byte) : (s.store pa l).int = s.int := by unfold State.store; split <;> simp
@[simp] theorem State.store_seed (s : State) (pa : Nat) (l : List Byte) : (s.store pa l).seed = s.seed := by unfold State.store; split <;> simp
@[simp] theorem State.store_job (s : State) (pa : Nat) (l : List Byte) : (s.store pa l).job = s.job := by unfold State.store; split <;> simp
@[simp] theorem State.store_pan (s : State) (pa : Nat) (l : List Byte) : (s.store pa l).pan = s.pan := by unfold State.store; split <;> simp
@[simp] theorem State.store_xtl (s : State) (pa : Nat) (l : List Byte) : (s.store pa l).xtl = s.xtl := by unfold State.store; split <;> simp
@[simp] theorem State.store_gate (s : State) (pa : Nat) (l : List Byte) : (s.store pa l).gate = s.gate := by unfold State.store; split <;> simp
@[simp] theorem State.store_slu (s : State) (pa : Nat) (l : List Byte) : (s.store pa l).slu = s.slu := by unfold State.store; split <;> simp
@[simp] theorem State.store_dieSlu (s : State) (pa : Nat) (l : List Byte) : (s.store pa l).dieSlu = s.dieSlu := by unfold State.store; split <;> simp
@[simp] theorem State.store_collRem (s : State) (pa : Nat) (l : List Byte) : (s.store pa l).collRem = s.collRem := by unfold State.store; split <;> simp
@[simp] theorem State.store_link (s : State) (pa : Nat) (l : List Byte) : (s.store pa l).link = s.link := by unfold State.store; split <;> simp
@[simp] theorem State.store_brn (s : State) (pa : Nat) (l : List Byte) : (s.store pa l).brn = s.brn := by unfold State.store; split <;> simp
@[simp] theorem State.store_pwr (s : State) (pa : Nat) (l : List Byte) : (s.store pa l).pwr = s.pwr := by unfold State.store; split <;> simp
@[simp] theorem State.store_mgmt (s : State) (pa : Nat) (l : List Byte) : (s.store pa l).mgmt = s.mgmt := by unfold State.store; split <;> simp
@[simp] theorem State.store_board (s : State) (pa : Nat) (l : List Byte) : (s.store pa l).board = s.board := by unfold State.store; split <;> simp

/-! What is read after a write. -/

@[simp] theorem State.setReg_regs (s : State) (off : Nat) (v : BitVec 64) :
    (s.setReg off v).regs = mapPut regReset off v s.regs := rfl
@[simp] theorem State.onCore_core (s : State) (c : CoreIx) (f : CoreSt → CoreSt) :
    (s.onCore c f).core = s.core.set c (f s.core[c]) := rfl
@[simp] theorem State.setCore_core (s : State) (c : CoreIx) (k : CoreSt) : (s.setCore c k).core = s.core.set c k := rfl
@[simp] theorem State.onMgmt_mgmt (s : State) (f : MgmtSt → MgmtSt) : (s.onMgmt f).mgmt = f s.mgmt := rfl
@[simp] theorem State.onBoard_board (s : State) (f : BoardSt → BoardSt) : (s.onBoard f).board = f s.board := rfl
@[simp] theorem State.onPwr_pwr (s : State) (f : PwrSt → PwrSt) : (s.onPwr f).pwr = f s.pwr := rfl
@[simp] theorem State.onStk_stk (s : State) (f : StkSt → StkSt) : (s.onStk f).stk = f s.stk := rfl
@[simp] theorem State.stage_staged (s : State) (off : Nat) (v : BitVec 64) :
    (s.stage off v).staged = assocPut off v s.staged := rfl

/-- A canonical state has canonical registers. -/
theorem State.wf_regs {s : State} (h : s.wf = true) : mapWf regReset s.regs = true := by
  simp only [State.wf, Bool.and_eq_true] at h; exact h.1.1.1.1.1.2

theorem State.wf_mem {s : State} (h : s.wf = true) : Memory.wf s.mem = true := by
  simp only [State.wf, Bool.and_eq_true] at h; exact h.1.1.1.1.1.1

theorem State.wf_ctr {s : State} (h : s.wf = true) : mapWf zero64 s.ctr = true := by
  simp only [State.wf, Bool.and_eq_true] at h; exact h.1.1.1.1.2

/-- A register reads back what was written; the others stand. -/
theorem State.reg_setReg {s : State} (h : mapWf regReset s.regs = true) (off : Nat) (v : BitVec 64) (x : Nat) :
    (s.setReg off v).reg x = if x = off then v else s.reg x := mapGet_put h off v x

theorem State.reg_setReg_same {s : State} (h : mapWf regReset s.regs = true) (off : Nat) (v : BitVec 64) :
    (s.setReg off v).reg off = v := mapGet_put_same h off v

theorem State.reg_setReg_other {s : State} (h : mapWf regReset s.regs = true) {off x : Nat} (v : BitVec 64) (hx : x ≠ off) :
    (s.setReg off v).reg x = s.reg x := mapGet_put_other h v hx

theorem State.reg_setFld {s : State} (h : mapWf regReset s.regs = true) (off hi lo n x : Nat) :
    (s.setFld off hi lo n).reg x = if x = off then setBits (s.reg off) hi lo n else s.reg x := State.reg_setReg h off _ x

/-- What reads registers alone is the same where the registers are. -/
theorem State.reg_congr {s t : State} (h : t.regs = s.regs) (x : Nat) : t.reg x = s.reg x := by
  unfold State.reg; rw [h]

theorem State.fld_congr {s t : State} (h : t.regs = s.regs) (off hi lo : Nat) : t.fld off hi lo = s.fld off hi lo := by
  unfold State.fld; rw [State.reg_congr h]

@[simp] theorem State.onCore_reg (s : State) (c : CoreIx) (f : CoreSt → CoreSt) (x : Nat) : (s.onCore c f).reg x = s.reg x := rfl
@[simp] theorem State.onMgmt_reg (s : State) (f : MgmtSt → MgmtSt) (x : Nat) : (s.onMgmt f).reg x = s.reg x := rfl
@[simp] theorem State.onBoard_reg (s : State) (f : BoardSt → BoardSt) (x : Nat) : (s.onBoard f).reg x = s.reg x := rfl
@[simp] theorem State.count_reg (s : State) (o n x : Nat) : (s.count o n).reg x = s.reg x := rfl
@[simp] theorem State.raise_reg (s : State) (u : Src) (code : Nat) (p : BitVec 64) (x : Nat) :
    (s.raise u code p).reg x = s.reg x := State.reg_congr (by simp) x
@[simp] theorem State.raiseMod_reg (s : State) (cls code : Nat) (p : BitVec 64) (part x : Nat) :
    (s.raiseMod cls code p part).reg x = s.reg x := State.reg_congr (by simp) x

/-! Fields of a word. -/

/-- The bits of a word after a field is replaced. -/
theorem setBits_getLsbD (v : BitVec 64) (hi lo x i : Nat) (h : lo ≤ hi) (hh : hi < 64) :
    (setBits v hi lo x).getLsbD i = if lo ≤ i ∧ i ≤ hi then x.testBit (i - lo) else v.getLsbD i := by
  unfold setBits
  simp only [BitVec.getLsbD_or, BitVec.getLsbD_and, BitVec.getLsbD_not, BitVec.getLsbD_ofNat, Nat.testBit_mul_two_pow,
    Nat.testBit_two_pow_sub_one]
  by_cases hi64 : i < 64
  · by_cases h1 : lo ≤ i
    · by_cases h2 : i ≤ hi
      · have h3 : i - lo < hi + 1 - lo := by omega
        simp [hi64, h1, h2, h3]
      · have h3 : ¬ i - lo < hi + 1 - lo := by omega
        simp [hi64, h1, h2, h3]
    · simp [hi64, h1]
  · have h1 : ¬ i ≤ hi := by omega
    have h2 : v.getLsbD i = false := BitVec.getLsbD_of_ge v i (by omega)
    simp [hi64, h1, h2]

/-- The bits of a field. -/
theorem bitsOf_testBit (v : BitVec 64) (hi lo i : Nat) :
    (bitsOf v hi lo).testBit i = (decide (i < hi + 1 - lo) && v.getLsbD (lo + i)) := by
  unfold bitsOf
  rw [Nat.testBit_mod_two_pow, Nat.testBit_div_two_pow]
  simp [BitVec.getLsbD, Nat.add_comm]

/-- A field reads back what was written to it. -/
theorem bitsOf_setBits_same (v : BitVec 64) (hi lo x : Nat) (h : lo ≤ hi) (hh : hi < 64) :
    bitsOf (setBits v hi lo x) hi lo = x % 2 ^ (hi + 1 - lo) := by
  apply Nat.eq_of_testBit_eq
  intro i
  rw [bitsOf_testBit, setBits_getLsbD v hi lo x _ h hh, Nat.testBit_mod_two_pow]
  by_cases hi2 : i < hi + 1 - lo
  · have : lo ≤ lo + i ∧ lo + i ≤ hi := by omega
    simp [hi2, this]
  · simp [hi2]

/-- A field stands when another is written. -/
theorem bitsOf_setBits_other (v : BitVec 64) (hi lo x a b : Nat) (h : lo ≤ hi) (hh : hi < 64) (hab : a < lo ∨ hi < b) :
    bitsOf (setBits v hi lo x) a b = bitsOf v a b := by
  apply Nat.eq_of_testBit_eq
  intro i
  rw [bitsOf_testBit, bitsOf_testBit, setBits_getLsbD v hi lo x _ h hh]
  by_cases hi2 : i < a + 1 - b
  · have : ¬ (lo ≤ b + i ∧ b + i ≤ hi) := by omega
    simp [hi2, this]
  · simp [hi2]

/-- The field of a register after a write of it. -/
theorem State.fld_setFld_same {s : State} (h : mapWf regReset s.regs = true) (off hi lo x : Nat) (hl : lo ≤ hi) (hh : hi < 64) :
    (s.setFld off hi lo x).fld off hi lo = x % 2 ^ (hi + 1 - lo) := by
  unfold State.fld
  rw [State.reg_setFld h, if_pos rfl, bitsOf_setBits_same _ _ _ _ hl hh]

/-- Another field, or a field of another register, after a write of a field. -/
theorem State.fld_setFld_other {s : State} (h : mapWf regReset s.regs = true) (off hi lo x o a b : Nat) (hl : lo ≤ hi)
    (hh : hi < 64) (ho : o ≠ off ∨ a < lo ∨ hi < b) : (s.setFld off hi lo x).fld o a b = s.fld o a b := by
  unfold State.fld
  rw [State.reg_setFld h]
  split
  · rename_i e
    subst e
    rcases ho with ho | ho
    · exact absurd rfl ho
    · exact bitsOf_setBits_other _ _ _ _ _ _ hl hh ho
  · rfl

/-! Memory. -/

/-- A byte after a store of one byte. -/
theorem State.byteAt_wrByte {s : State} (h : Memory.wf s.mem = true) (pa : Nat) (b : Byte) (x : Nat) :
    (s.wrByte pa b).byteAt x = if x = pa then b else s.byteAt x := Memory.get_put h pa b x

/-- Stores keep the canonical form. -/
theorem State.wrBytes_wf {s : State} (h : Memory.wf s.mem = true) (pa : Nat) (l : List Byte) :
    Memory.wf (s.wrBytes pa l).mem = true := by
  induction l generalizing s pa with
  | nil => exact h
  | cons b r ih => exact ih (s := s.wrByte pa b) (Memory.put_wf h pa b) (pa + 1)

theorem State.store_wf {s : State} (h : Memory.wf s.mem = true) (pa : Nat) (l : List Byte) :
    Memory.wf (s.store pa l).mem = true := by
  unfold State.store
  split
  · exact State.wrBytes_wf h pa l
  · exact State.wrBytes_wf h pa l

/-- A byte outside the bytes stored stands. -/
theorem State.byteAt_wrBytes_other {s : State} (h : Memory.wf s.mem = true) (pa : Nat) (l : List Byte) (x : Nat)
    (hx : x < pa ∨ pa + l.length ≤ x) : (s.wrBytes pa l).byteAt x = s.byteAt x := by
  induction l generalizing s pa with
  | nil => rfl
  | cons b r ih =>
    simp only [List.length_cons] at hx
    have := ih (s := s.wrByte pa b) (Memory.put_wf h pa b) (pa + 1) (by omega)
    rw [State.wrBytes, this, State.byteAt_wrByte h, if_neg (by omega)]

/-- A byte stored reads back. -/
theorem State.byteAt_wrBytes_same {s : State} (h : Memory.wf s.mem = true) (pa : Nat) (l : List Byte) (i : Nat)
    (hi : i < l.length) : (s.wrBytes pa l).byteAt (pa + i) = l[i] := by
  induction l generalizing s pa i with
  | nil => simp at hi
  | cons b r ih =>
    have hw := Memory.put_wf h pa b
    cases i with
    | zero =>
      have := State.byteAt_wrBytes_other (s := s.wrByte pa b) hw (pa + 1) r pa (by omega)
      simp only [State.wrBytes, Nat.add_zero]; rw [this, State.byteAt_wrByte h, if_pos rfl]; rfl
    | succ n =>
      have := ih (s := s.wrByte pa b) hw (pa + 1) n (by simpa using hi)
      rw [State.wrBytes, show pa + (n + 1) = pa + 1 + n by omega, this]; rfl

/-- The same for a store at a home, whatever it does to poison. -/
theorem State.byteAt_store (s : State) (pa : Nat) (l : List Byte) (x : Nat) :
    (s.store pa l).byteAt x = (s.wrBytes pa l).byteAt x := by
  unfold State.store
  split <;> rfl

end Sys2Proof.Machine
end

