-- ==== Sys2Proof/Laws/Core.lean ====
section
/-! SUPPORT. What the shared operations of core commands do: issue, retirement, jumps, traps, registers, and how units answer. -/

namespace Sys2Proof.Machine

/-! Registers of a core. -/

@[simp] theorem CoreSt.sget_zero (k : CoreSt) : k.sget 0 = 0 := rfl
@[simp] theorem CoreSt.sput_zero (k : CoreSt) (v : BitVec 64) : k.sput 0 v = k := rfl
@[simp] theorem CoreSt.pget_zero (k : CoreSt) : k.pget 0 = BitVec.allOnes 256 := rfl
@[simp] theorem CoreSt.pput_zero (k : CoreSt) (v : BitVec 256) : k.pput 0 v = k := rfl

/-- A scalar register after a write: s0 reads 0 whatever is written. -/
theorem CoreSt.sget_sput (k : CoreSt) (r q : RegIx) (v : BitVec 64) :
    (k.sput r v).sget q = if q = r ∧ q ≠ 0 then v else k.sget q := by
  by_cases hr : r = 0
  · subst hr
    by_cases hq : q = 0 <;> simp [CoreSt.sput, CoreSt.sget, hq]
  · by_cases hq : q = 0
    · simp [CoreSt.sget, hq]
    · by_cases e : q = r
      · subst e; simp [CoreSt.sput, CoreSt.sget, hr]
      · have e' : ¬ (r : Nat) = q := fun h => e (Fin.ext h.symm)
        simp [CoreSt.sput, CoreSt.sget, hr, hq, e, e']

/-- A write of a scalar register changes the scalar registers alone. -/
theorem CoreSt.sput_eq (k : CoreSt) (r : RegIx) (v : BitVec 64) : k.sput r v = { k with sreg := (k.sput r v).sreg } := by
  unfold CoreSt.sput; split <;> rfl

theorem CoreSt.pput_eq (k : CoreSt) (r : PredIx) (v : BitVec 256) : k.pput r v = { k with preg := (k.pput r v).preg } := by
  unfold CoreSt.pput; split <;> rfl

@[simp] theorem CoreSt.sput_pc (k : CoreSt) (r : RegIx) (v : BitVec 64) : (k.sput r v).pc = k.pc := by rw [CoreSt.sput_eq]
@[simp] theorem CoreSt.sput_local (k : CoreSt) (r : RegIx) (v : BitVec 64) : (k.sput r v).local_ = k.local_ := by rw [CoreSt.sput_eq]
@[simp] theorem CoreSt.sput_tok (k : CoreSt) (r : RegIx) (v : BitVec 64) : (k.sput r v).tok = k.tok := by rw [CoreSt.sput_eq]
@[simp] theorem CoreSt.sput_acc (k : CoreSt) (r : RegIx) (v : BitVec 64) : (k.sput r v).acc = k.acc := by rw [CoreSt.sput_eq]
@[simp] theorem CoreSt.sput_wait (k : CoreSt) (r : RegIx) (v : BitVec 64) : (k.sput r v).wait = k.wait := by rw [CoreSt.sput_eq]
@[simp] theorem CoreSt.sput_kill (k : CoreSt) (r : RegIx) (v : BitVec 64) : (k.sput r v).kill = k.kill := by rw [CoreSt.sput_eq]

/-! Local memory. -/

/-- A local store keeps the canonical form and changes local memory alone. -/
theorem CoreSt.localStore_wf (k : CoreSt) (a : Nat) (l : List Byte) (h : Memory.wf k.local_ = true) :
    Memory.wf (k.localStore a l).local_ = true := by
  induction l generalizing k a with
  | nil => exact h
  | cons b r ih => exact ih ({ k with local_ := k.local_.put a b } : CoreSt) (a + 1) (Memory.put_wf h a b)

/-! Issue. -/

/-- An instruction acts when its core can issue it, and otherwise changes nothing. -/
theorem issueWhen_can {c : CoreIx} {ss vs : List RegIx} {f : State → State} {s : State} (h : s.canIssue c ss vs = true) :
    issueWhen c ss vs f s = .next (f s) := by simp [issueWhen, h]

theorem issueWhen_held {c : CoreIx} {ss vs : List RegIx} {f : State → State} {s : State} (h : s.canIssue c ss vs = false) :
    issueWhen c ss vs f s = .next s := by simp [issueWhen, h]

/-- All that an issued instruction can answer. -/
theorem issueWhen_cases {c : CoreIx} {ss vs : List RegIx} {f : State → State} {s t : State}
    (h : issueWhen c ss vs f s = .next t) : (s.canIssue c ss vs = true ∧ t = f s) ∨ (s.canIssue c ss vs = false ∧ t = s) := by
  cases hc : s.canIssue c ss vs
  · rw [issueWhen_held hc] at h; cases h; exact .inr ⟨rfl, rfl⟩
  · rw [issueWhen_can hc] at h; cases h; exact .inl ⟨rfl, rfl⟩

/-- Retirement: the core as the instruction leaves it, at the next word, counted. -/
theorem State.retire_done (s : State) (c : CoreIx) (f : CoreSt → CoreSt) : s.retire c f = s.done c (f s.core[c]) := rfl

theorem issueReg_can {c : CoreIx} {ss vs : List RegIx} {f : CoreSt → CoreSt} {s : State} (h : s.canIssue c ss vs = true) :
    issueReg c ss vs f s = .next (s.done c (f s.core[c])) := issueWhen_can h

/-- A jump: the core as the instruction leaves it, at the target, counted. -/
theorem State.jump_done (s : State) (c : CoreIx) (f : CoreSt → CoreSt) (g : CoreSt → BitVec 64) :
    s.jump c f g = s.doneAt c (f s.core[c]) (g s.core[c]) := rfl

/-! Traps. -/

/-- A precise trap outside a handler, with a handler set: the handler is entered. -/
theorem State.precise_trapped {s : State} {c : CoreIx} (h : s.core[c].trapActive = false) (hv : s.core[c].trapVec ≠ 0)
    (cause : Nat) (info : BitVec 64) :
    s.precise c cause info = s.trapped c s.core[c] cause 0 info s.core[c].pc := by
  unfold State.precise State.enterTrap
  simp only [h, Bool.false_eq_true, and_false, if_false, hv]
  rfl

/-- Inside a handler, or without one, a precise trap stops the core. -/
theorem State.precise_stops {s : State} {c : CoreIx} (h : s.core[c].trapActive = true ∨ s.core[c].trapVec = 0)
    (cause : Nat) (info : BitVec 64) : (s.precise c cause info).core[c].mode = .stopped := by
  simp only [Fin.getElem_fin] at h
  unfold State.precise State.enterTrap
  by_cases ha : s.core[c.val].trapActive = true
  · simp [ha]
  · have hv : s.core[c.val].trapVec = 0 := by rcases h with h | h <;> simp_all
    simp [ha, hv]

/-! How units answer. -/

@[simp] theorem State.deferTrap_mem (s : State) (c : CoreIx) (a b : Nat) (i : BitVec 64) : (s.deferTrap c a b i).mem = s.mem := rfl
@[simp] theorem State.deferTrap_regs (s : State) (c : CoreIx) (a b : Nat) (i : BitVec 64) : (s.deferTrap c a b i).regs = s.regs := rfl
@[simp] theorem State.sendToken_mem (s : State) (c : CoreIx) (k : TokIx) (e : Bool) : (s.sendToken c k e).mem = s.mem := rfl
@[simp] theorem State.sendToken_regs (s : State) (c : CoreIx) (k : TokIx) (e : Bool) : (s.sendToken c k e).regs = s.regs := rfl

/-- The end of a wait touches the core that waits alone. -/
theorem State.settle_eq (s : State) (c : CoreIx) :
    s.settle c = { s with core := s.core.set c (s.core[c].settle s.tide.num).settleKill } := rfl

/-- A core that waits for nothing, and is not being killed, stands. -/
theorem State.settle_idle {s : State} {c : CoreIx} (hw : s.core[c].wait = none) (hk : s.core[c].kill = false) :
    s.settle c = s := by
  have e : (s.core[c].settle s.tide.num).settleKill = s.core[c] := by
    unfold CoreSt.settle; rw [hw]; unfold CoreSt.settleKill; rw [hk]; rfl
  rw [State.settle_eq, e]
  have : s.core.set c s.core[c] = s.core := by simp
  rw [this]

/-- A completion sends the token's signal and lowers the core's count for the unit, and changes no other part. -/
theorem State.finish_eq (s : State) (cmd : UnitCmd) (err : Bool) :
    s.finish cmd err = { s with core := (s.finish cmd err).core } := rfl

/-- A refusal sends a deferred trap and the token's signal with error, and changes no other part. -/
theorem State.refuse_eq (s : State) (cmd : UnitCmd) (code : Nat) (p : BitVec 64) :
    s.refuse cmd code p = { s with core := (s.refuse cmd code p).core } := rfl

/-- A free value: the counter moves on, and nothing else. -/
theorem State.fresh_eq (s : State) : s.fresh = (Config.freeWord s.free, { s with free := s.free + 1 }) := rfl

/-! Steps. -/

theorem step_front {s : State} {i : Instr} {l : List Instr} (h : s.pending = i :: l) :
    step s = exec i { s with pending := l } := by unfold step; rw [h]

end Sys2Proof.Machine
end

