-- ==== Sys2Proof/Laws/Enclose.lean ====
section
/-! SUPPORT. What picking a code near an interval's value can answer: every code is within 2 ulp of it. -/

namespace Sys2Proof.Machine

/-- A code of a place other than an infinity lies within the widened interval, and an infinity only where an end of the
interval rounds to it. -/
theorem nearCodes_bound (e : Encl) (c : Nat) (h : c ∈ nearCodes e) :
    (∃ i : Int, -topPlace < i ∧ i < topPlace ∧ c ∈ placeCodes i ∧
      e.lo - twoUlp (max e.lo.natAbs e.hi.natAbs) ≤ encPlace i ∧ encPlace i ≤ e.hi + twoUlp (max e.lo.natAbs e.hi.natAbs)) ∨
    (c = 0x7F800000 ∧ placeOf e.hi = topPlace) ∨ (c = 0xFF800000 ∧ placeOf e.lo = -topPlace) := by
  simp only [nearCodes, List.mem_append] at h
  rcases h with (h | h) | h
  · rw [List.mem_flatMap] at h
    obtain ⟨i, -, h⟩ := h
    split at h
    · rename_i b
      exact .inl ⟨i, b.1, b.2.1, h, b.2.2.1, b.2.2.2⟩
    · cases h
  · split at h
    · rename_i b
      exact .inr (.inl ⟨by simpa using h, b⟩)
    · cases h
  · split at h
    · rename_i b
      exact .inr (.inr ⟨by simpa using h, b⟩)
    · cases h

theorem pickNear_mem (f : BitVec 32) (e : Encl) (h : nearCodes e ≠ []) : pickNear f e ∈ nearCodes e := by
  have l : f.toNat % (nearCodes e).length < (nearCodes e).length := Nat.mod_lt _ (List.length_pos_iff.mpr h)
  simp [pickNear, List.getElem?_eq_getElem l]

end Sys2Proof.Machine
end

