-- ==== Sys2Proof/Laws/Keep.lean ====
section
/-! SUPPORT. The shared operations keep the canonical form of State, and the bounds of its queues. -/

namespace Sys2Proof.Machine

/-- The parts of the canonical form. -/
theorem State.wf_iff (s : State) : s.wf = true ↔ Memory.wf s.mem = true ∧ mapWf regReset s.regs = true ∧
    mapWf zero64 s.ctr = true ∧ mapWf zero64 s.shadow = true ∧ mapWf zero64 s.edgeCtr = true ∧ keysWf s.poison = true ∧
    ∀ c : CoreIx, Memory.wf s.core[c].local_ = true := by
  have e : s.core.toList.all (fun k => Memory.wf k.local_) = true ↔ ∀ c : CoreIx, Memory.wf s.core[c].local_ = true := by
    simp only [List.all_eq_true]
    constructor
    · intro h c
      exact h _ (by simp)
    · intro h k hk
      obtain ⟨i, hi, rfl⟩ := List.mem_iff_getElem.mp hk
      have hi' : i < 128 := by simpa using hi
      have := h ⟨i, hi'⟩
      simpa using this
  simp only [State.wf, Bool.and_eq_true, e]
  constructor
  · rintro ⟨⟨⟨⟨⟨⟨a, b⟩, c⟩, d⟩, f⟩, g⟩, i⟩; exact ⟨a, b, c, d, f, g, i⟩
  · rintro ⟨a, b, c, d, f, g, i⟩; exact ⟨⟨⟨⟨⟨⟨a, b⟩, c⟩, d⟩, f⟩, g⟩, i⟩

/-- Reset is in canonical form, and its memory has it. -/
theorem State.reset_memory_wf : Memory.wf State.reset.mem = true := rfl

/-- A state that differs from a canonical one in no sparse part and in no local memory is canonical. -/
theorem State.wf_of_eq {s t : State} (h : s.wf = true) (hm : t.mem = s.mem) (hr : t.regs = s.regs) (hc : t.ctr = s.ctr)
    (hs : t.shadow = s.shadow) (he : t.edgeCtr = s.edgeCtr) (hp : t.poison = s.poison) (hk : t.core = s.core) :
    t.wf = true := by
  rw [State.wf_iff] at h ⊢
  rw [hm, hr, hc, hs, he, hp, hk]
  exact h

theorem State.setReg_wf {s : State} (h : s.wf = true) (off : Nat) (v : BitVec 64) : (s.setReg off v).wf = true := by
  rw [State.wf_iff] at h ⊢
  exact ⟨h.1, mapWf_put h.2.1 off v, h.2.2⟩

theorem State.setFld_wf {s : State} (h : s.wf = true) (off hi lo x : Nat) : (s.setFld off hi lo x).wf = true :=
  State.setReg_wf h _ _

theorem State.count_wf {s : State} (h : s.wf = true) (off n : Nat) : (s.count off n).wf = true := by
  rw [State.wf_iff] at h ⊢
  exact ⟨h.1, h.2.1, mapWf_put h.2.2.1 _ _, h.2.2.2⟩

theorem State.raise_wf {s : State} (h : s.wf = true) (u : Src) (code : Nat) (p : BitVec 64) : (s.raise u code p).wf = true := by
  unfold State.raise
  simp only
  split
  · exact State.wf_of_eq (State.count_wf h 0x300420 1) rfl rfl rfl rfl rfl rfl rfl
  · exact State.wf_of_eq h rfl rfl rfl rfl rfl rfl rfl

theorem State.raiseMod_wf {s : State} (h : s.wf = true) (cls code : Nat) (p : BitVec 64) (part : Nat) :
    (s.raiseMod cls code p part).wf = true := State.raise_wf h _ _ _

theorem State.stage_wf {s : State} (h : s.wf = true) (off : Nat) (v : BitVec 64) : (s.stage off v).wf = true :=
  State.wf_of_eq h rfl rfl rfl rfl rfl rfl rfl

/-- A core changed by an operation that keeps its local memory in form. -/
theorem State.onCore_wf {s : State} (h : s.wf = true) (c : CoreIx) (f : CoreSt → CoreSt)
    (hf : Memory.wf s.core[c].local_ = true → Memory.wf (f s.core[c]).local_ = true) : (s.onCore c f).wf = true := by
  rw [State.wf_iff] at h ⊢
  refine ⟨h.1, h.2.1, h.2.2.1, h.2.2.2.1, h.2.2.2.2.1, h.2.2.2.2.2.1, fun d => ?_⟩
  have hl := h.2.2.2.2.2.2
  rw [State.onCore_core]
  simp only [Fin.getElem_fin] at hl hf ⊢
  by_cases e : c.val = d.val
  · have : (s.core.set c.val (f s.core[c.val]))[d.val] = f s.core[c.val] := by simp [← e]
    rw [this]; exact hf (hl c)
  · have : (s.core.set c.val (f s.core[c.val]))[d.val] = s.core[d.val] := by simp [e]
    rw [this]; exact hl d

theorem State.onDisp_wf {s : State} (h : s.wf = true) (c : ClusterIx) (f : DispSt → DispSt) : (s.onDisp c f).wf = true :=
  State.wf_of_eq h rfl rfl rfl rfl rfl rfl rfl
theorem State.onPan_wf {s : State} (h : s.wf = true) (p : ClusterIx) (f : PanSt → PanSt) : (s.onPan p f).wf = true :=
  State.wf_of_eq h rfl rfl rfl rfl rfl rfl rfl
theorem State.onSlu_wf {s : State} (h : s.wf = true) (i : SluIx) (f : SluSt → SluSt) : (s.onSlu i f).wf = true :=
  State.wf_of_eq h rfl rfl rfl rfl rfl rfl rfl
theorem State.onXtl_wf {s : State} (h : s.wf = true) (x : XtlIx) (f : XtlSt → XtlSt) : (s.onXtl x f).wf = true :=
  State.wf_of_eq h rfl rfl rfl rfl rfl rfl rfl
theorem State.onBrn_wf {s : State} (h : s.wf = true) (d : DieIx) (f : BrnSt → BrnSt) : (s.onBrn d f).wf = true :=
  State.wf_of_eq h rfl rfl rfl rfl rfl rfl rfl
theorem State.onPort_wf {s : State} (h : s.wf = true) (p : PortIx) (f : PortSt → PortSt) : (s.onPort p f).wf = true :=
  State.wf_of_eq h rfl rfl rfl rfl rfl rfl rfl
theorem State.onStk_wf {s : State} (h : s.wf = true) (f : StkSt → StkSt) : (s.onStk f).wf = true :=
  State.wf_of_eq h rfl rfl rfl rfl rfl rfl rfl
theorem State.onPwr_wf {s : State} (h : s.wf = true) (f : PwrSt → PwrSt) : (s.onPwr f).wf = true :=
  State.wf_of_eq h rfl rfl rfl rfl rfl rfl rfl
theorem State.onMgmt_wf {s : State} (h : s.wf = true) (f : MgmtSt → MgmtSt) : (s.onMgmt f).wf = true :=
  State.wf_of_eq h rfl rfl rfl rfl rfl rfl rfl
theorem State.onBoard_wf {s : State} (h : s.wf = true) (f : BoardSt → BoardSt) : (s.onBoard f).wf = true :=
  State.wf_of_eq h rfl rfl rfl rfl rfl rfl rfl
theorem State.alert_wf {s : State} (h : s.wf = true) (b : Fin 5) : (s.alert b).wf = true := by
  rw [State.alert_eq]; exact State.wf_of_eq h rfl rfl rfl rfl rfl rfl rfl

/-- Memory stores keep the canonical form of State. -/
theorem State.wrByte_keeps {s : State} (h : s.wf = true) (pa : Nat) (b : Byte) : (s.wrByte pa b).wf = true := by
  rw [State.wf_iff] at h ⊢
  exact ⟨Memory.put_wf h.1 pa b, h.2⟩

theorem State.wrBytes_keeps {s : State} (h : s.wf = true) (pa : Nat) (l : List Byte) : (s.wrBytes pa l).wf = true := by
  induction l generalizing s pa with
  | nil => exact h
  | cons b r ih => exact ih (State.wrByte_keeps h pa b) (pa + 1)

theorem State.unpoison_wf {s : State} (h : s.wf = true) (pa n : Nat) : (s.unpoison pa n).wf = true := by
  rw [State.wf_iff] at h ⊢
  exact ⟨h.1, h.2.1, h.2.2.1, h.2.2.2.1, h.2.2.2.2.1, keysWf_filter h.2.2.2.2.2.1 _, h.2.2.2.2.2.2⟩

theorem State.store_keeps {s : State} (h : s.wf = true) (pa : Nat) (l : List Byte) : (s.store pa l).wf = true := by
  unfold State.store
  split
  · exact State.wrBytes_keeps h pa l
  · exact State.unpoison_wf (State.wrBytes_keeps h pa l) pa l.length

theorem State.markPoison_wf {s : State} (h : s.wf = true) (pa : Nat) : (s.markPoison pa).wf = true := by
  rw [State.wf_iff] at h ⊢
  exact ⟨h.1, h.2.1, h.2.2.1, h.2.2.2.1, h.2.2.2.2.1, keysWf_add h.2.2.2.2.2.1 _, h.2.2.2.2.2.2⟩

/-- Core operations. -/
theorem State.retire_wf {s : State} (h : s.wf = true) (c : CoreIx) (f : CoreSt → CoreSt)
    (hf : Memory.wf s.core[c].local_ = true → Memory.wf (f s.core[c]).local_ = true) : (s.retire c f).wf = true :=
  State.count_wf (State.onCore_wf h c (fun k => { f k with pc := k.pc + 8 }) hf) _ _

theorem CoreSt.endWait_local (k : CoreSt) (t : BitVec 64) (w : WaitKind) : (k.endWait t w).local_ = k.local_ := by
  cases w with
  | tokenWait j rd => exact CoreSt.sput_local k rd _
  | tide j rd => exact CoreSt.sput_local k rd _
  | halt => unfold CoreSt.endWait; cases k.trapDue <;> rfl
  | _ => rfl

theorem CoreSt.settle_local (k : CoreSt) (t : BitVec 64) : (k.settle t).local_ = k.local_ := by
  unfold CoreSt.settle
  split
  · rfl
  · split
    · exact CoreSt.endWait_local k t _
    · rfl

theorem CoreSt.settleKill_local (k : CoreSt) : k.settleKill.local_ = k.local_ := by
  unfold CoreSt.settleKill; split <;> rfl

theorem State.settle_wf {s : State} (h : s.wf = true) (c : CoreIx) : (s.settle c).wf = true :=
  State.onCore_wf h c _ (fun hl => by rw [CoreSt.settleKill_local, CoreSt.settle_local]; exact hl)

theorem State.enterTrap_wf {s : State} (h : s.wf = true) (c : CoreIx) (cause code : Nat) (info epc : BitVec 64)
    (p : Bool) : (s.enterTrap c cause code info epc p).wf = true := by
  unfold State.enterTrap
  simp only
  split
  · exact State.raise_wf (State.onCore_wf h c _ id) _ _ _
  · split
    · exact State.raise_wf (State.onCore_wf h c _ id) _ _ _
    · exact State.count_wf (State.onCore_wf h c _ id) _ _

theorem State.deferTrap_wf {s : State} (h : s.wf = true) (c : CoreIx) (cause code : Nat) (info : BitVec 64) :
    (s.deferTrap c cause code info).wf = true := State.onCore_wf h c _ id

theorem State.finish_wf {s : State} (h : s.wf = true) (cmd : UnitCmd) (err : Bool) : (s.finish cmd err).wf = true :=
  State.settle_wf (State.onCore_wf (State.onCore_wf h _ _ id) _ _
    (fun hl => by cases cmd.op.target <;> exact hl)) _

theorem State.refuse_wf {s : State} (h : s.wf = true) (cmd : UnitCmd) (code : Nat) (p : BitVec 64) :
    (s.refuse cmd code p).wf = true := State.finish_wf (State.deferTrap_wf h _ _ _ _) _ _

/-- An idle step keeps the canonical form. -/
theorem State.idle_wf {s : State} (h : s.wf = true) : s.idle.wf = true := by
  unfold State.idle
  split
  · exact State.wf_of_eq h rfl rfl rfl rfl rfl rfl rfl
  · exact h

/-! Bounds. -/

/-- The parts of the bounds. -/
theorem State.bounded_iff (s : State) : s.bounded = true ↔ (∀ d : DieIx, s.fifo[d].length ≤ 4096) ∧
    ∀ c : CoreIx, s.core[c].recs.length ≤ 8 := by
  have e1 : s.fifo.toList.all (fun l => decide (l.length ≤ 4096)) = true ↔ ∀ d : DieIx, s.fifo[d].length ≤ 4096 := by
    simp only [List.all_eq_true, decide_eq_true_eq]
    constructor
    · intro h c; exact h _ (by simp)
    · intro h k hk
      obtain ⟨i, hi, rfl⟩ := List.mem_iff_getElem.mp hk
      have hi' : i < 4 := by simpa using hi
      simpa using h ⟨i, hi'⟩
  have e2 : s.core.toList.all (fun k => decide (k.recs.length ≤ 8)) = true ↔ ∀ c : CoreIx, s.core[c].recs.length ≤ 8 := by
    simp only [List.all_eq_true, decide_eq_true_eq]
    constructor
    · intro h c; exact h _ (by simp)
    · intro h k hk
      obtain ⟨i, hi, rfl⟩ := List.mem_iff_getElem.mp hk
      have hi' : i < 128 := by simpa using hi
      simpa using h ⟨i, hi'⟩
  simp only [State.bounded, Bool.and_eq_true, e1, e2]

/-- A state with the FIFOs and the trap queues of a bounded one is bounded. -/
theorem State.bounded_of_eq {s t : State} (h : s.bounded = true) (hf : t.fifo = s.fifo) (hk : t.core = s.core) :
    t.bounded = true := by
  rw [State.bounded_iff] at h ⊢
  rw [hf, hk]; exact h

/-- An event keeps the bound of the FIFOs. -/
theorem State.raise_bounded {s : State} (h : s.bounded = true) (u : Src) (code : Nat) (p : BitVec 64) :
    (s.raise u code p).bounded = true := by
  rw [State.bounded_iff] at h ⊢
  refine ⟨fun d => ?_, fun c => by rw [State.raise_core]; exact h.2 c⟩
  have hl := h.1
  unfold State.raise
  simp only
  split
  · exact hl d
  · rename_i hn
    simp only [Fin.getElem_fin] at hl hn ⊢
    by_cases e : (Fin.ofNat 4 u.die : Fin 4).val = d.val
    · simp only [Vector.getElem_set, e, if_pos, List.length_append, List.length_singleton]
      simp only [e] at hn
      omega
    · simp only [Vector.getElem_set, e, if_false]
      exact hl d

/-- A core changed by an operation that keeps its trap queue within bound. -/
theorem State.onCore_bounded {s : State} (h : s.bounded = true) (c : CoreIx) (f : CoreSt → CoreSt)
    (hf : s.core[c].recs.length ≤ 8 → (f s.core[c]).recs.length ≤ 8) : (s.onCore c f).bounded = true := by
  rw [State.bounded_iff] at h ⊢
  refine ⟨h.1, fun d => ?_⟩
  have hl := h.2
  rw [State.onCore_core]
  simp only [Fin.getElem_fin] at hl hf ⊢
  by_cases e : c.val = d.val
  · have : (s.core.set c.val (f s.core[c.val]))[d.val] = f s.core[c.val] := by simp [← e]
    rw [this]; exact hf (hl c)
  · have : (s.core.set c.val (f s.core[c.val]))[d.val] = s.core[d.val] := by simp [e]
    rw [this]; exact hl d

end Sys2Proof.Machine
end

