-- ==== Sys2Proof/WellFormed.lean ====
section
/-! DEFINITION. Well-formed commands: what an operand must satisfy beyond its type. A register number, a unit index or a
code that the spec does not assign cannot be written in Syntax.lean; what is left is the length of byte strings. -/

namespace Sys2Proof

/-- A data flit carries at most eight whole 32-byte units (R465, R466). -/
def Flit.wf (f : Flit) : Bool :=
  match f.body with
  | .data _ units => decide (units.length ≤ 256) && units.length % 32 == 0
  | .idle => f.seq == 0
  | .retire _ | .ident .. => true

/-- An Ethernet payload is at most 4096 bytes (the largest MTU of R500). -/
def EthFrame.wf : EthFrame → Bool
  | .send _ data => decide (data.length ≤ 4096)
  | .readResponse _ data => decide (data.length ≤ 4096)
  | .firmware data => decide (data.length ≤ 4096)
  | .rdmaReadRequest _ | .rdmaWrite _ | .ack _ | .nak .. | .cnp _ | .other => true

/-- A key's SHA-384 hash is 48 bytes (R576). -/
def Cert.wf (c : Cert) : Bool :=
  match c.anchor with
  | some k => k.length == 48
  | none => true

/-- The fixed lengths of a slot image (R568). -/
def SlotImage.wf (i : SlotImage) : Bool :=
  i.head.length == 208 && i.hash.length == 48 && i.vsig.length == 96 && i.osig.length == 96

/-- Microcode is signed as a slot image is (R596). -/
def Ucode.wf : Ucode → Bool
  | .brine _ _ vsig osig => vsig.length == 96 && osig.length == 96
  | .calibration .. => true

/-- A round of balancing names each module once (R550). -/
def distinctDevs : List BalPart → Bool
  | [] => true
  | b :: l => l.all (fun x => x.dev != b.dev) && distinctDevs l

/-- A command whose operands the spec allows. -/
def Instr.wf : Instr → Bool
  | .tideEdge .. | .snapshotTaken | .energyMarkLatch .. | .capScheduleApply | .alarmWake
  | .fillTimeout .. | .holdWarnReached .. | .issueStallWarn .. | .syncWaitWarn .. | .collWarn ..
  | .forwardStallWarn .. | .heatDecay | .batchDeadline .. | .ppsAbsent | .timeSend ..
  | .balSlackLatch | .metricsSnapshotArm .. | .errorWindowEnd .. | .channelPermanent .. | .selfTest ..
  | .fenceTakeEffect .. | .driftEnter | .driftExit | .thermalLift .. | .droopCeilingLift ..
  | .thermalEmergency .. | .thermalTrip .. | .inputTrip .. | .vinExcursion .. | .droopDetect ..
  | .droopEscalate .. | .pwrEnAssert .. | .pwrEnDeassert | .resetLAssert | .resetLRelease ..
  | .refclkLoss | .refclkLock | .ppsEdge .. | .boot .. | .heartbeatTimeout | .wakeLLow
  | .lightWake .. | .knockMatch .. | .mgmtEnergyWake | .segmentWake | .m1Entry
  | .m2EntryComplete | .m3EntryComplete | .m1Exit | .m2Exit | .m3Exit | .laserLoss ..
  | .laserInsert .. | .laserWarmDone .. | .laserReleaseComplete .. | .laneSignalLoss .. | .laneRetire ..
  | .portTrainingComplete .. | .portTrainingFail .. | .portDownRetry .. | .firstLight .. => true
  | .flitReceive _ f _ => f.wf
  | .retrainTimeout .. | .idleFlitTimer .. | .laneRecalibrate .. | .segWrite .. | .segRead ..
  | .segReadData .. | .segRed .. | .segSend .. | .segAck .. | .segTime .. | .segCtrl .. | .segStatus ..
  | .segmentForward .. | .segmentRetxTimeout .. | .statusResend | .ackTimer .. => true
  | .ethFrameReceive _ f => f.wf
  | .qpError .. | .ethLinkFault .. | .fabricFlitReceive .. | .pageMoveComplete .. | .mmuInvComplete ..
  | .evacuationEnd .. | .add .. | .sub .. | .and .. | .or .. | .xor .. | .sll .. | .srl .. | .sra ..
  | .slt .. | .sltu .. | .min .. | .max .. | .minu .. | .maxu .. | .mul .. | .mulh .. | .mulhu ..
  | .div .. | .divu .. | .rem .. | .remu .. | .li .. | .lih .. | .beq .. | .bne .. | .blt .. | .bge ..
  | .bltu .. | .bgeu .. | .jal .. | .jalr .. | .tret .. | .ld .. | .st .. | .vld .. | .vst .. | .thl ..
  | .tld .. | .tst .. | .thcRead .. | .thcSet .. | .thcAdd .. | .vadd .. | .vsub .. | .vmul .. | .vfma ..
  | .vfms .. | .vfnma .. | .vmin .. | .vmax .. | .vabs .. | .vneg .. | .vdiv .. | .vsqrt .. | .vaddInt ..
  | .vsubInt .. | .vmulInt .. | .vminInt .. | .vmaxInt .. | .vminu .. | .vmaxu .. | .vand .. | .vor ..
  | .vxor .. | .vsll .. | .vsrl .. | .vsra .. | .vcmp .. | .vcvt .. | .vbcast .. | .vext .. | .vperm ..
  | .vslideup .. | .vslidedn .. | .vredAdd .. | .vredMax .. | .vredMin .. | .viota .. | .pand .. | .por ..
  | .pxor .. | .pandn .. | .pnot .. | .pset .. | .pclr .. | .pcnt .. | .pfirst .. | .vsfExp ..
  | .vsfExp2 .. | .vsfLog .. | .vsfLog2 .. | .vsfRecip .. | .vsfSqrt .. | .vsfRsqrt .. | .vsfSin ..
  | .vsfCos .. | .vsfTanh .. | .vsfSigmoid .. | .vsfErf .. | .amoAdd .. | .amoMin .. | .amoMax ..
  | .amoSwp .. | .amoCas .. | .fenceL .. | .fenceS .. | .fenceA .. | .fenceUQueue .. | .fenceUToken ..
  | .tideWait .. | .bar .. | .tokenSet .. | .tokenWait .. | .csrRd .. | .csrWr .. | .ctlRd .. | .ctlWr ..
  | .trap .. | .halt .. | .deferredTrapArrive .. | .trapEntry .. | .issueResume .. | .commandEnqueue ..
  | .tokenCompletion .. | .granuleComplete .. | .panLds .. | .panStr .. | .panMm .. | .panRake ..
  | .panFill .. | .panFillFlush .. | .panTwin .. | .panCommandBegin .. | .panPassComplete ..
  | .panCommandComplete .. | .panClockGate .. | .replayRun .. | .thirdRun .. | .writeBack ..
  | .replayRecordFreed .. | .sluCopy .. | .sluGather .. | .sluScatter .. | .sluReduce ..
  | .sluAllReduce .. | .sluReduceScatter .. | .sluAllGather .. | .sluAllToAll .. | .sluXmitWrite ..
  | .sluXmitRead .. | .sluXmitRed .. | .sluXmitSend .. | .sluWait .. | .sluWaitSatisfied ..
  | .sluCommandStart .. | .sluCommandComplete .. | .collChunkReceive .. | .brnBatch .. | .batchBegin ..
  | .dictLoadComplete .. | .recordArrive .. | .decodeComplete .. | .decodeOverBudget ..
  | .batchComplete .. | .xtlRun .. | .xtlRunBegin .. | .xtlSeal .. | .sealDrain .. | .localStatusFinal ..
  | .xtlBind .. | .xtlUnbind .. | .xtlEntry .. | .xtlInit .. | .xtlGather .. | .xtlResetComplete ..
  | .registerWrite .. | .tidePeriodWrite .. | .snapReqWrite .. | .grqTailWrite .. | .coreKill ..
  | .coreStart .. | .xtlCtlReset .. | .panFuseProgWrite .. | .stkAlloc .. | .stkFree .. | .stkMove ..
  | .stkMoveComplete | .mmuInvalidate .. | .evacRetry .. | .brineEnable .. | .brineDisable ..
  | .softCompletion .. | .linkEnable .. | .linkUnretire .. | .knockSend .. | .laserCtlRelease ..
  | .tuConnValidWrite .. | .redoRelease .. | .fenceSet .. | .fenceClear .. | .intModeWrite ..
  | .cvEnable .. | .cvContextStart .. | .cvValWrite .. | .traceEnable .. | .pwrClassWrite ..
  | .pwrCapSchedWrite .. | .pwrOrderWrite .. | .pwrFloorWrite .. | .energyMarkWrite .. | .pwrReqM0
  | .pwrReqM1 | .pwrReqM2 | .pwrReqM3 | .heartbeatWrite .. | .secLifecycleWrite ..
  | .secOwnerKeyWrite .. | .secDebugUnlock | .claim .. | .claimRelease .. | .claimQuery ..
  | .mboxEnd .. | .mboxAlloc .. | .mboxFree .. | .mboxMove .. => true
  | .ckptWrite _ plan _ => !plan.isEmpty
  | .ckptRead _ plan back => plan.length == back.length
  | .mboxSnapshot .. | .mboxClearDropped .. => true
  | .sessionOpen _ o => o.cert.wf
  | .hello .. | .evtAck .. | .query .. => true
  | .jobSubmit _ _ m => m.sha.length == 48
  | .jobAbort .. | .jobEnd .. | .setCap .. | .snapshot .. | .powerState .. | .laserRelease ..
  | .xtlReset .. | .fence .. => true
  | .fwStage _ _ i => i.wf
  | .fwActivate .. | .fwHandover .. => true
  | .ucodeLoad _ _ u => u.wf
  | .classRaise .. => true
  | .ownerRotate _ _ hash => hash.length == 48
  | .lifecycle .. | .debugUnlock .. | .fuseProg .. | .eventRingAppend => true
  | .balanceRound _ parts _ => distinctDevs parts
  | .metricsGet => true
  | .i3cPrivateWrite bytes => !bytes.isEmpty
  | .i3cPrivateRead .. | .enec .. | .disec .. | .rstdaa | .entdaa .. | .setdasa .. | .getpid
  | .getbcr | .getdcr | .getstatus | .extest .. | .idcode | .samplePreload ..
  | .dbgAccess | .bypass | .tapReset | .ethLinkUp .. | .vinReturn .. | .droopRecovery ..
  | .lswWindowEnd .. | .laserRemoved .. | .knockComplete .. | .accessPerformed .. | .xtlCommandComplete ..
  | .unassignedOpcode .. | .alignTimeout .. | .brokerTakeover .. => true

end Sys2Proof
end

