-- ==== Sys2Proof/Laws/PerInstr.lean ====
section
/-! SUPPORT. One lemma for each command: what its operands must satisfy. Every value of its operand types makes the command
well-formed, but for the eleven commands that carry byte strings or lists of a fixed length or without repeats. -/

namespace Sys2Proof.Laws.Named

open Sys2Proof

/-- The command carries a list whose length or contents the spec limits. -/
def limited : Instr → Bool
  | .flitReceive .. => true
  | .ethFrameReceive .. => true
  | .ckptWrite .. => true
  | .ckptRead .. => true
  | .sessionOpen .. => true
  | .jobSubmit .. => true
  | .fwStage .. => true
  | .ucodeLoad .. => true
  | .ownerRotate .. => true
  | .balanceRound .. => true
  | .i3cPrivateWrite .. => true
  | _ => false

/-- The command is well-formed at every value of its operand types, or carries a list that the spec limits. -/
def Statement (i : Instr) : Prop := limited i = false → i.wf = true

theorem tideEdge (e : EdgeEnv) : Statement (.tideEdge e) := fun _ => rfl
theorem snapshotTaken : Statement (.snapshotTaken) := fun _ => rfl
theorem energyMarkLatch (p : PartIx) : Statement (.energyMarkLatch p) := fun _ => rfl
theorem capScheduleApply : Statement (.capScheduleApply) := fun _ => rfl
theorem alarmWake : Statement (.alarmWake) := fun _ => rfl
theorem fillTimeout (p : ClusterIx) : Statement (.fillTimeout p) := fun _ => rfl
theorem holdWarnReached (p : Fin 4) (i : Fin 8) : Statement (.holdWarnReached p i) := fun _ => rfl
theorem issueStallWarn (c : CoreIx) : Statement (.issueStallWarn c) := fun _ => rfl
theorem syncWaitWarn (c : CoreIx) : Statement (.syncWaitWarn c) := fun _ => rfl
theorem collWarn (i : SluIx) : Statement (.collWarn i) := fun _ => rfl
theorem forwardStallWarn (p : PortIx) : Statement (.forwardStallWarn p) := fun _ => rfl
theorem heatDecay : Statement (.heatDecay) := fun _ => rfl
theorem batchDeadline (d : DieIx) : Statement (.batchDeadline d) := fun _ => rfl
theorem ppsAbsent : Statement (.ppsAbsent) := fun _ => rfl
theorem timeSend (origin : Vector (BitVec 32) 64) : Statement (.timeSend origin) := fun _ => rfl
theorem balSlackLatch : Statement (.balSlackLatch) := fun _ => rfl
theorem metricsSnapshotArm (t : BitVec 64) : Statement (.metricsSnapshotArm t) := fun _ => rfl
theorem errorWindowEnd (k : Fin 6) : Statement (.errorWindowEnd k) := fun _ => rfl
theorem channelPermanent (c : ChanRef) : Statement (.channelPermanent c) := fun _ => rfl
theorem selfTest (u : FenceUnit) (fault : Bool) : Statement (.selfTest u fault) := fun _ => rfl
theorem fenceTakeEffect (u : FenceUnit) : Statement (.fenceTakeEffect u) := fun _ => rfl
theorem driftEnter : Statement (.driftEnter) := fun _ => rfl
theorem driftExit : Statement (.driftExit) := fun _ => rfl
theorem thermalLift (d : DieIx) : Statement (.thermalLift d) := fun _ => rfl
theorem droopCeilingLift (d : DieIx) : Statement (.droopCeilingLift d) := fun _ => rfl
theorem thermalEmergency (d : DieIx) (tj : BitVec 8) : Statement (.thermalEmergency d tj) := fun _ => rfl
theorem thermalTrip (d : DieIx) (tj : BitVec 8) : Statement (.thermalTrip d tj) := fun _ => rfl
theorem inputTrip (k : VinTrip) : Statement (.inputTrip k) := fun _ => rfl
theorem vinExcursion (vin : BitVec 16) : Statement (.vinExcursion vin) := fun _ => rfl
theorem droopDetect (d : DieIx) : Statement (.droopDetect d) := fun _ => rfl
theorem droopEscalate (d : DieIx) : Statement (.droopEscalate d) := fun _ => rfl
theorem pwrEnAssert (vin : BitVec 16) (slot : BitVec 6) : Statement (.pwrEnAssert vin slot) := fun _ => rfl
theorem pwrEnDeassert : Statement (.pwrEnDeassert) := fun _ => rfl
theorem resetLAssert : Statement (.resetLAssert) := fun _ => rfl
theorem resetLRelease (slot : BitVec 6) : Statement (.resetLRelease slot) := fun _ => rfl
theorem refclkLoss : Statement (.refclkLoss) := fun _ => rfl
theorem refclkLock : Statement (.refclkLock) := fun _ => rfl
theorem ppsEdge (err : BitVec 32) : Statement (.ppsEdge err) := fun _ => rfl
theorem boot (e : BootEnv) : Statement (.boot e) := fun _ => rfl
theorem heartbeatTimeout : Statement (.heartbeatTimeout) := fun _ => rfl
theorem wakeLLow : Statement (.wakeLLow) := fun _ => rfl
theorem lightWake (p : PortIx) : Statement (.lightWake p) := fun _ => rfl
theorem knockMatch (p : PortIx) (bits : BitVec 64) : Statement (.knockMatch p bits) := fun _ => rfl
theorem mgmtEnergyWake : Statement (.mgmtEnergyWake) := fun _ => rfl
theorem segmentWake : Statement (.segmentWake) := fun _ => rfl
theorem m1Entry : Statement (.m1Entry) := fun _ => rfl
theorem m2EntryComplete : Statement (.m2EntryComplete) := fun _ => rfl
theorem m3EntryComplete : Statement (.m3EntryComplete) := fun _ => rfl
theorem m1Exit : Statement (.m1Exit) := fun _ => rfl
theorem m2Exit : Statement (.m2Exit) := fun _ => rfl
theorem m3Exit : Statement (.m3Exit) := fun _ => rfl
theorem laserLoss (b : Fin 16) (pulled : Bool) : Statement (.laserLoss b pulled) := fun _ => rfl
theorem laserInsert (b : Fin 16) (hours : BitVec 32) : Statement (.laserInsert b hours) := fun _ => rfl
theorem laserWarmDone (b : Fin 16) (ok : Bool) : Statement (.laserWarmDone b ok) := fun _ => rfl
theorem laserReleaseComplete (b : Fin 16) : Statement (.laserReleaseComplete b) := fun _ => rfl
theorem laneSignalLoss (p : PortIx) (k : Fin 8) : Statement (.laneSignalLoss p k) := fun _ => rfl
theorem laneRetire (p : PortIx) (k : Fin 8) : Statement (.laneRetire p k) := fun _ => rfl
theorem portTrainingComplete (p : PortIx) (t : Training) : Statement (.portTrainingComplete p t) := fun _ => rfl
theorem portTrainingFail (p : PortIx) (why : TrainFail) : Statement (.portTrainingFail p why) := fun _ => rfl
theorem portDownRetry (p : PortIx) : Statement (.portDownRetry p) := fun _ => rfl
theorem firstLight (p : PortIx) : Statement (.firstLight p) := fun _ => rfl
theorem flitReceive (p : PortIx) (f : Flit) (bad : List (Fin 34)) : Statement (.flitReceive p f bad) := fun h => Bool.noConfusion h
theorem retrainTimeout (p : PortIx) : Statement (.retrainTimeout p) := fun _ => rfl
theorem idleFlitTimer (p : PortIx) : Statement (.idleFlitTimer p) := fun _ => rfl
theorem laneRecalibrate (p : PortIx) (k : Fin 8) : Statement (.laneRecalibrate p k) := fun _ => rfl
theorem segWrite (p : PortIx) : Statement (.segWrite p) := fun _ => rfl
theorem segRead (p : PortIx) : Statement (.segRead p) := fun _ => rfl
theorem segReadData (p : PortIx) : Statement (.segReadData p) := fun _ => rfl
theorem segRed (p : PortIx) : Statement (.segRed p) := fun _ => rfl
theorem segSend (p : PortIx) : Statement (.segSend p) := fun _ => rfl
theorem segAck (p : PortIx) (failed : List (BitVec 32)) : Statement (.segAck p failed) := fun _ => rfl
theorem segTime (p : PortIx) (ago : BitVec 32) (resid : Vector (BitVec 32) 64) : Statement (.segTime p ago resid) := fun _ => rfl
theorem segCtrl (p : PortIx) : Statement (.segCtrl p) := fun _ => rfl
theorem segStatus (p : PortIx) : Statement (.segStatus p) := fun _ => rfl
theorem segmentForward (p : PortIx) (v : Fin 4) : Statement (.segmentForward p v) := fun _ => rfl
theorem segmentRetxTimeout (d : DieIx) (j : Fin 2048) : Statement (.segmentRetxTimeout d j) := fun _ => rfl
theorem statusResend : Statement (.statusResend) := fun _ => rfl
theorem ackTimer (d : DieIx) (j : Fin 2048) : Statement (.ackTimer d j) := fun _ => rfl
theorem ethFrameReceive (p : Fin 8) (f : EthFrame) : Statement (.ethFrameReceive p f) := fun h => Bool.noConfusion h
theorem qpError (q : Fin 256) (syndrome : BitVec 8) : Statement (.qpError q syndrome) := fun _ => rfl
theorem ethLinkFault (p : Fin 8) : Statement (.ethLinkFault p) := fun _ => rfl
theorem fabricFlitReceive (d : DieIx) (j : Fin 3) (m : Fin 20) (a : FabArrival) : Statement (.fabricFlitReceive d j m a) := fun _ => rfl
theorem pageMoveComplete (i : Fin 256) : Statement (.pageMoveComplete i) := fun _ => rfl
theorem mmuInvComplete (d : DieIx) : Statement (.mmuInvComplete d) := fun _ => rfl
theorem evacuationEnd (k : Fin 16) (p : Fin 64) : Statement (.evacuationEnd k p) := fun _ => rfl
theorem add (c : CoreIx) (rd ra : RegIx) (b : SOp) : Statement (.add c rd ra b) := fun _ => rfl
theorem sub (c : CoreIx) (rd ra : RegIx) (b : SOp) : Statement (.sub c rd ra b) := fun _ => rfl
theorem and (c : CoreIx) (rd ra : RegIx) (b : SOp) : Statement (.and c rd ra b) := fun _ => rfl
theorem or (c : CoreIx) (rd ra : RegIx) (b : SOp) : Statement (.or c rd ra b) := fun _ => rfl
theorem xor (c : CoreIx) (rd ra : RegIx) (b : SOp) : Statement (.xor c rd ra b) := fun _ => rfl
theorem sll (c : CoreIx) (rd ra : RegIx) (b : ShOp) : Statement (.sll c rd ra b) := fun _ => rfl
theorem srl (c : CoreIx) (rd ra : RegIx) (b : ShOp) : Statement (.srl c rd ra b) := fun _ => rfl
theorem sra (c : CoreIx) (rd ra : RegIx) (b : ShOp) : Statement (.sra c rd ra b) := fun _ => rfl
theorem slt (c : CoreIx) (rd ra : RegIx) (b : SOp) : Statement (.slt c rd ra b) := fun _ => rfl
theorem sltu (c : CoreIx) (rd ra : RegIx) (b : SOp) : Statement (.sltu c rd ra b) := fun _ => rfl
theorem min (c : CoreIx) (rd ra : RegIx) (b : SOp) : Statement (.min c rd ra b) := fun _ => rfl
theorem max (c : CoreIx) (rd ra : RegIx) (b : SOp) : Statement (.max c rd ra b) := fun _ => rfl
theorem minu (c : CoreIx) (rd ra : RegIx) (b : SOp) : Statement (.minu c rd ra b) := fun _ => rfl
theorem maxu (c : CoreIx) (rd ra : RegIx) (b : SOp) : Statement (.maxu c rd ra b) := fun _ => rfl
theorem mul (c : CoreIx) (rd ra rb : RegIx) : Statement (.mul c rd ra rb) := fun _ => rfl
theorem mulh (c : CoreIx) (rd ra rb : RegIx) : Statement (.mulh c rd ra rb) := fun _ => rfl
theorem mulhu (c : CoreIx) (rd ra rb : RegIx) : Statement (.mulhu c rd ra rb) := fun _ => rfl
theorem div (c : CoreIx) (rd ra rb : RegIx) : Statement (.div c rd ra rb) := fun _ => rfl
theorem divu (c : CoreIx) (rd ra rb : RegIx) : Statement (.divu c rd ra rb) := fun _ => rfl
theorem rem (c : CoreIx) (rd ra rb : RegIx) : Statement (.rem c rd ra rb) := fun _ => rfl
theorem remu (c : CoreIx) (rd ra rb : RegIx) : Statement (.remu c rd ra rb) := fun _ => rfl
theorem li (c : CoreIx) (rd : RegIx) (v : BitVec 48) : Statement (.li c rd v) := fun _ => rfl
theorem lih (c : CoreIx) (rd : RegIx) (v : BitVec 16) : Statement (.lih c rd v) := fun _ => rfl
theorem beq (c : CoreIx) (ra rb : RegIx) (off : BitVec 32) : Statement (.beq c ra rb off) := fun _ => rfl
theorem bne (c : CoreIx) (ra rb : RegIx) (off : BitVec 32) : Statement (.bne c ra rb off) := fun _ => rfl
theorem blt (c : CoreIx) (ra rb : RegIx) (off : BitVec 32) : Statement (.blt c ra rb off) := fun _ => rfl
theorem bge (c : CoreIx) (ra rb : RegIx) (off : BitVec 32) : Statement (.bge c ra rb off) := fun _ => rfl
theorem bltu (c : CoreIx) (ra rb : RegIx) (off : BitVec 32) : Statement (.bltu c ra rb off) := fun _ => rfl
theorem bgeu (c : CoreIx) (ra rb : RegIx) (off : BitVec 32) : Statement (.bgeu c ra rb off) := fun _ => rfl
theorem jal (c : CoreIx) (rd : RegIx) (off : BitVec 32) : Statement (.jal c rd off) := fun _ => rfl
theorem jalr (c : CoreIx) (rd ra : RegIx) (imm : BitVec 32) : Statement (.jalr c rd ra imm) := fun _ => rfl
theorem tret (c : CoreIx) : Statement (.tret c) := fun _ => rfl
theorem ld (c : CoreIx) (rd ra : RegIx) (sz : MemSz) (sgn loc : Bool) (imm : BitVec 32) : Statement (.ld c rd ra sz sgn loc imm) := fun _ => rfl
theorem st (c : CoreIx) (rs ra : RegIx) (sz : MemSz) (loc : Bool) (imm : BitVec 32) : Statement (.st c rs ra sz loc imm) := fun _ => rfl
theorem vld (c : CoreIx) (vd ra : RegIx) (p : PredIx) (t : VTy) (loc : Bool) (imm : BitVec 32) : Statement (.vld c vd ra p t loc imm) := fun _ => rfl
theorem vst (c : CoreIx) (vd ra : RegIx) (p : PredIx) (t : VTy) (loc : Bool) (imm : BitVec 32) : Statement (.vst c vd ra p t loc imm) := fun _ => rfl
theorem thl (c : CoreIx) (th : HndIx) (kind : HndKind) (ra rc : RegIx) : Statement (.thl c th kind ra rc) := fun _ => rfl
theorem tld (c : CoreIx) (vd : RegIx) (th : HndIx) (p : PredIx) (t : VTy) (adv : Bool) : Statement (.tld c vd th p t adv) := fun _ => rfl
theorem tst (c : CoreIx) (vd : RegIx) (th : HndIx) (p : PredIx) (t : VTy) (adv : Bool) : Statement (.tst c vd th p t adv) := fun _ => rfl
theorem thcRead (c : CoreIx) (rd : RegIx) (th : HndIx) : Statement (.thcRead c rd th) := fun _ => rfl
theorem thcSet (c : CoreIx) (th : HndIx) (rc : RegIx) : Statement (.thcSet c th rc) := fun _ => rfl
theorem thcAdd (c : CoreIx) (th : HndIx) (rc : RegIx) : Statement (.thcAdd c th rc) := fun _ => rfl
theorem vadd (c : CoreIx) (vd va : RegIx) (b : VB) (p : PredIx) (t : FTy) : Statement (.vadd c vd va b p t) := fun _ => rfl
theorem vsub (c : CoreIx) (vd va : RegIx) (b : VB) (p : PredIx) (t : FTy) : Statement (.vsub c vd va b p t) := fun _ => rfl
theorem vmul (c : CoreIx) (vd va : RegIx) (b : VB) (p : PredIx) (t : FTy) : Statement (.vmul c vd va b p t) := fun _ => rfl
theorem vfma (c : CoreIx) (vd va : RegIx) (b : VB) (vc : RegIx) (p : PredIx) (t : FTy) : Statement (.vfma c vd va b vc p t) := fun _ => rfl
theorem vfms (c : CoreIx) (vd va : RegIx) (b : VB) (vc : RegIx) (p : PredIx) (t : FTy) : Statement (.vfms c vd va b vc p t) := fun _ => rfl
theorem vfnma (c : CoreIx) (vd va : RegIx) (b : VB) (vc : RegIx) (p : PredIx) (t : FTy) : Statement (.vfnma c vd va b vc p t) := fun _ => rfl
theorem vmin (c : CoreIx) (vd va : RegIx) (b : VB) (p : PredIx) (t : FTy) : Statement (.vmin c vd va b p t) := fun _ => rfl
theorem vmax (c : CoreIx) (vd va : RegIx) (b : VB) (p : PredIx) (t : FTy) : Statement (.vmax c vd va b p t) := fun _ => rfl
theorem vabs (c : CoreIx) (vd va : RegIx) (p : PredIx) (t : FTy) : Statement (.vabs c vd va p t) := fun _ => rfl
theorem vneg (c : CoreIx) (vd va : RegIx) (p : PredIx) (t : FTy) : Statement (.vneg c vd va p t) := fun _ => rfl
theorem vdiv (c : CoreIx) (vd va : RegIx) (b : VB) (p : PredIx) (t : FTy) : Statement (.vdiv c vd va b p t) := fun _ => rfl
theorem vsqrt (c : CoreIx) (vd va : RegIx) (p : PredIx) (t : FTy) : Statement (.vsqrt c vd va p t) := fun _ => rfl
theorem vaddInt (c : CoreIx) (vd va : RegIx) (b : VB) (p : PredIx) (t : ITy) : Statement (.vaddInt c vd va b p t) := fun _ => rfl
theorem vsubInt (c : CoreIx) (vd va : RegIx) (b : VB) (p : PredIx) (t : ITy) : Statement (.vsubInt c vd va b p t) := fun _ => rfl
theorem vmulInt (c : CoreIx) (vd va : RegIx) (b : VB) (p : PredIx) (t : ITy) : Statement (.vmulInt c vd va b p t) := fun _ => rfl
theorem vminInt (c : CoreIx) (vd va : RegIx) (b : VB) (p : PredIx) (t : ITy) : Statement (.vminInt c vd va b p t) := fun _ => rfl
theorem vmaxInt (c : CoreIx) (vd va : RegIx) (b : VB) (p : PredIx) (t : ITy) : Statement (.vmaxInt c vd va b p t) := fun _ => rfl
theorem vminu (c : CoreIx) (vd va : RegIx) (b : VB) (p : PredIx) (t : ITy) : Statement (.vminu c vd va b p t) := fun _ => rfl
theorem vmaxu (c : CoreIx) (vd va : RegIx) (b : VB) (p : PredIx) (t : ITy) : Statement (.vmaxu c vd va b p t) := fun _ => rfl
theorem vand (c : CoreIx) (vd va : RegIx) (b : VB) (p : PredIx) (t : ITy) : Statement (.vand c vd va b p t) := fun _ => rfl
theorem vor (c : CoreIx) (vd va : RegIx) (b : VB) (p : PredIx) (t : ITy) : Statement (.vor c vd va b p t) := fun _ => rfl
theorem vxor (c : CoreIx) (vd va : RegIx) (b : VB) (p : PredIx) (t : ITy) : Statement (.vxor c vd va b p t) := fun _ => rfl
theorem vsll (c : CoreIx) (vd va : RegIx) (b : VB) (p : PredIx) (t : ITy) : Statement (.vsll c vd va b p t) := fun _ => rfl
theorem vsrl (c : CoreIx) (vd va : RegIx) (b : VB) (p : PredIx) (t : ITy) : Statement (.vsrl c vd va b p t) := fun _ => rfl
theorem vsra (c : CoreIx) (vd va : RegIx) (b : VB) (p : PredIx) (t : ITy) : Statement (.vsra c vd va b p t) := fun _ => rfl
theorem vcmp (c : CoreIx) (pd : PredIx) (va : RegIx) (b : VB) (p : PredIx) (k : CmpSel) : Statement (.vcmp c pd va b p k) := fun _ => rfl
theorem vcvt (c : CoreIx) (vd va : RegIx) (p : PredIx) (t t2 : VTy) (part : BitVec 2) : Statement (.vcvt c vd va p t t2 part) := fun _ => rfl
theorem vbcast (c : CoreIx) (vd sr : RegIx) (p : PredIx) (t : ATy) : Statement (.vbcast c vd sr p t) := fun _ => rfl
theorem vext (c : CoreIx) (rd va sr : RegIx) (t : ATy) : Statement (.vext c rd va sr t) := fun _ => rfl
theorem vperm (c : CoreIx) (vd va : RegIx) (b : VB) (p : PredIx) (t : ATy) : Statement (.vperm c vd va b p t) := fun _ => rfl
theorem vslideup (c : CoreIx) (vd va sr : RegIx) (p : PredIx) (t : ATy) : Statement (.vslideup c vd va sr p t) := fun _ => rfl
theorem vslidedn (c : CoreIx) (vd va sr : RegIx) (p : PredIx) (t : ATy) : Statement (.vslidedn c vd va sr p t) := fun _ => rfl
theorem vredAdd (c : CoreIx) (vd va : RegIx) (p : PredIx) (t : ATy) : Statement (.vredAdd c vd va p t) := fun _ => rfl
theorem vredMax (c : CoreIx) (vd va : RegIx) (p : PredIx) (t : ATy) : Statement (.vredMax c vd va p t) := fun _ => rfl
theorem vredMin (c : CoreIx) (vd va : RegIx) (p : PredIx) (t : ATy) : Statement (.vredMin c vd va p t) := fun _ => rfl
theorem viota (c : CoreIx) (vd : RegIx) (p : PredIx) (t : ITy) : Statement (.viota c vd p t) := fun _ => rfl
theorem pand (c : CoreIx) (pd pa pb : PredIx) : Statement (.pand c pd pa pb) := fun _ => rfl
theorem por (c : CoreIx) (pd pa pb : PredIx) : Statement (.por c pd pa pb) := fun _ => rfl
theorem pxor (c : CoreIx) (pd pa pb : PredIx) : Statement (.pxor c pd pa pb) := fun _ => rfl
theorem pandn (c : CoreIx) (pd pa pb : PredIx) : Statement (.pandn c pd pa pb) := fun _ => rfl
theorem pnot (c : CoreIx) (pd pa : PredIx) : Statement (.pnot c pd pa) := fun _ => rfl
theorem pset (c : CoreIx) (pd : PredIx) : Statement (.pset c pd) := fun _ => rfl
theorem pclr (c : CoreIx) (pd : PredIx) : Statement (.pclr c pd) := fun _ => rfl
theorem pcnt (c : CoreIx) (rd : RegIx) (pa : PredIx) : Statement (.pcnt c rd pa) := fun _ => rfl
theorem pfirst (c : CoreIx) (rd : RegIx) (pa : PredIx) : Statement (.pfirst c rd pa) := fun _ => rfl
theorem vsfExp (c : CoreIx) (vd va : RegIx) (p : PredIx) : Statement (.vsfExp c vd va p) := fun _ => rfl
theorem vsfExp2 (c : CoreIx) (vd va : RegIx) (p : PredIx) : Statement (.vsfExp2 c vd va p) := fun _ => rfl
theorem vsfLog (c : CoreIx) (vd va : RegIx) (p : PredIx) : Statement (.vsfLog c vd va p) := fun _ => rfl
theorem vsfLog2 (c : CoreIx) (vd va : RegIx) (p : PredIx) : Statement (.vsfLog2 c vd va p) := fun _ => rfl
theorem vsfRecip (c : CoreIx) (vd va : RegIx) (p : PredIx) : Statement (.vsfRecip c vd va p) := fun _ => rfl
theorem vsfSqrt (c : CoreIx) (vd va : RegIx) (p : PredIx) : Statement (.vsfSqrt c vd va p) := fun _ => rfl
theorem vsfRsqrt (c : CoreIx) (vd va : RegIx) (p : PredIx) : Statement (.vsfRsqrt c vd va p) := fun _ => rfl
theorem vsfSin (c : CoreIx) (vd va : RegIx) (p : PredIx) : Statement (.vsfSin c vd va p) := fun _ => rfl
theorem vsfCos (c : CoreIx) (vd va : RegIx) (p : PredIx) : Statement (.vsfCos c vd va p) := fun _ => rfl
theorem vsfTanh (c : CoreIx) (vd va : RegIx) (p : PredIx) : Statement (.vsfTanh c vd va p) := fun _ => rfl
theorem vsfSigmoid (c : CoreIx) (vd va : RegIx) (p : PredIx) : Statement (.vsfSigmoid c vd va p) := fun _ => rfl
theorem vsfErf (c : CoreIx) (vd va : RegIx) (p : PredIx) : Statement (.vsfErf c vd va p) := fun _ => rfl
theorem amoAdd (c : CoreIx) (rd ra rb : RegIx) (sz : AmoSz) : Statement (.amoAdd c rd ra rb sz) := fun _ => rfl
theorem amoMin (c : CoreIx) (rd ra rb : RegIx) (sz : AmoSz) : Statement (.amoMin c rd ra rb sz) := fun _ => rfl
theorem amoMax (c : CoreIx) (rd ra rb : RegIx) (sz : AmoSz) : Statement (.amoMax c rd ra rb sz) := fun _ => rfl
theorem amoSwp (c : CoreIx) (rd ra rb : RegIx) (sz : AmoSz) : Statement (.amoSwp c rd ra rb sz) := fun _ => rfl
theorem amoCas (c : CoreIx) (rd ra rb rc : RegIx) (sz : AmoSz) : Statement (.amoCas c rd ra rb rc sz) := fun _ => rfl
theorem fenceL (c : CoreIx) : Statement (.fenceL c) := fun _ => rfl
theorem fenceS (c : CoreIx) : Statement (.fenceS c) := fun _ => rfl
theorem fenceA (c : CoreIx) : Statement (.fenceA c) := fun _ => rfl
theorem fenceUQueue (c : CoreIx) (t : Target) : Statement (.fenceUQueue c t) := fun _ => rfl
theorem fenceUToken (c : CoreIx) (k : TokIx) : Statement (.fenceUToken c k) := fun _ => rfl
theorem tideWait (c : CoreIx) (rd : RegIx) (target : TideTarget) : Statement (.tideWait c rd target) := fun _ => rfl
theorem bar (c : CoreIx) (id : Fin 16) : Statement (.bar c id) := fun _ => rfl
theorem tokenSet (c : CoreIx) (k : TokIx) : Statement (.tokenSet c k) := fun _ => rfl
theorem tokenWait (c : CoreIx) (k : TokIx) (rd : RegIx) : Statement (.tokenWait c k rd) := fun _ => rfl
theorem csrRd (c : CoreIx) (rd : RegIx) (csr : BitVec 12) : Statement (.csrRd c rd csr) := fun _ => rfl
theorem csrWr (c : CoreIx) (ra : RegIx) (csr : BitVec 12) : Statement (.csrWr c ra csr) := fun _ => rfl
theorem ctlRd (c : CoreIx) (rd ra : RegIx) : Statement (.ctlRd c rd ra) := fun _ => rfl
theorem ctlWr (c : CoreIx) (ra rb : RegIx) : Statement (.ctlWr c ra rb) := fun _ => rfl
theorem trap (c : CoreIx) (imm : BitVec 32) : Statement (.trap c imm) := fun _ => rfl
theorem halt (c : CoreIx) : Statement (.halt c) := fun _ => rfl
theorem deferredTrapArrive (c : CoreIx) : Statement (.deferredTrapArrive c) := fun _ => rfl
theorem trapEntry (c : CoreIx) (parity : Option ParityFail) : Statement (.trapEntry c parity) := fun _ => rfl
theorem issueResume (c : CoreIx) : Statement (.issueResume c) := fun _ => rfl
theorem commandEnqueue (c : CoreIx) (t : Target) : Statement (.commandEnqueue c t) := fun _ => rfl
theorem tokenCompletion (c : CoreIx) : Statement (.tokenCompletion c) := fun _ => rfl
theorem granuleComplete (cl : ClusterIx) (cost : BitVec 32) : Statement (.granuleComplete cl cost) := fun _ => rfl
theorem panLds (c : CoreIx) (tk : TokIx) (rb : RegIx) (loff : BitVec 14) (turn narrow : Bool) (fold : FoldSel) : Statement (.panLds c tk rb loff turn narrow fold) := fun _ => rfl
theorem panStr (c : CoreIx) (tk : TokIx) (rb : RegIx) (loff : BitVec 14) (swap win : Bool) (slot : Slot) : Statement (.panStr c tk rb loff swap win slot) := fun _ => rfl
theorem panMm (c : CoreIx) (tk : TokIx) (rb : RegIx) (loff : BitVec 14) (turn win : Bool) (slot : Slot) (fold : FoldSel) : Statement (.panMm c tk rb loff turn win slot fold) := fun _ => rfl
theorem panRake (c : CoreIx) (tk : TokIx) (rb : RegIx) (loff : BitVec 14) (slot : Fin 4) : Statement (.panRake c tk rb loff slot) := fun _ => rfl
theorem panFill (c : CoreIx) (tk : TokIx) (rb : RegIx) (loff : BitVec 14) (turn : Bool) (slot : Slot) : Statement (.panFill c tk rb loff turn slot) := fun _ => rfl
theorem panFillFlush (c : CoreIx) (tk : TokIx) : Statement (.panFillFlush c tk) := fun _ => rfl
theorem panTwin (c : CoreIx) (tk : TokIx) (rb : RegIx) (loff : BitVec 14) (turn xt : Bool) (xslot : Slot) (side acc : Bool) (gslot : Slot) (tw : TokIx) : Statement (.panTwin c tk rb loff turn xt xslot side acc gslot tw) := fun _ => rfl
theorem panCommandBegin (p : ClusterIx) : Statement (.panCommandBegin p) := fun _ => rfl
theorem panPassComplete (p : ClusterIx) (ups : List Upset) : Statement (.panPassComplete p ups) := fun _ => rfl
theorem panCommandComplete (p : ClusterIx) : Statement (.panCommandComplete p) := fun _ => rfl
theorem panClockGate (p : ClusterIx) : Statement (.panClockGate p) := fun _ => rfl
theorem replayRun (d : DieIx) (i : Fin 16) (ups : List Upset) : Statement (.replayRun d i ups) := fun _ => rfl
theorem thirdRun (d : DieIx) (i : Fin 16) (ups : List Upset) : Statement (.thirdRun d i ups) := fun _ => rfl
theorem writeBack (d : DieIx) (i : Fin 16) (ups : List Upset) : Statement (.writeBack d i ups) := fun _ => rfl
theorem replayRecordFreed (d : DieIx) : Statement (.replayRecordFreed d) := fun _ => rfl
theorem sluCopy (c : CoreIx) (tk : TokIx) (rb : RegIx) (loff : BitVec 14) (sl : SlSel) (press : Press) : Statement (.sluCopy c tk rb loff sl press) := fun _ => rfl
theorem sluGather (c : CoreIx) (tk : TokIx) (rb : RegIx) (loff : BitVec 14) (sl : SlSel) : Statement (.sluGather c tk rb loff sl) := fun _ => rfl
theorem sluScatter (c : CoreIx) (tk : TokIx) (rb : RegIx) (loff : BitVec 14) (sl : SlSel) (add : Bool) : Statement (.sluScatter c tk rb loff sl add) := fun _ => rfl
theorem sluReduce (c : CoreIx) (tk : TokIx) (rb : RegIx) (loff : BitVec 14) (sl : SlSel) (op : RedOp) : Statement (.sluReduce c tk rb loff sl op) := fun _ => rfl
theorem sluAllReduce (c : CoreIx) (tk : TokIx) (rb : RegIx) (loff : BitVec 14) (sl : SlSel) (op : RedOp) : Statement (.sluAllReduce c tk rb loff sl op) := fun _ => rfl
theorem sluReduceScatter (c : CoreIx) (tk : TokIx) (rb : RegIx) (loff : BitVec 14) (sl : SlSel) (op : RedOp) : Statement (.sluReduceScatter c tk rb loff sl op) := fun _ => rfl
theorem sluAllGather (c : CoreIx) (tk : TokIx) (rb : RegIx) (loff : BitVec 14) (sl : SlSel) (op : RedOp) : Statement (.sluAllGather c tk rb loff sl op) := fun _ => rfl
theorem sluAllToAll (c : CoreIx) (tk : TokIx) (rb : RegIx) (loff : BitVec 14) (sl : SlSel) (op : RedOp) : Statement (.sluAllToAll c tk rb loff sl op) := fun _ => rfl
theorem sluXmitWrite (c : CoreIx) (tk : TokIx) (rb : RegIx) (loff : BitVec 14) (sl : SlSel) : Statement (.sluXmitWrite c tk rb loff sl) := fun _ => rfl
theorem sluXmitRead (c : CoreIx) (tk : TokIx) (rb : RegIx) (loff : BitVec 14) (sl : SlSel) : Statement (.sluXmitRead c tk rb loff sl) := fun _ => rfl
theorem sluXmitRed (c : CoreIx) (tk : TokIx) (rb : RegIx) (loff : BitVec 14) (sl : SlSel) : Statement (.sluXmitRed c tk rb loff sl) := fun _ => rfl
theorem sluXmitSend (c : CoreIx) (tk : TokIx) (rb : RegIx) (loff : BitVec 14) (sl : SlSel) : Statement (.sluXmitSend c tk rb loff sl) := fun _ => rfl
theorem sluWait (c : CoreIx) (tk : TokIx) (rb : RegIx) (loff : BitVec 14) (sl : SlSel) : Statement (.sluWait c tk rb loff sl) := fun _ => rfl
theorem sluWaitSatisfied (d : DieIx) (n : Fin 64) : Statement (.sluWaitSatisfied d n) := fun _ => rfl
theorem sluCommandStart (i : SluIx) : Statement (.sluCommandStart i) := fun _ => rfl
theorem sluCommandComplete (i : SluIx) (k : Fin 4) : Statement (.sluCommandComplete i k) := fun _ => rfl
theorem collChunkReceive (d : DieIx) : Statement (.collChunkReceive d) := fun _ => rfl
theorem brnBatch (c : CoreIx) (tk : TokIx) (rb : RegIx) (loff : BitVec 14) : Statement (.brnBatch c tk rb loff) := fun _ => rfl
theorem batchBegin (d : DieIx) : Statement (.batchBegin d) := fun _ => rfl
theorem dictLoadComplete (d : DieIx) : Statement (.dictLoadComplete d) := fun _ => rfl
theorem recordArrive (d : DieIx) (k : Fin 2) (res : Bool) (ix : BitVec 14) (array tries : Fin 5) : Statement (.recordArrive d k res ix array tries) := fun _ => rfl
theorem decodeComplete (d : DieIx) (k : Fin 4) (ns : BitVec 32) : Statement (.decodeComplete d k ns) := fun _ => rfl
theorem decodeOverBudget (d : DieIx) (k : Fin 4) (ns : BitVec 32) : Statement (.decodeOverBudget d k ns) := fun _ => rfl
theorem batchComplete (d : DieIx) : Statement (.batchComplete d) := fun _ => rfl
theorem xtlRun (c : CoreIx) (tk : TokIx) (rb : RegIx) (lx : Fin 8) (first last : BitVec 8) : Statement (.xtlRun c tk rb lx first last) := fun _ => rfl
theorem xtlRunBegin (x : XtlIx) (tries : List (BitVec 8 × Nat × Fin 5 × Fin 5)) (cut : Option (BitVec 8)) : Statement (.xtlRunBegin x tries cut) := fun _ => rfl
theorem xtlSeal (c : CoreIx) (tk : TokIx) (rb : RegIx) (skip : Bool) : Statement (.xtlSeal c tk rb skip) := fun _ => rfl
theorem sealDrain (c : CoreIx) : Statement (.sealDrain c) := fun _ => rfl
theorem localStatusFinal (p : Fin 4) (i : Fin 8) : Statement (.localStatusFinal p i) := fun _ => rfl
theorem xtlBind (c : CoreIx) (tk : TokIx) (rb : RegIx) (loff : BitVec 14) (lx : Fin 8) (slot : BitVec 8) : Statement (.xtlBind c tk rb loff lx slot) := fun _ => rfl
theorem xtlUnbind (c : CoreIx) (tk : TokIx) (lx : Fin 8) (slot : BitVec 8) : Statement (.xtlUnbind c tk lx slot) := fun _ => rfl
theorem xtlEntry (c : CoreIx) (tk : TokIx) (rb : RegIx) (loff : BitVec 14) (lx : Fin 8) (group : BitVec 10) : Statement (.xtlEntry c tk rb loff lx group) := fun _ => rfl
theorem xtlInit (c : CoreIx) (tk : TokIx) (rb : RegIx) (loff : BitVec 14) (lx : Fin 8) (slot : BitVec 8) : Statement (.xtlInit c tk rb loff lx slot) := fun _ => rfl
theorem xtlGather (c : CoreIx) (tk : TokIx) (rb : RegIx) (loff : BitVec 14) (lx : Fin 8) (slot : BitVec 8) : Statement (.xtlGather c tk rb loff lx slot) := fun _ => rfl
theorem xtlResetComplete (x : XtlIx) : Statement (.xtlResetComplete x) := fun _ => rfl
theorem registerWrite (m : Fin 8) (off v : BitVec 64) : Statement (.registerWrite m off v) := fun _ => rfl
theorem tidePeriodWrite (v : BitVec 64) : Statement (.tidePeriodWrite v) := fun _ => rfl
theorem snapReqWrite (t : BitVec 64) : Statement (.snapReqWrite t) := fun _ => rfl
theorem grqTailWrite (c : ClusterIx) (t : BitVec 6) : Statement (.grqTailWrite c t) := fun _ => rfl
theorem coreKill (c : CoreIx) : Statement (.coreKill c) := fun _ => rfl
theorem coreStart (c : CoreIx) : Statement (.coreStart c) := fun _ => rfl
theorem xtlCtlReset (x : XtlIx) (force : Bool) : Statement (.xtlCtlReset x force) := fun _ => rfl
theorem panFuseProgWrite (p : ClusterIx) (v : BitVec 16) : Statement (.panFuseProgWrite p v) := fun _ => rfl
theorem stkAlloc (v : BitVec 64) : Statement (.stkAlloc v) := fun _ => rfl
theorem stkFree (v : BitVec 64) : Statement (.stkFree v) := fun _ => rfl
theorem stkMove (v : BitVec 64) : Statement (.stkMove v) := fun _ => rfl
theorem stkMoveComplete : Statement (.stkMoveComplete) := fun _ => rfl
theorem mmuInvalidate (d : DieIx) (v : BitVec 64) : Statement (.mmuInvalidate d v) := fun _ => rfl
theorem evacRetry (k : Fin 16) : Statement (.evacRetry k) := fun _ => rfl
theorem brineEnable (d : DieIx) : Statement (.brineEnable d) := fun _ => rfl
theorem brineDisable (d : DieIx) : Statement (.brineDisable d) := fun _ => rfl
theorem softCompletion (d : DieIx) (entry : BitVec 10) (status : BitVec 2) : Statement (.softCompletion d entry status) := fun _ => rfl
theorem linkEnable (p : PortIx) (v : BitVec 64) : Statement (.linkEnable p v) := fun _ => rfl
theorem linkUnretire (p : PortIx) : Statement (.linkUnretire p) := fun _ => rfl
theorem knockSend (p : PortIx) : Statement (.knockSend p) := fun _ => rfl
theorem laserCtlRelease (b : Fin 16) : Statement (.laserCtlRelease b) := fun _ => rfl
theorem tuConnValidWrite (d : DieIx) (j : Fin 2048) (die : Fin 4) (dev : BitVec 16) : Statement (.tuConnValidWrite d j die dev) := fun _ => rfl
theorem redoRelease (step : BitVec 48) (p : PartIx) : Statement (.redoRelease step p) := fun _ => rfl
theorem fenceSet (u : FenceUnit) : Statement (.fenceSet u) := fun _ => rfl
theorem fenceClear (u : FenceUnit) : Statement (.fenceClear u) := fun _ => rfl
theorem intModeWrite (v : BitVec 64) : Statement (.intModeWrite v) := fun _ => rfl
theorem cvEnable (n : Fin 16) (v : BitVec 64) : Statement (.cvEnable n v) := fun _ => rfl
theorem cvContextStart (n : Fin 16) (k : Fin 16) (v : BitVec 64) : Statement (.cvContextStart n k v) := fun _ => rfl
theorem cvValWrite (n : Fin 16) (k : Fin 16) (v : BitVec 64) : Statement (.cvValWrite n k v) := fun _ => rfl
theorem traceEnable (d : DieIx) (v : BitVec 64) : Statement (.traceEnable d v) := fun _ => rfl
theorem pwrClassWrite (c : Fin 4) : Statement (.pwrClassWrite c) := fun _ => rfl
theorem pwrCapSchedWrite (v : BitVec 64) : Statement (.pwrCapSchedWrite v) := fun _ => rfl
theorem pwrOrderWrite (v : BitVec 64) : Statement (.pwrOrderWrite v) := fun _ => rfl
theorem pwrFloorWrite (v : BitVec 64) : Statement (.pwrFloorWrite v) := fun _ => rfl
theorem energyMarkWrite (p : PartIx) (t : BitVec 64) : Statement (.energyMarkWrite p t) := fun _ => rfl
theorem pwrReqM0 : Statement (.pwrReqM0) := fun _ => rfl
theorem pwrReqM1 : Statement (.pwrReqM1) := fun _ => rfl
theorem pwrReqM2 : Statement (.pwrReqM2) := fun _ => rfl
theorem pwrReqM3 : Statement (.pwrReqM3) := fun _ => rfl
theorem heartbeatWrite (v : BitVec 64) : Statement (.heartbeatWrite v) := fun _ => rfl
theorem secLifecycleWrite (st : Fin 4) : Statement (.secLifecycleWrite st) := fun _ => rfl
theorem secOwnerKeyWrite (k : BitVec 5) : Statement (.secOwnerKeyWrite k) := fun _ => rfl
theorem secDebugUnlock : Statement (.secDebugUnlock) := fun _ => rfl
theorem claim (o : BitVec 8) (r : BitVec 16) : Statement (.claim o r) := fun _ => rfl
theorem claimRelease (o : BitVec 8) (r : BitVec 16) : Statement (.claimRelease o r) := fun _ => rfl
theorem claimQuery (o : BitVec 8) (r : BitVec 16) : Statement (.claimQuery o r) := fun _ => rfl
theorem mboxEnd (p : PartIx) : Statement (.mboxEnd p) := fun _ => rfl
theorem mboxAlloc (p : PartIx) : Statement (.mboxAlloc p) := fun _ => rfl
theorem mboxFree (p : PartIx) : Statement (.mboxFree p) := fun _ => rfl
theorem mboxMove (p : PartIx) : Statement (.mboxMove p) := fun _ => rfl
theorem ckptWrite (p : PartIx) (plan : List CkptRegion) (t : CkptTarget) : Statement (.ckptWrite p plan t) := fun h => Bool.noConfusion h
theorem ckptRead (p : PartIx) (plan : List CkptRegion) (back : List (List Byte × BitVec 64)) : Statement (.ckptRead p plan back) := fun h => Bool.noConfusion h
theorem mboxSnapshot (p : PartIx) : Statement (.mboxSnapshot p) := fun _ => rfl
theorem mboxClearDropped (p : PartIx) : Statement (.mboxClearDropped p) := fun _ => rfl
theorem sessionOpen (ses : Fin 16) (o : SesOffer) : Statement (.sessionOpen ses o) := fun h => Bool.noConfusion h
theorem hello (h : CmdHdr) : Statement (.hello h) := fun _ => rfl
theorem evtAck (h : CmdHdr) (n : BitVec 64) : Statement (.evtAck h n) := fun _ => rfl
theorem query (h : CmdHdr) (q : Query) : Statement (.query h q) := fun _ => rfl
theorem jobSubmit (h : CmdHdr) (bad : Bool) (m : Manifest) : Statement (.jobSubmit h bad m) := fun h => Bool.noConfusion h
theorem jobAbort (h : CmdHdr) (bad : Bool) (id : BitVec 64) : Statement (.jobAbort h bad id) := fun _ => rfl
theorem jobEnd (p : PartIx) (why : EndWhy) : Statement (.jobEnd p why) := fun _ => rfl
theorem setCap (h : CmdHdr) (bad : Bool) (cap : BitVec 9) (target : Option (BitVec 48)) : Statement (.setCap h bad cap target) := fun _ => rfl
theorem snapshot (h : CmdHdr) (bad : Bool) (t : BitVec 64) : Statement (.snapshot h bad t) := fun _ => rfl
theorem powerState (h : CmdHdr) (bad : Bool) (t : Fin 4) : Statement (.powerState h bad t) := fun _ => rfl
theorem laserRelease (h : CmdHdr) (bad : Bool) (b : Fin 16) : Statement (.laserRelease h bad b) := fun _ => rfl
theorem xtlReset (h : CmdHdr) (bad : Bool) (x : XtlIx) (force : Bool) : Statement (.xtlReset h bad x force) := fun _ => rfl
theorem fence (h : CmdHdr) (bad : Bool) (u : FenceUnit) (set : Bool) : Statement (.fence h bad u set) := fun _ => rfl
theorem fwStage (h : CmdHdr) (bad : Bool) (i : SlotImage) : Statement (.fwStage h bad i) := fun h => Bool.noConfusion h
theorem fwActivate (h : CmdHdr) (bad : Bool) (k : Fin 2) (t : BitVec 64) : Statement (.fwActivate h bad k t) := fun _ => rfl
theorem fwHandover (ok : Bool) : Statement (.fwHandover ok) := fun _ => rfl
theorem ucodeLoad (h : CmdHdr) (bad : Bool) (u : Ucode) : Statement (.ucodeLoad h bad u) := fun h => Bool.noConfusion h
theorem classRaise (h : CmdHdr) (bad : Bool) (c : Fin 4) : Statement (.classRaise h bad c) := fun _ => rfl
theorem ownerRotate (h : CmdHdr) (bad : Bool) (hash : List Byte) : Statement (.ownerRotate h bad hash) := fun h => Bool.noConfusion h
theorem lifecycle (h : CmdHdr) (bad : Bool) (st : Fin 4) : Statement (.lifecycle h bad st) := fun _ => rfl
theorem debugUnlock (h : CmdHdr) (bad : Bool) (token : List Byte) : Statement (.debugUnlock h bad token) := fun _ => rfl
theorem fuseProg (h : CmdHdr) (bad : Bool) (p : ClusterIx) (v : BitVec 64) : Statement (.fuseProg h bad p v) := fun _ => rfl
theorem eventRingAppend : Statement (.eventRingAppend) := fun _ => rfl
theorem balanceRound (p : PartIx) (parts : List BalPart) (t : BitVec 64) : Statement (.balanceRound p parts t) := fun h => Bool.noConfusion h
theorem metricsGet : Statement (.metricsGet) := fun _ => rfl
theorem i3cPrivateWrite (bytes : List Byte) : Statement (.i3cPrivateWrite bytes) := fun h => Bool.noConfusion h
theorem i3cPrivateRead (n : BitVec 8) : Statement (.i3cPrivateRead n) := fun _ => rfl
theorem enec (events : BitVec 8) : Statement (.enec events) := fun _ => rfl
theorem disec (events : BitVec 8) : Statement (.disec events) := fun _ => rfl
theorem rstdaa : Statement (.rstdaa) := fun _ => rfl
theorem entdaa (a : BitVec 7) : Statement (.entdaa a) := fun _ => rfl
theorem setdasa (static_ a : BitVec 7) : Statement (.setdasa static_ a) := fun _ => rfl
theorem getpid : Statement (.getpid) := fun _ => rfl
theorem getbcr : Statement (.getbcr) := fun _ => rfl
theorem getdcr : Statement (.getdcr) := fun _ => rfl
theorem getstatus : Statement (.getstatus) := fun _ => rfl
theorem extest (pins cells : BitVec 13) : Statement (.extest pins cells) := fun _ => rfl
theorem idcode : Statement (.idcode) := fun _ => rfl
theorem samplePreload (pins cells : BitVec 13) : Statement (.samplePreload pins cells) := fun _ => rfl
theorem dbgAccess : Statement (.dbgAccess) := fun _ => rfl
theorem bypass : Statement (.bypass) := fun _ => rfl
theorem tapReset : Statement (.tapReset) := fun _ => rfl
theorem ethLinkUp (p : Fin 8) : Statement (.ethLinkUp p) := fun _ => rfl
theorem vinReturn (vin : BitVec 16) (slot : BitVec 6) : Statement (.vinReturn vin slot) := fun _ => rfl
theorem droopRecovery (d : DieIx) (n : BitVec 32) : Statement (.droopRecovery d n) := fun _ => rfl
theorem lswWindowEnd (w : LswEnd) : Statement (.lswWindowEnd w) := fun _ => rfl
theorem laserRemoved (b : Fin 16) : Statement (.laserRemoved b) := fun _ => rfl
theorem knockComplete (p : PortIx) : Statement (.knockComplete p) := fun _ => rfl
theorem accessPerformed (c : CoreIx) (i : Nat) (tries : Tries) : Statement (.accessPerformed c i tries) := fun _ => rfl
theorem xtlCommandComplete (x : XtlIx) (tries : List (BitVec 8 × Nat × Fin 5 × Fin 5)) : Statement (.xtlCommandComplete x tries) := fun _ => rfl
theorem unassignedOpcode (c : CoreIx) (w : BitVec 64) : Statement (.unassignedOpcode c w) := fun _ => rfl
theorem alignTimeout (p : PartIx) : Statement (.alignTimeout p) := fun _ => rfl
theorem brokerTakeover (p : PartIx) : Statement (.brokerTakeover p) := fun _ => rfl

end Sys2Proof.Laws.Named
end

