-- ==== Sys2Proof/Tests/Slice0.lean ====
section
/-! SUPPORT. The model's own tests: what each check of WellFormed refuses, small results worked out by hand from the
rules, and for each statement with hypotheses a state and operands that meet them. -/

open Sys2Proof Sys2Proof.Machine

namespace Sys2Proof.Tests

set_option Elab.async false

/-- What a command answers, seen through `f`. -/
def after {α : Type} (r : Res) (f : State → α) : Option α :=
  match r with
  | .next t => some (f t)
  | _ => none

/-- A core that runs outside a handler, with a handler set. -/
def run0 : CoreSt := { CoreSt.reset with mode := .running, trapVec := 0x4000, pc := 0x100 }

/-- The module in service, every core halted. -/
def served : State := { State.reset with board := { BoardSt.reset with phase := .run } }

/-- In service, with core 0 as given. -/
def atCore (k : CoreSt) : State := { served with core := served.core.set 0 k }

def up : State := atCore run0

def st64 (s : State) (a v : Nat) : State := s.wrBytes a (leBytes 8 v)

/-- Partition 0 holds die 0 with a page table: 2 MiB at virtual 0, on physical 0, readable, writable and executable. -/
def mapped (s : State) : State :=
  st64 (st64 ((s.setReg 0x300100 0x80808080).setReg 0x300120 0x10001) 0x10000 0x20001) 0x20000 0x1F

def words (l : List Nat) : List (BitVec 64) := l.map (BitVec.ofNat 64)

/-- A unit command of core 0 with token 1. -/
def cmdOf (op : UnitOp) (l : List Nat) : UnitCmd := ⟨0, 1, op, words l, 0, 0⟩

/-- A descriptor of rank 1 at `va`: the format byte, base and extent, stride 1. -/
def desc1 (s : State) (va fmt base ext : Nat) : State :=
  st64 ((st64 (s.wrBytes va [BitVec.ofNat 8 fmt, 1]) (va + 8) base).wrBytes (va + 24) (leBytes 4 ext)) (va + 48) 1

/-- A descriptor of rank 2, rows by columns, dense. -/
def desc2 (s : State) (va fmt base rows cols : Nat) : State :=
  let s := st64 (s.wrBytes va [BitVec.ofNat 8 fmt, 2]) (va + 8) base
  st64 (st64 (s.wrBytes (va + 24) (leBytes 4 cols ++ leBytes 4 rows)) (va + 48) 1) (va + 56) cols

/-! Well-formedness: one refused term for each check. -/

def hdr : CmdHdr := ⟨0, 1, 0, false, 0⟩

def man0 : Manifest where
  bad := false
  jobId := 5
  seed := 0
  device := 7
  devices := [7]
  timeMaster := 7
  periodUs := 10
  dies := 1
  mask := none
  program := []
  sha := []
  entry := 0
  memory := []
  retWays := 0
  retVbase := 0
  slow := []
  groups := []
  groupsAt := 0
  groupCount := 0
  queues := []
  queuesAt := 0
  conns := []
  routes := []
  parent := none
  children := 0
  feeders := []
  balance := true
  floorW := 200
  envelopeW := 4000
  capW := 4000
  serving := false
  snapAccess := true
  softAt := 0
  grants := []

def image0 : SlotImage := ⟨true, [], 0, 0, false, [], [], [], []⟩

theorem test_wf_flit : (Instr.flitReceive 0 ⟨0, 0, false, false, 0, 0, .data 0 [0]⟩ []).wf = false ∧
    (Instr.flitReceive 0 ⟨1, 0, false, false, 0, 0, .idle⟩ []).wf = false ∧
    (Instr.flitReceive 0 ⟨1, 0, false, false, 0, 0, .data 0 (List.replicate 32 0)⟩ []).wf = true := by decide
theorem test_wf_frame : (Instr.ethFrameReceive 0 (.firmware (List.replicate 4097 0))).wf = false ∧
    (Instr.ethFrameReceive 0 (.firmware [])).wf = true := by decide +kernel
theorem test_wf_checkpoint : (Instr.ckptWrite 0 [] (.roce 0 0 0)).wf = false ∧ (Instr.ckptRead 0 [] [([], 0)]).wf = false ∧
    (Instr.ckptRead 0 [] []).wf = true := by decide
theorem test_wf_certificate : (Instr.sessionOpen 0 ⟨.mgmt 0, some [], 0, 0⟩).wf = false ∧
    (Instr.sessionOpen 0 ⟨.mgmt 0, none, 0, 0⟩).wf = true := by decide
theorem test_wf_manifest : (Instr.jobSubmit hdr false man0).wf = false ∧
    (Instr.jobSubmit hdr false { man0 with sha := List.replicate 48 0 }).wf = true := by decide +kernel
theorem test_wf_image : (Instr.fwStage hdr false image0).wf = false ∧
    (Instr.fwStage hdr false { image0 with
      head := List.replicate 208 0
      hash := List.replicate 48 0
      vsig := List.replicate 96 0
      osig := List.replicate 96 0 }).wf = true := by decide +kernel
theorem test_wf_microcode : (Instr.ucodeLoad hdr false (.brine 1 [] [] [])).wf = false ∧
    (Instr.ucodeLoad hdr false (.calibration 0 [])).wf = true := by decide
theorem test_wf_owner_key : (Instr.ownerRotate hdr false []).wf = false := by decide
theorem test_wf_balance : (Instr.balanceRound 0 [⟨7, 0, 0, 0, 0, false⟩, ⟨7, 1, 0, 0, 0, false⟩] 0).wf = false ∧
    (Instr.balanceRound 0 [⟨7, 0, 0, 0, 0, false⟩, ⟨8, 1, 0, 0, 0, false⟩] 0).wf = true := by decide
theorem test_wf_i3c : (Instr.i3cPrivateWrite []).wf = false ∧ (Instr.i3cPrivateWrite [0]).wf = true := by decide

/-! Core commands. -/

theorem test_witness_StepTakesFront :
    ({ up with pending := [.fenceL 0] } : State).pending = .fenceL 0 :: [] ∧ up.pending = [] := by decide

theorem test_witness_EveryStepKeeps : State.reset.wf = true ∧ State.reset.bounded = true ∧
    (after (step State.reset) (fun t => t.tide.ns)) = some 1 := by decide

/-- Registers 1 to 3 and the hard-wired register 0 in each place. -/
theorem test_witness_ScalarResults : up.canIssue 0 [1, 2, 3] [] = true ∧ up.canIssue 0 [0, 31] [] = true ∧
    up.canIssue 0 [1] [] = true := by decide

theorem test_add_wraps : after (exec (.add 0 1 2 (.reg 3)) (atCore ((run0.sput 2 (BitVec.allOnes 64)).sput 3 2)))
    (fun t => (t.core[0].sget 1, t.core[0].pc)) = some (1, 0x108) := by decide
theorem test_sub_imm_sign_extends : after (exec (.sub 0 1 2 (.imm 0xFFFFFFFF)) (atCore (run0.sput 2 5)))
    (fun t => t.core[0].sget 1) = some 6 := by decide
theorem test_div_least_by_minus_one :
    after (exec (.div 0 1 2 3) (atCore ((run0.sput 2 0x8000000000000000).sput 3 (BitVec.allOnes 64))))
      (fun t => t.core[0].sget 1) = some 0x8000000000000000 := by decide
theorem test_rem_by_zero : after (exec (.rem 0 1 2 3) (atCore (run0.sput 2 7))) (fun t => t.core[0].sget 1) = some 7 := by decide
theorem test_mulh_signed : after (exec (.mulh 0 1 2 3) (atCore ((run0.sput 2 (BitVec.allOnes 64)).sput 3 1)))
    (fun t => t.core[0].sget 1) = some (BitVec.allOnes 64) := by decide
theorem test_sra_amount_mod_64 : after (exec (.sra 0 1 2 (.reg 3)) (atCore ((run0.sput 2 0x8000000000000000).sput 3 65)))
    (fun t => t.core[0].sget 1) = some 0xC000000000000000 := by decide
theorem test_li_sign : after (exec (.li 0 1 0x800000000000) up) (fun t => t.core[0].sget 1) = some 0xFFFF800000000000 := by decide

/-- A branch taken backwards, and JALR whose link register is its base. -/
theorem test_branch_backwards : after (exec (.beq 0 1 2 0xFFFFFFFF) up) (fun t => t.core[0].pc) = some 0xF8 := by decide
theorem test_jalr_same_register : after (exec (.jalr 0 1 1 8) (atCore (run0.sput 1 0x200)))
    (fun t => (t.core[0].pc, t.core[0].sget 1)) = some (0x208, 0x108) := by decide

theorem test_witness_BranchesAndJumps : up.canIssue 0 [1, 2] [] = true ∧ up.canIssue 0 [1] [] = true := by decide

theorem test_witness_TrapsAndTheirReturn : up.canIssue 0 [] [] = true ∧ up.core[0].trapActive = false ∧ up.core[0].trapVec ≠ 0 ∧
    wordAssigned 0 = false ∧ (atCore { run0 with trapActive := true }).canIssue 0 [] [] = true ∧
    (atCore { run0 with trapVec := 0 }).canIssue 0 [] [] = true := by decide

theorem test_trap_entry_and_return :
    after (exec (.trap 0 9) up) (fun t => (t.core[0].pc, t.core[0].trapEpc, t.core[0].trapInfo)) = some (0x4000, 0x100, 9) ∧
    after (exec (.tret 0) (atCore { run0 with trapActive := true, trapEpc := 0x88 }))
      (fun t => (t.core[0].pc, t.core[0].trapActive)) = some (0x88, false) := by decide

def local4 : CoreSt := run0.sput 2 0xFFFF8

theorem test_witness_LocalMemoryAccess :
    let k := (atCore local4).core[0]
    let a := (k.sget 2 + (0 : BitVec 32).signExtend 64).toNat
    (atCore local4).canIssue 0 [1, 2] [] = true ∧ a % MemSz.d.bytes = 0 ∧ a + MemSz.d.bytes = 0x100000 ∧
      Memory.wf k.local_ = true := by decide

theorem test_local_store_load :
    after (exec (.st 0 1 2 .h true 0) (atCore (local4.sput 1 0x1234))) (fun t => t.core[0].local_) =
      some ⟨[⟨0xFFFF8, 0x34⟩, ⟨0xFFFF9, 0x12⟩], []⟩ ∧
    after (exec (.ld 0 1 2 .b true true 0) (atCore (local4.localStore 0xFFFF8 [0x80]))) (fun t => t.core[0].sget 1) =
      some 0xFFFFFFFFFFFFFF80 := by decide

theorem test_witness_VirtualAccessAtIssue :
    let s := mapped (atCore (run0.sput 2 0x40))
    let w (acc : AccKind) : Walk := s.xlate (s.coreCtx 0).part 0 acc false 0x40
    s.canIssue 0 [1, 2, 3, 4] [] = true ∧ (w .read).reason = none ∧ (w .read).bad = false ∧ (w .write).reason = none ∧
      (w .write).bad = false ∧ (w .atomic).reason = none ∧ (w .atomic).bad = false ∧ (w .atomic).pa = 0x40 ∧
      0x40 % AmoSz.d.bytes = 0 := by decide +kernel

theorem test_witness_VirtualAccessAtIssue_traps :
    let s := atCore ((run0.sput 2 0x43).sput 3 0x100000)
    s.canIssue 0 [1, 2] [] = true ∧ s.canIssue 0 [2] [1] = true ∧ s.core[0].trapActive = false ∧ s.core[0].trapVec ≠ 0 ∧
      0x43 % MemSz.h.bytes ≠ 0 ∧ 0x43 % 256 ≠ 0 ∧ 0x43 % AmoSz.w.bytes ≠ 0 ∧
      0x100000 % MemSz.d.bytes = 0 ∧ 0x100000 < (s.core[0].sget 3).toNat + MemSz.d.bytes ∧
      (s.xlate (s.coreCtx 0).part 0 .read false 0x40).reason.isSome = true ∧
      (s.xlate (s.coreCtx 0).part 0 .write false 0x40).reason.isSome = true := by decide +kernel

theorem test_misaligned_load_traps : after (exec (.ld 0 1 2 .w false false 0) (atCore (run0.sput 2 0x42)))
    (fun t => (t.core[0].trapCause, t.core[0].trapInfo)) = some (3, 0x42) := by decide

theorem test_witness_VectorLoadStore :
    let s := mapped (atCore (run0.sput 2 0xFFF00))
    s.canIssue 0 [2] [1] = true ∧ 0xFFF00 % 256 = 0 ∧ 0xFFF00 + 256 ≤ 0x100000 ∧
      (s.xlate (s.coreCtx 0).part 0 .read false 0xFFF00).reason = none ∧ (s.xlate (s.coreCtx 0).part 0 .read false 0xFFF00).bad = false ∧
      (s.xlate (s.coreCtx 0).part 0 .write false 0xFFF00).reason = none ∧
      (s.xlate (s.coreCtx 0).part 0 .write false 0xFFF00).bad = false ∧ Memory.wf s.core[0].local_ = true := by decide +kernel

def pendingAcc (op : AccOp) : State := mapped (atCore { run0 with acc := [⟨0x40, 0x40, op⟩] })

theorem test_witness_AccessesPerformed :
    ∀ op ∈ ([.ld 1 .w false, .st .d 7, .amo 4 .w 1 5 0] : List AccOp),
      let s := pendingAcc op
      s.clocked = true ∧ s.core[0].acc[0]? = some ⟨0x40, 0x40, op⟩ ∧ s.mayPerform 0 0 ⟨0x40, 0x40, op⟩ = true ∧
        (s.region (s.forward 0x40)).isSome = true ∧ s.poisoned (s.forward 0x40) = false ∧ s.core[0].wait = none ∧
        s.core[0].kill = false ∧ s.disp[0].bars = [] ∧ s.stk.freeing = none ∧ Memory.wf s.mem = true := by decide +kernel

theorem test_amo_add : after (exec (.accessPerformed 0 0 ⟨0, 0⟩) ((pendingAcc (.amo 0 .w 1 5 0)).wrBytes 0x40 [0xFF, 0xFF, 0xFF, 0xFF]))
    (fun t => (t.core[0].sget 1, t.rdBytes 0x40 4)) = some (0xFFFFFFFFFFFFFFFF, [4, 0, 0, 0]) := by decide +kernel

/-! Handles, vectors, synchronisation. -/

def handle0 (d : Desc) : Handle := ⟨.weave d, 3, none, 0, false, false⟩

def descF32 : Desc where
  va := 0x1000
  field := 0
  fmt := ⟨.fp32, 0, false⟩
  border := 0
  residual := false
  compressible := false
  pinned := false
  scaleDim := 0
  ownDim := 0
  base := 0x2000
  scaleBase := 0
  ext := [64]
  stride := [1]
  ownVa := 0
  ownExt := 0

def withHandle : State := mapped (atCore { run0 with hnd := run0.hnd.set 2 (some (handle0 descF32)) })

theorem test_witness_TensorHandles :
    withHandle.core[0].hnd[2] = some (handle0 descF32) ∧ withHandle.canIssue 0 [1, 3] [4] = true ∧
      laneAllowed (handle0 descF32).src.fmt false .f32 = true ∧ laneAllowed descF32.fmt true .f32 = true := by decide +kernel

theorem test_witness_TensorHandles_load :
    let s := desc1 (mapped (atCore (run0.sput 2 0x1000))) 0x1000 0 0x2000 64
    s.canIssue 0 [2, 3] [] = true ∧ (s.core[0].sget 2).toNat % 128 = 0 ∧ (s.core[0].sget 2).toNat < 2 ^ 56 ∧
      (match (((s.drain 0).coreCtx 0).loadSrc .weave (s.core[0].sget 2).toNat).1 with
        | .ok src => decide (src = .weave descF32)
        | _ => false) = true := by decide +kernel

theorem test_witness_VectorArithmetic : up.canIssue 0 [5] [1, 2, 3, 4] = true ∧ up.canIssue 0 (VB.sregs (.bc 5)) [1, 2] = true := by
  decide

/-- 1.5 + 2.25 = 3.75, and 1 / 0 = +infinity with DZ, in lane 0 of FP32. -/
theorem test_vadd_lane : after (exec (.vadd 0 1 2 (.bc 3) 0 .f32)
      (atCore ({ run0 with vreg := run0.vreg.set 2 0x3FC00000 }.sput 3 0x40100000)))
    (fun t => laneGet 32 (t.core[0].vget 1) 0) = some 0x40700000 := by decide +kernel
theorem test_vdiv_by_zero : after (exec (.vdiv 0 1 2 (.vec 3) 0 .f32) (atCore { run0 with vreg := run0.vreg.set 2 0x3F800000 }))
    (fun t => (laneGet 32 (t.core[0].vget 1) 0, t.core[0].fstat)) = some (0x7F800000, 0x18) := by decide +kernel

theorem test_witness_VectorMovesAndPredicates :
    up.canIssue 0 [1, 2] [3] = true ∧ up.canIssue 0 [2] [3, 4] = true ∧ up.canIssue 0 [] [3, 4, 5] = true ∧
      ({ run0 with preg := run0.preg.set 1 0x80 } : CoreSt).pget 1 = 0x80 ∧ (run0.pget 2) = 0 := by decide

theorem test_viota_and_pfirst :
    after (exec (.viota 0 1 0 .i32) up) (fun t => (laneGet 32 (t.core[0].vget 1) 1, laneGet 32 (t.core[0].vget 1) 63)) = some (1, 63) ∧
    after (exec (.pfirst 0 1 1) (atCore { run0 with preg := run0.preg.set 1 0x80 })) (fun t => t.core[0].sget 1) = some 7 := by
  decide +kernel

theorem test_witness_VectorCompareAndConvert :
    up.canIssue 0 [5] [1, 2] = true ∧ up.canIssue 0 [] [1, 2] = true ∧ up.core[0].trapActive = false ∧ up.core[0].trapVec ≠ 0 ∧
      (0 : BitVec 2).toNat < max VTy.f32.width VTy.bf16.width / min VTy.f32.width VTy.bf16.width ∧
      max VTy.f32.width VTy.bf16.width / min VTy.f32.width VTy.bf16.width ≤ (2 : BitVec 2).toNat ∧
      ((FTy.f32.layout.decode 0x7FC00000).isNan || (FTy.f32.layout.decode 0).isNan) = true := by decide +kernel

theorem test_witness_ReductionsAndSpecialFunctions : up.canIssue 0 [] [1, 2] = true ∧ (fFP32.decode 0x7FC00001).isNan = true ∧
    (fFP32.decode 0x80000000).isZero = true ∧ (fFP32.decode 0xBF800000).lt (vZero false) = true ∧ sfFixed 7 0x3F800000 = none := by
  decide +kernel

/-- VREDADD of I8 over the two enabled lanes 0 and 1: 200 + 100 wraps to 44. -/
theorem test_vredadd_i8 : after (exec (.vredAdd 0 1 2 1 (.i .i8))
      (atCore { run0 with vreg := run0.vreg.set 2 0xFF64C8, preg := run0.preg.set 1 3 }))
    (fun t => t.core[0].vget 1) = some 44 := by decide +kernel

def waitsFor (w : WaitKind) (l : List (TokIx × Bool)) : State :=
  atCore { run0 with wait := some ⟨w, 0, false⟩, tok := run0.tok.set 2 ⟨1, false⟩, toksIn := l }

theorem test_witness_WaitsFencesAndBarriers :
    up.canIssue 0 [] [] = true ∧ up.canIssue 0 [1] [] = true ∧ up.canIssue 0 [1, 2] [] = true ∧ (1 : BitVec 31) ≠ 0 ∧
      (up.flushHandles 0).core[0].wait = none ∧ (up.flushHandles 0).core[0].kill = false ∧ (up.flushHandles 0).core[0].trapDue = false ∧
      (∀ h : HndIx, (up.core[0].hnd[h]).all (fun q => q.staged.isNone && q.oob == 0) = true) ∧ up.inGranule 0 = false ∧
      (waitsFor (.tokenWait 2 1) [(2, true)]).core[0].toksIn = (2, true) :: [] ∧
      (waitsFor (.fenceUT 2) [(2, true)]).core[0].kill = false := by decide +kernel

def granule0 (cores : List CoreIx) : Granule := ⟨0x10000, 0, 0, 0, cores, 0, false, false⟩

def inGran (cores : List CoreIx) : State :=
  { up with disp := up.disp.set 0 { DispSt.reset with running := some (granule0 cores) } }

theorem test_witness_WaitsFencesAndBarriers_bar :
    (inGran [0, 1]).canIssue 0 [] [] = true ∧ (inGran [0, 1]).inGranule 0 = true ∧
      (inGran [0, 1]).disp[0].running = some (granule0 [0, 1]) ∧
      [0, 1].all (fun (d : CoreIx) => ([] ++ [0]).contains d) = false ∧ (inGran [0]).inGranule 0 = true ∧
      [0].all (fun (d : CoreIx) => ([] ++ [(0 : CoreIx)]).contains d && !((inGran [0]).flushHandles 0).core[d].virtPending) = true ∧
      (granule0 [0]).cores.Nodup := by decide +kernel

theorem test_token_wait_ends : after (exec (.tokenCompletion 0) (waitsFor (.tokenWait 2 1) [(2, true)]))
    (fun t => (t.core[0].sget 1, t.core[0].pc, t.core[0].wait)) = some (1, 0x108, none) := by decide

theorem test_witness_CsrAndControlWindow :
    up.canIssue 0 [1] [] = true ∧ up.canIssue 0 [1, 2] [] = true ∧ (up.coreRead 0 0x18).isSome = true ∧ openCsr 0 0x18 = none ∧
      (up.coreRead 0 0x48).isSome = true ∧ openCsr 0 0x48 = none ∧
      (up.coreRead 0 0x410).isSome = true ∧ (openCsr 0 0x410).map (·.2) = some false ∧
      (up.coreRead 0 0x418).isSome = true ∧ (openCsr 0 0x418).map (·.2) = some true ∧
      up.coreRead 0 0x7F8 = none ∧ coreFwOnly 0x10 = true ∧ (atCore (run0.sput 1 0x1000)).ctlDenied 0 0x1000 true = true ∧
      (mapped up).ctlDenied 0 (mboxReg 0) true = false ∧
      (mapped up).ctlDenied 0 0x1000 false = false ∧ up.ctlDenied 0 0x1000 false = true ∧ slotOf 0x300FFC = none := by decide +kernel

theorem test_csr_write_trap_vec : after (exec (.csrWr 0 1 3) (atCore (run0.sput 1 (BitVec.allOnes 64)))) (fun t => t.core[0].trapVec) =
    some 0x00FFFFFFFFFFFFF8 := by decide

def rec5 : TrapRec := ⟨5, 0, 0x40⟩

theorem test_witness_SignalsAndTrapEntry :
    (atCore { run0 with recsIn := [rec5] }).core[0].recsIn = rec5 :: [] ∧
      (atCore { run0 with recsIn := [rec5], recs := List.replicate 8 rec5 }).core[0].recs.length = 8 ∧
      (atCore { run0 with recsIn := [rec5], recs := List.replicate 7 rec5 }).core[0].recs.length = 7 ∧
      (atCore { run0 with toksIn := [(0, false)] }).core[0].wait = none ∧ up.clocked = true ∧
      (atCore { run0 with recs := [rec5] }).core[0].recs = rec5 :: [] ∧ (atCore { run0 with recs := [rec5] }).core[0].mode = .running ∧
      up.core[0].ready = true ∧ (WaitKind.tokenWait 0 0) ≠ .bar 3 ∧ ((Wait.mk (.tokenWait 0 0) 0 false).kind.boundary) = true := by
  decide

/-! Unit commands, pans, replay. -/

theorem test_witness_UnitCommandIssue :
    let s := atCore ((run0.sput 2 0xFFF80).sput 3 0x41)
    s.canIssue 0 [2] [] = true ∧ s.canIssue 0 [0] [] = true ∧ (s.core[0].sget 2).toNat % 64 = 0 ∧
      ((s.core[0].sget 2) + 64 * (1 : BitVec 14).setWidth 64).toNat + 64 = 0x100000 ∧
      0x100000 < ((s.core[0].sget 2) + 64 * (2 : BitVec 14).setWidth 64).toNat + 64 ∧ (s.core[0].sget 3).toNat % 64 ≠ 0 ∧
      s.core[0].trapActive = false ∧ s.core[0].trapVec ≠ 0 := by decide

def stalled0 : Stall := ⟨cmdOf .panFillFlush [], 0, 0, .pan, false, 0, false⟩

theorem test_witness_UnitCommandIssue_resume : (atCore { run0 with stall := some stalled0 }).core[0].stall = some stalled0 ∧
    (atCore { run0 with stall := some stalled0 }).clocked = true ∧ { run0 with stall := some stalled0 }.roomFor stalled0.cmd = true := by
  decide

theorem test_witness_QueuesAndGranules :
    let pan1 := cmdOf .panFillFlush []
    let twin := cmdOf (.panTwin false false .raw false false .raw 2) []
    let copy (i : SlSel) := cmdOf (.sluCopy i .none) []
    let bat := cmdOf .brnBatch []
    let ent := cmdOf (.xtlUnbind 0 3) []
    let s := atCore { run0 with bufPan := [pan1], bufBrn := [bat], bufXtl := [ent] }
    s.clocked = true ∧ pan1.core = 0 ∧ pan1.tokens.length = 1 ∧ twin.tokens.length = 2 ∧ (copy .any).op.sluSel = .any ∧
      s.fewest (s.healthySlu (clusterOf 0)) = some 0 ∧ (copy (.sl 3)).op.sluSel = .sl 3 ∧ (s.healthySlu (clusterOf 0))[3]? = some 3 ∧
      s.core[0].bufBrn = [bat] ∧ s.core[0].bufXtl = [ent] ∧
      (mapped s).xtlOf ((mapped s).partOfDie 0) ent.op.xtlLx = some 0 ∧ (mapped s).xtl[0].resetting = false := by decide +kernel

def doneGran : State :=
  { served with disp := served.disp.set 0 { DispSt.reset with running := some (granule0 [0]) } }

theorem test_witness_QueuesAndGranules_granule :
    doneGran.disp[0].running = some (granule0 [0]) ∧ doneGran.granuleDone (granule0 [0]) = true ∧
      (inGran [0]).granuleDone (granule0 [0]) = false ∧ (doneGran.sequencer 0).isSome = true ∧
      { doneGran with disp := doneGran.disp.set 0 { doneGran.disp[0] with lmap := [], avail := 0 } }.sequencer 0 = none := by
  decide +kernel

theorem test_witness_EventsAreRecorded :
    State.reset.fifo[0].length < 4096 ∧ (State.reset.coreSrc 0).die % 4 = 0 ∧
      4096 ≤ ({ State.reset with fifo := State.reset.fifo.set 0 (List.replicate 4096 ⟨0, 0, 0, 0, 0⟩) } : State).fifo[0].length := by
  decide +kernel

theorem test_witness_FormatsAndReferenceOrder :
    0x7F < 2 ^ fE5M2.width ∧ (fE5M2.decode 0x7B).isFin = true ∧ (List.replicate 32 (vZero false)).length % 32 = 0 := by decide

/-- R78: 2^24 then 1 in the reference order, summed in one segment, keeps the exact 2^24 + 1 rounded once to 2^24; the
continued product of two segments starts from the first one's FP32 result. -/
theorem test_refdot_ties : refDot [fFP32.decode 0x4B800000, fFP32.decode 0x3F800000] none = 0x4B800000 ∧
    refDot [fFP32.decode 0x40000000] (some 0x3F800000) = 0x40400000 := by decide +kernel

def isOk {α : Type} (r : Read α) : Bool :=
  match r with
  | .ok _ => true
  | _ => false

/-- BF16 operands of two rows and two columns, and an FP32 destination. -/
def mats : State :=
  (desc2 (desc2 (desc2 (mapped up) 0x100000 0x20 0x110000 2 2) 0x100080 0x20 0x110100 2 2) 0x100100 0 0x110200 2 2).wrBytes 0x110000
    [0x80, 0x3F, 0, 0x40, 0x40, 0x40, 0x80, 0x40]

def lds0 : UnitCmd := cmdOf (.panLds false false .auto) [0x100000, 0, 0, 2, 2, 0, 0, 0]
def str0 : UnitCmd := cmdOf (.panStr true false .raw) [0x100080, 0, 2, 0, 0, 0x100100, 0, 0]
def mm0 : UnitCmd := cmdOf (.panMm false false .raw .auto) [0x100080, 0x100000, 0, 0, 0x100100, 0, 0, 0]
def rake0 : UnitCmd := cmdOf (.panRake 1) [0, 0, 0, 0, 0, 0, 0, 0]
def fill0 : UnitCmd :=
  cmdOf (.panFill false .raw) [0x100000, 0, 0, 2, 2, 0x100080, 0, 2, 0x100100, 0, 0, 0, 0, 0, 0, 0]
def fillNone : UnitCmd :=
  cmdOf (.panFill false .raw) [0x100000, 0, 0, 2, 0, 0x100080, 0, 2, 0x100100, 0, 0, 0, 0, 0, 0, 0]
def tile0 : Tile := ⟨true, [0], ⟨.bf16, 0, false⟩, 0x20, 1, 1, 0, 2, 2, [], none⟩

def onPan0 (s : State) (q : PanSt) : State := { s with pan := s.pan.set 0 q }

theorem test_witness_PanCommandsBegin :
    let q : PanSt := { PanSt.reset with queue := [rake0] }
    let s := onPan0 mats q
    let x := s.panCtx 0 0
    s.clocked = true ∧ q.free = true ∧ q.fired = [] ∧ q.width = 4 ∧ { q with whole := true }.width = 0 ∧ q.batches.Nodup ∧
      q.slotMissing (.slot 1) = true ∧ q.slotMissing .raw = false ∧ q.back = none ∧
      isOk (x.buildLds q (s.foldPolicy 0) lds0 false false .auto).1 = true ∧
      isOk (x.buildStr q str0 false .raw none
        { tile0 with cls := match pairClass tile0.fmt tile0.fmt with
          | some c => c
          | none => 0 }).1 = true ∧
      isOk (x.buildMm q (s.foldPolicy 0) mm0 false false .raw .auto none).1 = true ∧
      isOk (x.checkFill q (s.foldPolicy 0) fill0 .raw none).1 = true ∧ fill0.word 4 ≠ 0 ∧
      isOk (x.checkFill q (s.foldPolicy 0) fillNone .raw none).1 = true ∧ fillNone.word 4 = 0 ∧ rakeInvalid (blockBytes rake0.block) = false := by
  decide +kernel

def part0 : PanPart := ⟨mm0, 0, ⟨.bf16, 0, false⟩, .ones, 2, descF32, 0, 0, false, none⟩
def job0 : PanJob := ⟨mm0, 0, 1, 1, false, ⟨.bf16, 0, false⟩, .unknown, .unknown, 2, 2, 0, [part0], none, [0], none, [], []⟩
def runOf (c : UnitCmd) (j : Option PanJob) (ps : List PanPass) : PanRun :=
  ⟨j, c, 1, none, Rake.raw, [], [], none, none, ps, [], [], XNotes.none, [], false, false, [], []⟩
def pass0 : PanPass := ⟨[0, 1], 0, 2, 0, 1, 0⟩

theorem test_witness_PanWork :
    let s (r : PanRun) := onPan0 mats { PanSt.reset with running := some r }
    let r1 := runOf mm0 (some job0) [pass0, { pass0 with k0 := 1 }]
    let r2 := runOf rake0 none []
    let r3 := runOf mm0 (some job0) []
    let gather := { job0 with role := 2 }
    (s r1).pan[0].running = some r1 ∧ (s r1).pan[0].held = [] ∧ (s r1).link.unreachable = [] ∧ r1.waitsBus job0 pass0 = false ∧
      (runOf mm0 (some gather) [pass0]).waitsBus gather pass0 = true ∧ r1.cmd.op = .panMm false false .raw .auto ∧
      (s r2).pan[0].completing = some r2 ∧ r2.cmd.op = .panRake 1 ∧ (s r1).pan[0].completing = none ∧
      (onPan0 mats { PanSt.reset with running := some r1, ending := [r3] }).pan[0].completing = some r3 ∧
      (runOf lds0 none []).cmd.op = .panLds false false .auto ∧ (s r3).pan[0].completing = some r3 ∧ r3.cmd.op = .panMm false false .raw .auto ∧ r3.job = some job0 ∧
      job0.parts = [part0] ∧ part0.cmd = r3.cmd ∧ job0.role = 0 := by decide +kernel

/-- [[1, 2], [3, 4]] · [[1, 2], [3, 4]] has 7 as its first element (R75): PAN.MM begun, its passes run, completed. -/
def mmSrc : State := mats.wrBytes 0x110100 [0x80, 0x3F, 0, 0x40, 0x40, 0x40, 0x80, 0x40]
def stepTo (i : Instr) (s : State) : State :=
  match exec i s with
  | .next t => t
  | _ => s

theorem test_pan_mm : (stepTo (.panCommandComplete 0) <| stepTo (.panPassComplete 0 []) (stepTo (.panCommandBegin 0) (onPan0 mmSrc { PanSt.reset with queue := [mm0] }))).rdBytes
      0x110200 16 = [0, 0, 0xE0, 0x40, 0, 0, 0x20, 0x41, 0, 0, 0x70, 0x41, 0, 0, 0xB0, 0x41] := by decide +kernel

def batch0 : Batch := ⟨[⟨fill0, descF32, descF32, descF32⟩], 0, 4, 3⟩

theorem test_witness_PanTimersAndAnswers :
    (PanSt.reset).running.any (fun r => !r.passes.isEmpty) = false ∧
      ({ PanSt.reset with running := some (runOf mm0 none [pass0]) } : PanSt).running.any (fun r => !r.passes.isEmpty) = true ∧
      up.core[mm0.core].wait = none ∧ up.core[mm0.core].kill = false := by decide

theorem test_fill_timeout : after (exec (.fillTimeout 0) { onPan0 up { PanSt.reset with batches := [batch0] } with
      tide := { TideSt.reset with num := 3 } }) (fun t => (t.pan[0].batches, t.pan[0].fired)) = some ([], [batch0]) := by decide +kernel

def unit0 : RepRec :=
  ⟨0, [mm0], 0, none, none, ⟨[(0, 2)], 0, 2⟩, [], false, ⟨0, 0⟩, [], .replay, none, none, ⟨0, 0⟩, []⟩

def withRec (r : RepRec) : State := { mmSrc with int := { mmSrc.int with recs := mmSrc.int.recs.set 0 [r] } }

theorem test_witness_ReplayDecisions :
    let r := unit0
    let s := withRec r
    s.int.recs[0][(0 : Fin 16).val]? = some r ∧ s.candidates 0 = [1, 2, 3, 4, 5, 6, 7] ∧ s.pan[1].passing = false ∧
      (s.runUnit 1 r []).1.isSome = true ∧
      ({ s with pan := Vector.replicate 8 { PanSt.reset with whole := true } } : State).candidates 0 = [] ∧
      (s.candidates 0).filter (fun p => some p ≠ some 1) = [2, 3, 4, 5, 6, 7] ∧
      s.int.recs[1].length < 16 ∧ r.contOver = false := by decide +kernel

/-- A unit of one result, of +0 and +0, whose result signature is 0 (R508). -/
def mat1 : State := desc2 (desc2 (desc2 (mapped up) 0x100000 0x20 0x110000 1 1) 0x100080 0x20 0x110100 1 1) 0x100100 0 0x110200 1 1
def back1 : RepRec := { unit0 with
  unit := ⟨[(0, 1)], 0, 1⟩
  phase := .writeBack
  replayPan := some 1
  repSigs := ⟨0, 0⟩ }
def withBack : State := { mat1 with int := { mat1.int with recs := mat1.int.recs.set 0 [back1] } }

theorem test_witness_ReplayDecisions_write_back :
    withBack.int.recs[0][(0 : Fin 16).val]? = some back1 ∧ (withBack.candidates 0).contains 1 = true ∧ withBack.pan[1].passing = false ∧
      (withBack.runUnit 1 back1 []).1.map (fun (o : RunOut) => o.sigs.res) = some back1.repSigs.res := by decide +kernel

theorem test_witness_ReplayDecisions_written :
    let u := withBack.runUnit 1 back1 []
    u.1.any (fun (o : RunOut) => (o.plans.foldl XCtx.put
      { u.2 with s := (u.2.s.countRun 1 (some o)).count (panReg 1 0x470) o.ovfs }).fault.isNone) = true := by decide +kernel

/-! The tide, power, the board. -/

def env0 : EdgeEnv where
  link := 0
  mem := 0
  comp := Vector.replicate 4 0
  est := 0
  meas := 0
  flaws := []
  vinMin := 7000
  vin := 7000
  tj := Vector.replicate 4 40
  wait := 5

/-- The power state register field holds `n`. -/
def inState (n : Nat) (s : State) : State := s.setFld 0x100000 7 4 n

theorem test_witness_TideEdge : served.tideRuns = true ∧ served.tide.stepping = none ∧ served.tide.ppsAwait = none ∧
    ({ served with tide := { TideSt.reset with stepping := some (7, 0) } } : State).tide.stepping = some (7, 0) ∧
    served.fld 0x100000 7 4 = 0 ∧ (inState 3 served).fld 0x100000 7 4 = 3 ∧ served.wf = true ∧
    ({ served with board := { served.board with phase := .off } } : State).tideRuns = false := by decide +kernel

/-- A follower's step ends at the tide number decided with it (R36). -/
theorem test_stepped_tide_adopts_number :
    (let t := ({ served with tide := { TideSt.reset with step := some (160, 500, 0) } } : State).newTide.tide
     (t.num, t.adj, t.stepping)) = (1, -160, some (500, 0)) ∧
    (let t := ({ served with tide := { TideSt.reset with stepping := some (500, 0) } } : State).newTide.tide
     (t.num, t.stepping)) = (500, none) := by decide +kernel

/-- The edge itself (R31, R35): the number rises, and 2 ns of the error are taken. -/
theorem test_tide_edge_takes_two_ns_of_slew :
    let t := ({ served with tide := { TideSt.reset with slew := 100, ns := 9 } } : State).newTide.tide
    (t.num, t.ns, t.adj, t.slew) = (1, 0, -32, 68) := by decide

/-- A ring of one descriptor at local address 0 of the sequencer: its MASK. Logical core 0 is the sequencer. -/
def ringed (mask : Nat) : State :=
  let s := { served with core := served.core.set 0 (CoreSt.reset.localStore 0
    (leBytes 8 9 ++ leBytes 8 0x100 ++ leBytes 8 77 ++ leBytes 2 mask ++ List.replicate 6 0 ++ leBytes 8 0)) }
  mapped (s.setFld (dispReg 0 0x10) 5 0 1)

theorem test_witness_TideEdge_dispatch :
    (inGran [0]).disp[0].running = some (granule0 [0]) ∧ (inGran [0]).wf = true ∧ (ringed 2).disp[0].running = none ∧
      ((ringed 2).ringEntries 0).length = 1 ∧
      ((ringed 2).ringEntries 0).all (fun e => (ringed 2).holdReason 0 e.2 == 0 && recNat e.2 24 2 == 2) = true ∧
      ((ringed 1).ringEntries 0).all (fun e => (ringed 1).holdReason 0 e.2 != 0) = true ∧ (ringed 1).physOf 0 0 = some 0 ∧
      (ringed 1).physOf 0 1 = some 1 ∧
      (ringed 2).fld 0x100000 7 4 = 0 ∧ (inState 1 (ringed 2)).fld 0x100000 7 4 ≠ 0 ∧
      ((inState 1 (ringed 2)).ringEntries 0).length = 1 := by decide +kernel

theorem test_dispatch_starts_core : ((ringed 2).dispatch 0).core[1].pc = 0x100 ∧ ((ringed 2).dispatch 0).core[1].sget 1 = 77 := by
  decide +kernel

theorem test_witness_TideRegistersAndPps :
    (served.setFld 0x1048 0 0 1).wf = true ∧ (served.setFld 0x1048 0 0 1).fld 0x1048 0 0 = 1 ∧
      ((served.setFld 0x1048 0 0 1).reg 0x1040).toNat ≤ served.tide.num.toNat ∧
      (atCore { run0 with stall := some stalled0 }).core[0].stall = some stalled0 ∧
      (WaitKind.tokenWait 2 1).code.isSome = true ∧ (waitsFor (.tokenWait 2 1) []).core[0].wait = some ⟨.tokenWait 2 1, 0, false⟩ ∧
      served.ppsOn = false ∧ (served.setFld 0x1020 2 0 4).ppsOn = true ∧ served.tide.ppsAwait = none ∧
      served.tide.num.toNat % (1000000 / served.periodUs) = 0 ∧ served.fld 0x1020 7 7 = 0 ∧ served.fld 0x1030 0 0 = 0 ∧
      (1000 : BitVec 32).toInt ≤ 1000 ∧ 1000 < (1001 : BitVec 32).toInt ∧
      (let q := served.setFld 0x1020 2 0 4
       let w : State := { q with tide := { q.tide with ppsAwait := some 7 } }
       w.ppsOn = true ∧ w.tide.ppsAwait.isSome = true ∧ w.fld 0x1030 0 0 ≠ 1 ∧ (q.setFld 0x1030 0 0 1).ppsOn = true ∧
         (q.setFld 0x1030 0 0 1).fld 0x1030 0 0 = 1 ∧ (q.setFld 0x1020 7 7 1).fld 0x1020 7 7 ≠ 0 ∧
         (inState 4 q).ppsOn = false ∧ (25 : BitVec 32).toInt = 25 ∧ 0 < (25 : BitVec 32).toInt ∧
         (BitVec.ofInt 32 (-25)).toInt ≤ 0) := by decide +kernel

theorem test_pps_edge_locks : after (exec (.ppsEdge (BitVec.ofInt 32 (-25))) (served.setFld 0x1020 2 0 4))
    (fun t => (t.tide.slew, t.fld 0x1020 7 7)) = some (-400, 1) := by decide +kernel

theorem test_witness_GrantsStayInBudget : [2, 0, 1].Perm [0, 1, 2] ∧ grants 100 [10, 10, 10] [50, 60, 5] [2, 0, 1] = [50, 40, 10] := by
  decide

def onPwr0 (f : DiePwr → DiePwr) : State :=
  { served with pwr := { served.pwr with die := served.pwr.die.set 0 (f served.pwr.die[0]) } }

theorem test_witness_ThermalAndSchedules :
    0 < (onPwr0 (fun q => { q with thermCeil := 1, cool := 1000 })).pwr.die[0].thermCeil ∧
      max 1 (served.fld 0x100180 63 48) ≤ (onPwr0 (fun q => { q with droopHeld := 65535 })).pwr.die[0].droopHeld ∧
      102 ≤ (102 : BitVec 8).toNat ∧ (101 : BitVec 8).toNat < 102 ∧ served.pwr.die[0].dip = false ∧
      (onPwr0 (fun q => { q with stretching := true })).pwr.die[0].stretching = true ∧
      (onPwr0 (fun q => { q with dip := true })).pwr.die[0].dip = true ∧ served.awake = true ∧
      (served.setFld 0x100000 8 8 1).wf = true ∧ (served.setFld 0x100000 8 8 1).fld 0x100000 8 8 = 1 ∧
      (served.reg 0x100240).toNat ≤ served.tide.num.toNat := by decide +kernel

theorem test_drift_enters_at_50 :
    after (exec .driftEnter { served with pwr := { served.pwr with disagree := 49 } }) (fun t => t.fld 0x100000 2 2) = some 0 ∧
    after (exec .driftEnter { served with pwr := { served.pwr with disagree := 50 } }) (fun t => t.fld 0x100000 2 2) = some 1 := by
  decide +kernel

def onPwr (s : State) (f : PwrSt → PwrSt) : State := { s with pwr := f s.pwr }

theorem test_witness_PowerStatesAndWake :
    served.wf = true ∧ served.awake = true ∧ served.fld 0x100000 7 4 = 0 ∧ served.fld 0x1030 0 0 = 0 ∧
      (inState 1 served).fld 0x100000 7 4 = 1 ∧ (inState 2 served).awake = true ∧ served.powered = true ∧
      served.fld 0x100210 7 0 = 0 ∧ served.tide.ns = 0 ∧ served.drained = true ∧
      (onPwr served (fun p => { p with m1Wait := true })).pwr.m1Wait = true ∧
      (onPwr served (fun p => { p with entering := some 3 })).pwr.entering = some 3 ∧
      (onPwr served (fun p => { p with leaving := some 1, exitEdge := true })).pwr.leaving = some 1 ∧ served.board.refclk = true ∧
      (onPwr served (fun p => { p with leaving := some 3 })).wf = true ∧
      ({ served with tide := { TideSt.reset with ns := 4 } } : State).tide.ns ≠ 0 := by decide +kernel

theorem test_witness_PowerStatesAndWake_sources :
    let s := onPwr (inState 3 ((served.setReg 0x100208 0x1F).setReg 0x100218 1)) (fun p => { p with watch := 1 })
    s.wf = true ∧ s.powered = true ∧ s.fld 0x100000 7 4 = 3 ∧
      s.fld 0x100208 0 0 = 1 ∧ s.fld 0x100208 1 1 = 1 ∧ s.fld 0x100208 2 2 = 1 ∧ s.fld 0x100208 3 3 = 1 ∧ s.fld 0x100208 4 4 = 1 ∧
      (s.reg 0x100228).toNat ≤ s.tide.num.toNat ∧ (s.reg 0x100218).getLsbD 0 = true ∧ s.pwr.watch.getLsbD 0 = true ∧
      s.pwr.entering = none ∧ (inState 1 served).fld 0x100000 7 4 = 1 := by decide +kernel

theorem test_m1_exit_counts : after (exec .m1Exit (onPwr (inState 5 served) (fun p => { p with leaving := some 1, exitEdge := true })))
    (fun t => (t.fld 0x100000 7 4, mapGet zero64 t.ctr 0x100520)) = some (0, 1) := by decide +kernel

theorem test_witness_CountedSettings : served.awake = true ∧ served.clocked = true ∧ (16 : BitVec 5).toNat ≤ 16 ∧
    (512 * 3 + 259 : BitVec 16).toNat % 512 ≤ 259 ∧
    bitsOf (served.reg (panBase 0 + 0x38)) 15 0 ≠ (512 * 3 + 259 : BitVec 16).toNat ∧
    bitsOf (served.reg (panBase 0 + 0x38)) 15 0 = (0 : BitVec 16).toNat ∧
    bitsOf ((served.setReg (panBase 0 + 0x38) 0x601).reg (panBase 0 + 0x38)) 15 0 = (0x601 : BitVec 16).toNat ∧ served.mgmt.fuses = [] ∧ served.fld 0x300208 4 0 = 0 ∧ (served.setFld 0x300208 4 0 1).fld 0x300208 4 0 ≠ 0 ∧
    ({ served with mgmt := { served.mgmt with fuses := [(0, 0x601)] } } : State).mgmt.fuses.any
      (fun (q : Nat × BitVec 64) => q.1 == 0 && bitsOf q.2 15 9 == (512 * 3 + 259 : BitVec 16).toNat / 512) = true := by decide +kernel

theorem test_class_raise_is_counted : after (exec (.pwrClassWrite 1) served) (fun t => (t.fld 0x100008 1 0, t.ledgerCount 1)) = some (1, 1) := by
  decide +kernel

def onBoard (ph : BoardPhase) : State := { served with board := { served.board with phase := ph } }

theorem test_witness_InputResetBoot :
    served.board.phase = .run ∧ served.awake = true ∧ served.pwr.vinOut = false ∧ 5700 ≤ (5700 : BitVec 16).toNat ∧
      8000 < (8400 : BitVec 16).toNat ∧ served.board.refclk = true ∧ served.islandOn = true ∧ 105 ≤ (105 : BitVec 8).toNat ∧
      (onBoard .waitVin).board.refclk = true ∧ (onBoard .reset).board.refclk = true ∧ State.reset.board.phase = .boot ∧
      State.reset.board.d1Failed = false ∧ State.reset.bootSlot = none ∧ served.wf = true := by decide +kernel

/-! Integrity, links, segments. -/

/-- State at reset with an image in slot A. -/
def imaged (m : MgmtSt) : State := { State.reset with mgmt := m }

/-- A slot image that passes stage 0, for a vendor signature that verifies: BOOT then has a slot. -/
theorem test_witness_InputResetBoot_slot (h : Config.verifies Config.vendorKey [] [] = true) :
    (imaged { MgmtSt.reset with slots := MgmtSt.reset.slots.set 0 (some ⟨{ image0 with hash := sha384 [] }, false, 0⟩) }).bootSlot =
      some 0 := by
  have l (m : MgmtSt) : (imaged m).fld 0x300200 1 0 = 1 := (by decide : State.reset.fld 0x300200 1 0 = 1)
  have g (m : MgmtSt) : (imaged m).mgmt = m := rfl
  simp [State.bootSlot, State.slotBad, State.imageBad, l, g, h, image0, MgmtSt.reset]

def fencedEngine : State := served.setBit (fenceBit 0 0 3).1 (fenceBit 0 0 3).2 true

theorem test_witness_IntegrityAndTrace :
    served.wf = true ∧ served.powered = true ∧ served.clocked = true ∧ served.fenceSet 0 0 3 = false ∧
      fencedEngine.fenceSet 0 0 3 = true ∧ (fencedEngine.reg 0x210000).getLsbD 0 = false ∧
      ((fencedEngine.setFld 0x210000 0 0 1).reg 0x210000).getLsbD 0 = true ∧ (fencedEngine.setFld 0x210000 0 0 1).fenceSet 0 0 3 = true ∧
      served.testable (.slowChan 0 3) = true ∧ served.testDue (.slowChan 0 3) = true ∧ served.disp[0].running = none := by decide +kernel

def errChan : State := { served with int := { served.int with chan := [(chanOf (.way 0 3), 2 ^ 16, 2 ^ 16)] } }

theorem test_witness_IntegrityAndTrace_channels :
    let r := errChan.reg (0x210040 + 8 * (chanOf (.way 0 3)).cls)
    errChan.wf = true ∧ errChan.chanGone (.way 0 3) = false ∧ served.chanGone (.way 0 3) = false ∧
      (decide (max 1 (bitsOf r 15 0) ≤ 2 ^ 16) || decide (max 1 (bitsOf r 31 16) ≤ 2 ^ 16)) = true ∧
      ((decide (max 1 (bitsOf r 15 0) ≤ 0) && true) || decide (max 1 (bitsOf r 31 16) ≤ 0)) = false ∧
      ({ served with tide := { served.tide with num := 2 ^ 40 } } : State).int.winEnd[3] ≠ 2 ^ 40 ∧
      ((2 ^ 40 : Nat) % served.errWindow 3 = 0 ∨ (0 : Nat) % served.errWindow 3 = 0) := by decide +kernel

theorem test_witness_IntegrityAndTrace_units :
    let v : BitVec 64 := 0x101
    served.cvBrine 0 = false ∧ ({ served with int := { served.int with claims := [(0x6000, 1)] } } : State).cvBrine 0 = true ∧
      (served.reg (cvBase 0)).getLsbD 0 = false ∧ (served.reg (traceBase 0)).getLsbD 0 = false ∧ v.getLsbD 3 = false ∧
      ((cvTapRes 0 1).toList ++ [0x6000]).all (fun r => (assoc r served.int.claims).all (fun h => h == 0x10)) = true ∧
      ((cvTapRes 0 1).toList ++ [0x6000]).all (fun r => (assoc r [(0x6000, (0xC0 : Nat))]).all (fun h => h == 0x10)) = false ∧
      [0x1000 + 1, 0x3000].all (fun r => (assoc r served.int.claims).isNone) = true := by decide +kernel

def lasers (a b : Nat) (s : State) : State := (s.setLaser 0 a).setLaser 1 b

theorem test_witness_OpticsAndPorts :
    served.wf = true ∧ served.laser 0 = 0 ∧ (lasers 1 0 served).laser 0 = 1 ∧ (lasers 1 3 served).laserLit 1 = true ∧
      (lasers 1 3 served).wf = true ∧ (lasers 1 0 served).laserLit 1 = false ∧ (lasers 2 2 served).laserLit 0 = true ∧
      (lasers 2 2 served).laser 1 = 2 ∧ (lasers 5 0 served).laser 0 = 5 ∧ served.awake = true ∧
      ((((lasers 2 2 served).setFld (laserReg 0 8) 0 0 1).reg (laserReg 0 8)).getLsbD 0 = true) := by decide +kernel

def port (n : Nat) (s : State) : State := s.setPort 0 n
def trained : Training := ⟨0xFF, 0x0F, 9, 4, 0, 0⟩

theorem test_witness_OpticsAndPorts_ports :
    (port 1 served).wf = true ∧ (port 1 served).portState 0 = 1 ∧ (port 5 (lasers 3 0 served)).engineLit 0 = true ∧
      (port 5 (lasers 3 0 served)).portState 0 = 5 ∧ (port 2 served).portState 0 = 2 ∧ (port 4 served).portState 0 = 4 ∧
      4 ≤ (healthyLanes (Nat.lor ((port 2 served).fld (linkReg 0 0) 31 24) (255 - trained.rx.toNat))).length ∧
      4 ≤ (healthyLanes (255 - trained.tx.toNat)).length ∧ trained.dev ≠ 0xFFFF ∧
      ((port 3 served).setFld (linkReg 0 0) 15 12 8).fld (linkReg 0 0) 26 26 = 0 ∧
      (((port 3 served).setFld (linkReg 0 0) 15 12 8).rxLanes 0).contains 2 = true ∧ served.link.port[0].mask = false ∧
      served.portState 0 = 0 ∧ served.fld (linkReg 0 8) 1 1 = 0 ∧ served.link.port[0].knock = false ∧
      served.engineLit 0 = false := by decide +kernel

def withPort (q : PortSt) : State := { port 3 served with link := { served.link with port := served.link.port.set 0 q } }

theorem test_witness_OpticsAndPorts_counts :
    max 1 (served.fld (optBase 0 + 0x20) 15 0) ≤
      (withPort { PortSt.reset with errs := PortSt.reset.errs.set 2 65535 }).link.port[0].errs[(2 : Fin 8)] ∧
      (withPort { PortSt.reset with knock := true }).link.port[0].knock = true := by decide +kernel

/-- Training with lanes 0 to 3 alone leaves a width of 4 each way (R474). -/
theorem test_training_width : after (exec (.portTrainingComplete 0 { trained with rx := 0x0F }) (port 2 served))
    (fun t => (t.portState 0, t.fld (linkReg 0 0) 15 12, t.fld (linkReg 0 0) 47 42)) = some (3, 4, 4) := by decide +kernel

def flit0 : Flit := ⟨0, 0, false, false, 0, 0, .data 0 (List.replicate 32 1)⟩

theorem test_witness_LinkLayer :
    (withPort PortSt.reset).portState 0 = 3 ∧ ([0] : List (Fin 34)) ≠ [] ∧ flit0.nak = false ∧
      flit0.seq = (withPort PortSt.reset).link.port[0].expect ∧ { flit0 with seq := 2 }.seq ≠ (withPort PortSt.reset).link.port[0].expect ∧
      served.wf = true ∧ (served.setFld (fabReg 0 (fabPort 0 1)) 2 0 1).fabUp 0 (fabPeer 0 (fabPort 0 1)) = true ∧
      ((served.setFld (fabReg 0 (fabPort 0 1)) 2 0 1).reg (fabBase 0 + 0x20 + 8 * fabPort 0 1)).getLsbD 5 = false := by decide +kernel

theorem test_flit_in_sequence : after (exec (.flitReceive 0 flit0 []) (withPort PortSt.reset))
    (fun t => (t.link.port[0].expect, t.link.port[0].rx[(0 : Fin 4)].bytes.length)) = some (1, 32) := by decide +kernel

/-- A segment from device 9, die 0, to this device's die 0. -/
def seg0 (typ : Nat) : Seg := ⟨typ, 0, 0, 9, served.device, 0, 0, 0, 0, 0, 0, 0, []⟩

theorem test_witness_SegmentsRoundTrip :
    let g := { seg0 0 with len := 33, arg := 2 ^ 64 - 1, data := List.replicate 33 7 }
    g.data.length = g.payload ∧ takeSegment (g.bytes ++ [1]) = some (g, 3) ∧ (seg0 1).payload = (seg0 1).data.length := by
  decide +kernel

/-- The connection of die 0 with device 9, and `g` at the head of its stream at port 0. -/
def arrived (g : Seg) : State :=
  let s := served.setReg (optBase 0 + 0x8000) (2 ^ 63 + 9)
  { s with link := { s.link with port := s.link.port.set 0 { PortSt.reset with
    rx := PortSt.reset.rx.set (segVc g.typ) ⟨g.bytes, [1], 0⟩ } } }

theorem test_witness_SegmentsAtReceiver :
    ∀ g ∈ [seg0 0, { seg0 0 with flags := 4 }, { seg0 1 with len := 8 }, seg0 2, seg0 3, { seg0 4 with flags := 1 }],
      (arrived g).headSeg 0 (segVc g.typ) = some (g, 1) ∧ (arrived g).fld 0x100000 7 4 = 0 ∧ g.invalid (segVc g.typ) = false ∧
        g.dstDev = (arrived g).device ∧ (arrived g).connOf g.ddie g.srcDev g.sdie = some 0 ∧
        BitVec.ofNat 32 g.msn = ((arrived g).connAt g.ddie 0).expect := by decide +kernel

theorem test_witness_SegmentsAtReceiver_read_data :
    let s := (arrived (seg0 2)).setConn 0 0 { Conn.reset with reads := [⟨0, 8, (0, 0), 0, 0⟩] }
    (s.connAt 0 0).reads.find? (fun a => a.msn = (seg0 2).arg % 2 ^ 32) = some ⟨0, 8, (0, 0), 0, 0⟩ ∧ (seg0 2).data.length < 8 ∧
      s.headSeg 0 (segVc 2) = some (seg0 2, 1) := by decide +kernel

theorem test_witness_SegmentsAtReceiver_not_performed :
    let bad := { seg0 0 with aux := 1 }
    let far := { seg0 0 with dstDev := 77 }
    let unknown := { seg0 0 with srcDev := 10 }
    let late := { seg0 0 with msn := 5 }
    (arrived bad).headSeg 0 (segVc 0) = some (bad, 1) ∧ bad.invalid (segVc 0) = true ∧ far.invalid (segVc 0) = false ∧
      far.dstDev ≠ (arrived far).device ∧ (arrived unknown).connOf 0 10 0 = none ∧ (arrived late).connOf 0 9 0 = some 0 ∧
      BitVec.ofNat 32 late.msn ≠ ((arrived late).connAt 0 0).expect ∧ (inState 1 (arrived bad)).fld 0x100000 7 4 = 1 := by
  decide +kernel

/-- A READ of 8 bytes is answered with READ_DATA that names its MSN (R480). -/
theorem test_read_is_answered : after (exec (.segRead 0) (arrived { seg0 1 with len := 8 }))
    (fun t => ((t.connAt 0 0).expect, (t.connAt 0 0).next, (t.connAt 0 0).unacked.map (fun x => (x.seg.typ, x.seg.arg)))) =
      some (1, 1, [(2, 0)]) := by decide +kernel

theorem test_witness_TransportTimers :
    (∀ g ∈ [{ seg0 5 with arg := 2 ^ 33 }, seg0 5, seg0 7, { seg0 0 with dstDev := 77, hops := 15 }, { seg0 0 with dstDev := 77 }],
      (arrived g).headSeg 0 (segVc g.typ) = some (g, 1) ∧ g.invalid (segVc g.typ) = false) ∧
      (arrived (seg0 0)).route 77 = none ∧
      ((port 3 served).setReg (optBase 0 + 0x20000 + 8 * 19) (0x8000 * 65536 + 127 * 256 * 65536)).route 77 = some 0 := by decide +kernel

theorem test_witness_TransportTimers_connections :
    let x : TxSeg := ⟨seg0 0, .bytes [], none⟩
    let s (c : Conn) := served.setConn 0 0 c
    (s Conn.reset).connAt 0 0 = Conn.reset ∧ ((s { Conn.reset with ackDue := 1 }).connAt 0 0).ackDue ≠ 0 ∧
      ((s { Conn.reset with unacked := [x] }).connAt 0 0).unacked ≠ [] ∧
      ((s { Conn.reset with unacked := [x] }).connAt 0 0).resent < max 1 (served.fld (optBase 0 + 8) 55 48) ∧
      max 1 (served.fld (optBase 0 + 8) 55 48) ≤ ((s { Conn.reset with resent := 255 }).connAt 0 0).resent ∧
      served.wf = true ∧ served.awake = true ∧ served.locked = false ∧ (served.setFld 0x1030 0 0 1).locked = true := by decide +kernel

def ethUp : State := (port 6 served).setFld (ethReg 0) 0 0 1

theorem test_witness_EthernetPorts :
    ethUp.wf = true ∧ ethUp.fld (ethReg 0) 0 0 = 1 ∧ (port 6 served).portState 0 = 6 ∧ (port 6 served).fld (ethReg 0) 0 0 ≠ 1 ∧
      (ethUp.setQp 5 ⟨some 0, false, 16⟩).openQp 0 5 = true ∧ ethUp.openQp 0 5 = false ∧
      (ethUp.setQp 5 ⟨some 0, false, 16⟩).qpAt 5 = ⟨some 0, false, 16⟩ := by decide +kernel

/-! Sluices, Brine units, crystallizers, the gate. -/

def copy0 : UnitCmd := cmdOf (.sluCopy .any .none) [0x1000, 0, 0x1080, 0, 8, 0, 0, 0]
def wait0 (q t : Nat) : UnitCmd := cmdOf (.sluWait .any) [q, t, 0, 0, 0, 0, 0, 0]
def slu0 (q : SluSt) : State :=
  let s := desc1 (desc1 (mapped up) 0x1000 0 0x2000 8) 0x1080 0 0x3000 8
  { s with slu := s.slu.set 0 q }
def run1 : SluRun := ⟨7, copy0, 0, .copy descF32 descF32 0 0 1 .none, none, [], 0, false, XNotes.none, none, false⟩

theorem test_witness_SluiceWork :
    let s (c : UnitCmd) := slu0 { SluSt.reset with queue := [c] }
    (s copy0).clocked = true ∧ (s copy0).slu[0].queue = copy0 :: [] ∧
      ((wait0 255 1).word 0).toNat ≤ 255 ∧ 255 < ((wait0 256 1).word 0).toNat ∧ (s (wait0 0 1)).dieSlu[sluDie 0].waits.length < 64 ∧
      (s copy0).slu[0].running.length < 4 ∧
      4 ≤ (slu0 { SluSt.reset with queue := [copy0], running := List.replicate 4 run1 }).slu[0].running.length ∧
      (match (((s copy0).sluCtx 0 0 []).build 0 copy0).1 with
        | .ok j => !j.remote (s copy0).device
        | _ => false) = true := by decide +kernel

theorem test_witness_SluiceWork_completion :
    let s (r : SluRun) := slu0 { SluSt.reset with running := [r] }
    (s run1).wf = true ∧ (s run1).slu[0].running[(0 : Fin 4).val]? = some run1 ∧ (s run1).runOf 0 7 = some run1 ∧
      (s { run1 with moved := true }).runOf 0 7 = some { run1 with moved := true } ∧
      (let m := run1.job.move ((s run1).sluCtx 0 run1.cmd.core.val run1.got)
       m.2.2.need.isEmpty && m.2.2.outs.isEmpty && m.2.2.fault.isNone) = true := by decide +kernel

/-- SLU.COPY of one FP32 element, moved at its completion. -/
theorem test_slu_copy : after (exec (.sluCommandComplete 0 0) ((slu0 { SluSt.reset with running := [{ run1 with
      job := .copy { descF32 with ext := [8] } { descF32 with base := 0x3000, ext := [8] } 1 0 1 .none }] }).wrBytes 0x2004 [1, 2, 3, 4]))
    (fun t => (t.rdBytes 0x3000 4, t.core[0].toksIn)) = some ([1, 2, 3, 4], [(1, false)]) := by decide +kernel

def waiting0 (c : Nat) : State :=
  let s := (mapped up).count (fabBase 0 + 0x1000) c
  { s with dieSlu := s.dieSlu.set 0 { DieSlu.reset with waits := [wait0 0 2] } }

theorem test_witness_WaitsAndCollectives :
    (waiting0 1).dieSlu[0].waits[(0 : Fin 64).val]? = some (wait0 0 2) ∧ ((waiting0 1).ctrAt (fabBase 0 + 0x1000)).toNat < 2 ∧
      2 ≤ ((waiting0 2).ctrAt (fabBase 0 + 0x1000)).toNat ∧
      served.dieSlu[0].inbox.findIdx? (fun m => (served.collTarget 0 m).isSome) = none ∧
      ((slu0 { SluSt.reset with running := [run1] }).slu[0].running.map (·.id)).Nodup := by decide +kernel

def coll0 : CollJob := ⟨descF32, descF32, none, 0, 0, 4, 0, .sum, 3, 9, false, 0, [(7, 0)], 0⟩
def msg0 : CollMsg := ⟨7, 0, 9, 0, 4, 3, 0, 0, false, 0, 0, false, true, false, []⟩
def runC : SluRun := { run1 with job := .coll coll0, coll := some ⟨true, 0, [], [], [], [], 0, false, false, false⟩ }

theorem test_witness_WaitsAndCollectives_chunk :
    let s := slu0 { SluSt.reset with running := [runC] }
    { s with dieSlu := s.dieSlu.set 0 { DieSlu.reset with inbox := [msg0] } }.dieSlu[0].inbox.findIdx?
      (fun m => (s.collTarget 0 m).isSome) = some 0 := by decide +kernel

def bat0 : UnitCmd := cmdOf .brnBatch [0x1000, 0x1100, 0x1200, 0x1300, 0x1400, 0x1500, 0, 0]

def batch1 (n cur : Nat) (loading : Bool) (items : List BrnItem) : BrnBatch where
  id := 4
  cmd := bat0
  since := 0
  spec := leBytes 4 n ++ List.replicate 644 0 ++ [1] ++ List.replicate 23 0
  outs := ⟨none, descF32, [], none, none⟩
  loading := loading
  dict := []
  replay := []
  ranges := []
  order := []
  nxt := 0
  want := 0
  items := items
  rsvs := []
  cur := cur
  passed := false
  row := 0
  col := 0
  toks := []
  bkt := [0, 0, 0, 0]
  chunks := 0
  tensors := 0
  segs := []
  slots := []
  stageNext := 0
  rsvNext := 0
  notes := XNotes.none

def brn0 (q : BrnSt) : State := let s := mapped up; { s with brn := s.brn.set 0 q }

theorem test_witness_BrineWork :
    let s (l : List BrnBatch) := brn0 { BrnSt.reset with batches := l, queue := [(bat0, 0)] }
    (s []).clocked = true ∧ (s []).brn[0].queue = (bat0, 0) :: [] ∧ 2 ≤ (s [batch1 0 0 false [], batch1 0 0 false []]).brn[0].batches.length ∧
      (s [batch1 1 0 true []]).brn[0].batches.find? (fun b => b.loading) = some (batch1 1 0 true []) ∧
      (batch1 1 0 false []).cur < specN (batch1 1 0 false []).spec ∧ specN (batch1 1 1 false []).spec ≤ (batch1 1 1 false []).cur ∧
      (s [batch1 1 1 false []]).wf = true := by decide +kernel

def item0 : BrnItem := { BrnItem.new false 0 with phase := .fetching, failed := true }

theorem test_witness_BrineWork_records :
    let b := batch1 1 0 false [item0]
    let s0 := (brn0 { BrnSt.reset with batches := [b], hwq := BrnSt.reset.hwq.set 1 [(4, false, 0)] }).brnDue 0
    s0.brnItem 0 0 false 0 = some (b, item0) ∧ item0.phase = .fetching ∧ (s0.fetched 0 b item0 0 0).1.isSome = true ∧
      s0.hwHead 0 1 = some (b, item0) ∧
      ({ b with cmd := { bat0 with block := words [0, 0, 0, 0, 0, 0, 3, 0] } } : BrnBatch).due 3 = false ∧
      ({ b with cmd := { bat0 with block := words [0, 0, 0, 0, 0, 0, 3, 0] } } : BrnBatch).due 4 = true ∧
      s0.brn[0].ring.find? (fun q => q.ix = 5) = none ∧
      (s0.setReg (brnReg 0 8) 4).softEn 0 = true ∧ ((s0.setReg (brnReg 0 8) 4).setReg (brnReg 0 0x30) 0x1000).ringFree 0 0 = true := by
  decide +kernel

/-- Text that software decodes: entry 5 of the ring, at address 320, in its state st. -/
def softAt (st : Nat) (cancelled : Bool) (i : BrnItem) : State :=
  let b := batch1 1 0 false [i]
  st64 (brn0 { BrnSt.reset with batches := [b], ring := [⟨5, 4, false, 0, (0, 0), (0, 0), cancelled⟩] }) 320 st
def soft0 : BrnItem := { BrnItem.new false 0 with phase := .soft }

theorem test_witness_BrineWork_software :
    let s := softAt 2 false soft0
    let q : BrnEntry := ⟨5, 4, false, 0, (0, 0), (0, 0), false⟩
    let b := batch1 1 0 false [soft0]
    let r := ((s.brnDue 0).brnCtx 0 0).rd false (((s.brnDue 0).reg (brnReg 0 0x20)).toNat + 64 * 5) 64
    (s.brnDue 0).brn[0].ring.find? (fun q => q.ix = 5) = some q ∧ recNat r.1 0 4 = 2 ∧
      (let r4 := (((softAt 4 false soft0).brnDue 0).brnCtx 0 0).rd false 320 64
       recNat r4.1 0 4 = 4) ∧
      (r.2.s.freeRing 0 5).batchOf 0 4 = some b ∧ b.items.find? (fun i => i.ix = 0) = some soft0 ∧
      (soft0.fromSoft b (r.1.drop 48) false).isSome = true ∧
      ({ soft0 with branch := 1 } : BrnItem).fromSoft b (r.1.drop 48) false = none ∧
      ((softAt 2 true soft0).brnDue 0).brn[0].ring.any (·.cancelled) = true := by decide +kernel

theorem test_witness_BrineWork_enable :
    let foreign (l : List (Nat × Nat)) (r : Nat) : Bool := (assoc r l).any (fun h => h != 1)
    foreign served.int.claims 0x1000 = false ∧ foreign served.int.claims 0x6000 = false ∧ foreign [(0x1000, 0xC0)] 0x1000 = true ∧
      served.wf = true ∧ served.clocked = true ∧ served.brnClaimed 0 = false ∧
      ({ served with int := { served.int with claims := [(0x1000, 1), (0x6000, 1)] } } : State).brnClaimed 0 = true := by decide +kernel

def xrun0 (f l : BitVec 8) : UnitCmd := { cmdOf (.xtlRun 0 f l) [] with sval := 0x8000 }
def xtl0 (q : XtlSt) : State := let s := mapped up; { s with xtl := s.xtl.set 0 { q with ready := true } }
def xr0 (a : Option Bool) : XtlRun := ⟨xrun0 0 0, 0, 1, 0, 0, [], a, 0, none, [], false, false⟩
def init0 : UnitCmd := cmdOf (.xtlInit 0 9) [0, 0, 0, 0, 0, 0, 0, 0]

theorem test_witness_CrystallizerWork :
    let s (c : UnitCmd) := xtl0 { XtlSt.reset with queue := [c] }
    (s (xrun0 2 1)).clocked = true ∧ (s (xrun0 2 1)).xtl[0].ready = true ∧ (s (xrun0 2 1)).xtl[0].running = none ∧
      (1 : BitVec 8).toNat < (2 : BitVec 8).toNat ∧
      (let k := ((s (xrun0 0 0)).xtlCtx 0 0).stepBlock (xrun0 0 0) 0 0
       k.2.badEnd.isNone && k.1.isSome) = true ∧
      (let k := (((s (xrun0 0 0)).wrBytes 0x8000 (List.replicate 32 0xFF)).xtlCtx 0 0).stepBlock (xrun0 0 0) 0 0
       k.2.badEnd.isNone && k.1.isNone) = true ∧
      (s (xrun0 0 0)).givenUp 0 0 = false ∧ ((s (xrun0 0 0)).gateSlot 0 0).bind (·.outcome) = none ∧
      (xtl0 { XtlSt.reset with running := some (xr0 (some false)) }).xtl[0].running = some (xr0 (some false)) ∧
      (s init0).shard 0 9 = none ∧ (s init0).awake = true := by decide +kernel

theorem test_witness_CrystallizerWork_reset :
    let s := xtl0 { XtlSt.reset with running := some (xr0 (some true)), queue := [init0] }
    s.xtl[0].resetting = false ∧ s.xtl[0].inRun.isSome = true ∧ (xtl0 XtlSt.reset).xtl[0].inRun = none ∧
      (xtl0 { XtlSt.reset with resetting := true }).xtl[0].resetting = true := by decide +kernel

def seal0 : UnitCmd := { cmdOf (.xtlSeal false) [] with sval := 5 }
def gslot (f : GateSlot → GateSlot) : GateSlot := f ⟨0, 5, none, false, none, [], none, none, [], false⟩
def gated0 (g : List GateSlot) : State :=
  let s := mapped (atCore { run0 with bufXtl := [seal0] })
  { s with gate := { s.gate with slots := g } }

theorem test_witness_CommitGate :
    let s := gated0 [gslot id]
    s.clocked = true ∧ s.core[0].bufXtl = seal0 :: [] ∧ s.stepQueued 0 5 = false ∧ s.gateSlot 0 5 = some (gslot id) ∧
      ({ gated0 [] with gate := { (gated0 []).gate with horizon := (gated0 []).gate.horizon.set 0 (some 5) } } : State).givenUp 0 5 = true ∧
      (gated0 [gslot (fun g => { g with outcome := some true })]).gateSlot 0 5 = some (gslot (fun g => { g with outcome := some true })) ∧
      ((ringed 2).ringEntries 0).any (fun e => recNat e.2 0 8 == 9) = true ∧ (ringed 2).stepQueued 0 9 = true := by decide +kernel

theorem test_witness_CommitGate_final :
    let g := gslot (fun g => { g with sealed := some 0 })
    let s := gated0 [g]
    (s.gate.slots.filter (fun g => g.part = 0))[(0 : Fin 8).val]? = some g ∧ s.gateSlot 0 g.step = some g ∧ g.localSt = none ∧
      s.granulesOf 0 5 = 0 ∧ s.suspectStep 0 5 = false ∧ s.gate.killed.contains (0, 5) = false ∧ s.job[0] = none ∧ g.job = none ∧
      s.fld (xtlBase 0 + 0x800) 31 0 ≠ 0 ∧ s.tide.num.toNat < s.fld (xtlBase 0 + 0x800) 31 0 ∧
      ({ s with tide := { s.tide with num := 2 ^ 32 } } : State).fld (xtlBase 0 + 0x800) 31 0 ≤ 2 ^ 32 := by decide +kernel

theorem test_seal_waits_in_its_slot : after (exec (.sealDrain 0) (gated0 [gslot id]))
    (fun t => (t.core[0].bufXtl, t.gate.slots)) =
      some ([], [gslot (fun g => { g with sealed := some 0, waiting := [seal0] })]) := by decide +kernel

/-- A STATUS of 16 bytes from device 9 for step 5 of job 0. -/
def status0 : Seg := { seg0 8 with len := 16, data := leBytes 8 5 ++ [1] ++ List.replicate 7 0 }

theorem test_witness_CommitGate_status :
    segVc 8 = 3 ∧ (arrived status0).headSeg 0 3 = some (status0, 2) ∧ (arrived status0).fld 0x100000 7 4 = 0 ∧
      status0.invalid 3 = false ∧ status0.dstDev = (arrived status0).device ∧ (arrived status0).connOf 0 9 0 = some 0 := by
  decide +kernel

/-! Memory, time, management, pins, registers. -/

def parked : State := mapped served

theorem test_witness_StackerRequests :
    let s := parked
    s.wf = true ∧ s.reachesDies = true ∧ s.fld (stkReg 0x38) 0 0 = 0 ∧ (s.setFld (stkReg 0x38) 0 0 1).fld (stkReg 0x38) 0 0 = 1 ∧
      (s.logicalDies 0).length ≤ 4 ∧ s.partOfDie 3 = some 0 ∧ s.parkedCluster 0 = true ∧
      (mapped up).parkedCluster 0 = false := by decide +kernel

def page0 : PageAlloc := ⟨0, 0x200000, 1, false, false, 3, 0x400000⟩
def move0 : PageMove := ⟨0, 0x200000, 1, 0x400000, 0x500000, 1, false⟩
def onStk (f : StkSt → StkSt) : State := { parked with stk := f parked.stk }

theorem test_witness_PagesAndInvalidations :
    let s := onStk (fun k => { k with allocs := [page0], moves := [move0] })
    s.stk.moves[(0 : Fin 256).val]? = some move0 ∧ move0.frames ≤ move0.moved ∧ { move0 with moved := 0 }.moved < move0.frames ∧
      s.accessPending 0x400000 1 = false ∧ s.stk.freeing = none ∧
      s.stk.allocs.find? (fun (a : PageAlloc) => a.pa = move0.old) = some page0 ∧
      (onStk (fun k => { k with dieMove := some ⟨0, 0, 0, 3, false⟩ })).stk.dieMove = some ⟨0, 0, 0, 3, false⟩ ∧
      (onStk (fun k => { k with evac := [(2, 5)] })).stk.evac.contains (2, 5) = true ∧
      ((onStk (fun k => { k with evac := [(2, 5)] })).stk.allocs.all (fun (a : PageAlloc) =>
        !s.pageOn a (2, 5))) = true ∧ s.reachesDies = true := by decide +kernel

theorem test_witness_PagesAndInvalidations_mmu :
    let s := onStk (fun k => { k with inv := k.inv.set 0 (some (0, 0, 1)) })
    s.wf = true ∧ s.reachesDies = true ∧ (s.reg (memBase 0 + 0x1010)).getLsbD 8 = false ∧
      ((s.setFld (memBase 0 + 0x1010) 8 8 1).reg (memBase 0 + 0x1010)).getLsbD 8 = true ∧ s.stk.inv[0] = some (0, 0, 1) ∧
      s.core[0].acc = [] ∧ (pendingAcc (.ld 1 .w false)).core[0].acc.any (fun a =>
        (pendingAcc (.ld 1 .w false)).partOfDie 0 == some 0 && decide (a.va < 65536)) = true := by decide +kernel

/-- ALLOC of one 64 KiB page at virtual 0x400000: the register LEN is 1, VA 0x400000. -/
theorem test_alloc_ends : after (exec (.stkAlloc 0) ((parked.setReg (stkReg 0x20) 0x400000).setReg (stkReg 0x28) 1))
    (fun t => (t.fld (stkReg 0x38) 0 0, t.fld (stkReg 0x38) 1 1)) = some (0, 1) := by decide +kernel

/-- A TIME message from device 9 for master 9. -/
def time0 (late : Nat) : Seg := { seg0 6 with
  len := 32
  data := leBytes 2 9 ++ List.replicate 6 0 ++ leBytes 8 0 ++ leBytes 4 late ++ List.replicate 12 0 }
def following (late : Nat) : State :=
  ((arrived (time0 late)).setReg 0x1020 (BitVec.ofNat 64 (9 * 2 ^ 48 + 2))).setReg (optBase 0 + 0x10) 0x40

theorem test_witness_TimeOfTheFleet :
    let s := following 16
    s.wf = true ∧ s.headSeg 0 2 = some (time0 16, 2) ∧ s.fld 0x100000 7 4 = 0 ∧ (time0 16).invalid 2 = false ∧
      (time0 16).dstDev = s.device ∧ (time0 16).typ = 6 ∧ (time0 16).data.length = 32 ∧ s.fld 0x1020 1 0 = 2 ∧
      (s.reg (optBase 0 + 0x10)).getLsbD 6 = true ∧ bitsOf (s.reg (optBase 0 + 0x10)) 5 0 = 0 ∧
      recNat (time0 16).data 0 2 = s.fld 0x1020 63 48 ∧ (∀ q : Fin 4, s.job[q] = none) ∧ s.mgmt.queue = [] ∧
      served.awake = true ∧ (served.setFld 0x1020 1 0 1).fld 0x1020 1 0 = 1 ∧ served.tide.num.toNat % 64 = 0 := by decide +kernel

theorem test_time_error_slews : after (exec (.segTime 0 0 (Vector.replicate 64 0)) (following 16))
    (fun t => (t.tide.slew, t.tide.alignRun)) = some (16, 1) := by decide +kernel

def j0 : JobSt := ⟨5, [7], man0, .running, none, none, 0, false, []⟩
def jobbed (j : JobSt) (s : State) : State := { s with job := s.job.set 0 (some j) }

theorem test_witness_PowerBalancing :
    let s := jobbed j0 served
    ([⟨7, 0, 240, 80, 240, false⟩, ⟨8, 5, 240, 80, 240, false⟩] : List BalPart).map (·.dev) = [7, 8] ∧ s.wf = true ∧
      s.serving = true ∧ s.job[0] = some j0 ∧ j0.man.balance = true ∧ s.tide.num.toNat + 200 ≤ (200 : BitVec 64).toNat ∧
      (200 : BitVec 64).toNat + 64 < s.tide.num.toNat + 2 ^ 20 ∧ (199 : BitVec 64).toNat < s.tide.num.toNat + 200 ∧
      s.tide.num.toNat < s.mgmt.brokerTide[0].toNat + 1000 ∧
      ({ s with tide := { s.tide with num := 1000 } } : State).mgmt.brokerTide[0].toNat + 1000 ≤ 1000 := by decide +kernel

/-- The module that waits more than the median gives min(100 W, cap − floor), 4 steps, to the one that waits less. -/
theorem test_balance :
    let parts : List BalPart := [⟨7, 900000, 240, 80, 240, false⟩, ⟨8, 0, 240, 80, 336, false⟩, ⟨9, 500, 240, 80, 240, false⟩]
    (balance parts 7, balance parts 8, balance parts 9) = (-4, 4, 0) := by decide +kernel

/-- Session 0 open with a role. -/
def session (role : Nat) (s : State) : State := { s with mgmt := { s.mgmt with sessions := [(0, ⟨role, 77⟩)] } }

theorem test_witness_SessionsAndCommandOrder :
    let s := session 2 served
    s.serving = true ∧ s.handingOver = false ∧ served.certOk ⟨none, 3, 1⟩ = true ∧ served.certOk ⟨none, 2, 1⟩ = false ∧
      assoc (0 : Fin 16).val s.mgmt.sessions = some ⟨2, 77⟩ ∧ badHdr hdr = false ∧ badHdr { hdr with rsv := true } = true ∧
      s.mgmt.epoch.toNat ≤ hdr.epoch.toNat ∧
      hdr.epoch.toNat < ({ s with mgmt := { s.mgmt with epoch := 1 } } : State).mgmt.epoch.toNat ∧
      (s.windowRead 0x1010).isSome = true ∧ s.openAt 0x1010 = none ∧ fillsAt 0x1010 = [] ∧
      s.offAccess 0x1010 = false ∧ s.pathOpen (.mgmt 1) = true ∧ s.pathOpen (.tuimal 3) = false ∧ s.pathOpen (.ethernet 0) = false ∧
      ethUp.pathOpen (.ethernet 0) = true ∧ (port 3 served).pathOpen (.tuimal 0) = true ∧ assoc 1 s.mgmt.sessions = none := by decide +kernel

theorem test_witness_SessionsAndCommandOrder_sequence :
    let s := session 2 served
    isCtlRow hdr false (.jobAbort hdr false 5) (.jobAbort 5) ∧ hdr.seq = s.acceptedSeq + 1 ∧ hdr.epoch = s.mgmt.epoch ∧
      (0 : BitVec 64).toNat ≤ s.acceptedSeq.toNat ∧ s.acceptedSeq.toNat < (2 : BitVec 64).toNat ∧
      1024 + s.mgmt.retired.length ≤ (s.setReg 0x300030 1024).acceptedSeq.toNat ∧ (CtlBody.jobAbort 5).roleOk 2 = true ∧
      (CtlBody.jobAbort 5).roleOk 1 = false ∧ s.wf = true := by
  exact ⟨rfl, by decide, by decide, by decide, by decide, by decide, by decide, by decide, by decide⟩

theorem accepts_iff (s : State) (h : CmdHdr) (ses : Session) : s.accepts h ses ↔
    s.serving = true ∧ s.handingOver = false ∧ assoc h.ses.val s.mgmt.sessions = some ses ∧ badHdr h = false ∧
      h.epoch = s.mgmt.epoch ∧ h.seq = s.acceptedSeq + 1 ∧ s.acceptedSeq.toNat < 1024 + s.mgmt.retired.length ∧
      s.mgmt.queue = [] ∧ s.mgmt.current = none := Iff.rfl

theorem test_accepts (r : Fin 4) : (session r.val served).accepts hdr ⟨r.val, 77⟩ := by
  rw [accepts_iff]; revert r; decide +kernel

theorem test_witness_SequencedCommands :
    let s := session 2 served
    s.wf = true ∧ s.fld 0x100000 7 4 = 0 ∧ s.tide.num.toNat < (1 : BitVec 64).toNat ∧
      ((1 : BitVec 48).toNat + 2 ^ 48 - (s.tide.num.toNat + 1) % 2 ^ 48) % 2 ^ 48 < 2 ^ 20 ∧ (lasers 2 2 s).laser (partnerBay 0) = 2 ∧
      s.xtl[0].resetting = false ∧ s.xtl[0].running = none ∧ (jobbed j0 s).jobPart 5 = some 0 ∧ (jobbed j0 s).job[0] = some j0 ∧
      j0.phase = .running ∧ (jobbed j0 s).fld 0x300000 7 7 = 0 ∧ s.fld 0x100008 1 0 < (1 : Fin 4).val ∧ s.ledgerCount 1 < 8 ∧
      s.mgmt.ownerKeys.length = s.fld 0x300208 4 0 ∧ s.fld 0x300208 4 0 < 16 ∧ s.ledgerCount 4 < 16 ∧
      s.fld 0x300200 1 0 < (3 : Fin 4).val ∧ s.ledgerCount 5 < 3 ∧ s.ledgerCount 2 < 4 ∧ bitsOf (0x259 : BitVec 64) 8 0 ≤ 259 + 512 ∧
      bitsOf (0x203 : BitVec 64) 8 0 ≤ 259 ∧
      (∀ d : DieIx, s.brn[d].queue = [] ∧ s.brn[d].batches = []) := by decide +kernel

/-- With an image, a microcode or an unlock token that verifies, FW_STAGE, UCODE_LOAD and DEBUG_UNLOCK have their cases. -/
theorem test_witness_SequencedCommands_signed (h : ∀ k m g, Config.verifies k m g = true) :
    served.imageBad { image0 with hash := sha384 [] } = none ∧ served.signedOk [] [] [] = true ∧
      (({ (served.setFld 0x300208 4 0 1) with mgmt := { served.mgmt with ownerKeys := [[1]] } } : State).ownerKey).any
        (fun k => Config.verifies k served.serialBytes [7]) = true := by
  have l : served.fld 0x300200 1 0 = 1 := by decide
  have f : ({ (served.setFld 0x300208 4 0 1) with mgmt := { served.mgmt with ownerKeys := [[1]] } } : State).ownerKey = some [1] := by decide
  refine ⟨?_, ?_, ?_⟩
  · have v : served.mgmt.svnFloor = 0 := rfl
    simp [State.imageBad, l, h, v, image0]
  · simp [State.signedOk, l, h]
  · rw [f]; simp [h]

/-- The manifest of a job that every check of R587 passes, with its program's digest; a manifest with a bad key. -/
def man1 : Manifest := { man0 with sha := sha384 [] }

theorem test_witness_JobLifecycle :
    let s := session 2 served
    s.wf = true ∧ s.submitRefusal { man0 with bad := true } = some 3 ∧ (jobbed { j0 with phase := .starting } s).serving = true ∧
      (jobbed j0 s).job[0] = some j0 ∧ (jobbed j0 s).mgmt.queue = [] ∧
      (jobbed j0 s).jobAligned { man0 with timeMaster := 9 } = false ∧ (jobbed j0 s).jobAligned man0 = true ∧
      ((jobbed { j0 with phase := .ending 0 } s).killPart 0).partDrained 0 = true ∧ (jobbed j0 s).abortCause 0 .recordLost = false ∧
      ((jobbed j0 s).setFld 0x300000 7 7 1).abortCause 0 .recordLost = true := by decide +kernel

theorem test_witness_JobLifecycle_submit : badManifest man1 = false ∧ served.fld 0x300200 1 0 ≠ 3 ∧ (served.pickDies man1).isNone = false ∧
    served.jobs.any (fun j => j.clash man1) = false ∧ sha384 man1.program = man1.sha ∧ served.windowShut = false ∧
    (List.finRange 4).find? (fun p => (served.job[p]).isNone) = some 0 := by
  refine ⟨?_, ?_, ?_, ?_, rfl, ?_, ?_⟩ <;> decide +kernel

theorem test_witness_TakeoverAndEventRing :
    let s := served
    s.wf = true ∧ s.awake = true ∧ s.board.d1Failed = false ∧ s.primary = 0 ∧ (s.setFld 0x300000 9 8 1).primary = 1 ∧
      s.board.phase = .run ∧ s.mgmt.waiting = [] ∧ s.mgmt.queue = [] ∧ (∀ p : Fin 4, s.job[p] = none) ∧ State.reset.board.phase = .boot ∧
      State.reset.awake = true ∧
      ({ s with mgmt := { s.mgmt with handover := some ⟨1, 0⟩ } } : State).handingOver = true ∧
      ({ s with mgmt := { s.mgmt with handover := some ⟨1, 0⟩ } } : State).serving = true ∧
      (∀ d : DieIx, s.fifoDrop[d] = 0) ∧ s.mgmt.ring.length + s.fifoRecords.length ≤ ringSize := by decide +kernel

/-- A mailbox request of partition 0 at virtual 0x8000, with its first 64 bytes. -/
def mailed (block : List Byte) : State := ((mapped served).setReg (mboxReg 0) 0x8001).wrBytes 0x8000 (block ++ List.replicate (64 - block.length) 0)

theorem test_witness_MailboxAndCheckpoints :
    ∀ op ∈ [0, 1, 2, 3, 4, 5, 6, 7, 8],
      let s := mailed [BitVec.ofNat 8 op, 0, 0xFF]
      s.wf = true ∧ s.serving = true ∧ s.fld (mboxReg 0) 0 0 = 1 ∧ s.mboxPa 0 = some 0x8000 ∧ s.mgmt.mboxWait[0] = none ∧
        recNat (s.rdBytes 0x8000 64) 0 2 = op ∧ s.rdByte 0x8002 = 0xFF ∧ s.fld (stkReg 0x38) 0 0 = 0 ∧
        (∀ q : PartIx, s.mgmt.mboxWait[q] ≠ some 0) ∧ s.domainsOff = false := by decide +kernel

theorem test_witness_MailboxAndCheckpoints_snapshot :
    let s := mailed [7, 0, 0xFF, 0, 0, 0, 0, 0, 9]
    s.tide.num.toNat < (BitVec.ofNat 64 (recNat (s.rdBytes 0x8000 64) 8 8)).toNat ∧
      (mailed [1, 0, 3]).rdByte 0x8002 ≠ 0xFF ∧ (mailed [1, 0, 3]).wf = true := by decide +kernel

theorem test_mailbox_end : after (exec (.mboxEnd 0) (jobbed j0 (mailed [1, 0, 0xFF])))
    (fun t => (t.fld (mboxReg 0) 0 0, t.rdBytes 0x8004 4, (t.job[0]).map (·.phase))) =
      some (0, [1, 0, 0, 0], some (.ending 0)) := by decide +kernel

def region0 : CkptRegion := ⟨0x10000, 8, 0, none⟩

theorem test_witness_MailboxAndCheckpoints_checkpoints :
    let s := mailed [5, 0, 0xFF]
    s.tapHeld [region0] false = none ∧ s.planOk 0 [region0] = true ∧ ((s.ckptCtx region0).rdLong 0x10000 8).2.received.2 = true ∧
      (mailed [6, 0, 0xFF]).tapHeld [region0] true = none ∧
      (((mailed [6, 0, 0xFF]).ckptCtx region0).wrLong 0x10000 [1, 2, 3, 4, 5, 6, 7, 8]).received.2 = true ∧
      ({ s with int := { s.int with claims := [(ckptTap region0 false, 0xC1)] } } : State).tapHeld [region0] false =
        some (ckptTap region0 false, 0xC1) ∧ crc64 [1, 2, 3, 4, 5, 6, 7, 8] ≠ 0 := by decide +kernel

theorem test_witness_PinsAndTestPort :
    served.i3cUp = true ∧ ({ served with board := { served.board with phase := .off } } : State).i3cUp = false ∧
      served.board.dynAddr = none ∧ ({ served with board := { served.board with dynAddr := some 9 } } : State).board.dynAddr = some 9 ∧
      (0 : Byte).toNat + 17 ≤ 0x11 ∧ 0x11 < (0x12 : Byte).toNat ∧ served.board.vin < 2 ^ 16 ∧ served.board.log = [] ∧
      served.islandOn = true ∧ ({ served with board := { served.board with phase := .off } } : State).islandOn = false ∧
      served.fld 0x300000 6 6 = 0 ∧ (served.setFld 0x300000 6 6 1).fld 0x300000 6 6 = 1 := by decide +kernel

theorem test_private_read_of_version : after (exec (.i3cPrivateRead 2) { served with board := { served.board with
    dynAddr := some 9, i3cIx := 0x10 } }) (fun t => (t.board.i3cOut, t.board.i3cIx)) = some ([0, 0], 0x12) := by decide +kernel

/-- PERIOD is RWT at 0x1000, CORE_FSTAT a W1C register, 0x1010 a counter's neighbour, 0xFF0000 lies in no block. -/
theorem test_witness_RegisterWrite :
    served.wf = true ∧ served.awake = true ∧ served.offAccess 0x1020 = false ∧
      (match slotOf 0x300010 with
        | some (.reg d b o r) => decide (canonOff b 0x300010 r = 0x300010 ∧ o = o ∧ d.rw ≠ 0) &&
          (served.specialWrite b 0x300010 r 5).isNone && served.frozen b r 5 == 0
        | _ => false) = true ∧
      (match slotOf 0x100010 with
        | some (.reg d _ _ _) => decide (d.rwt ≠ 0)
        | _ => false) = true ∧
      (slotOf 0xFF0000).isNone = true ∧ (match slotOf 0x100400 with
        | some (.ctr _) => true
        | _ => false) = true ∧ (match slotOf 0x100408 with
        | some (.shadow _) => true
        | _ => false) = true ∧ (inState 2 served).offAccess (panBase 0) = true ∧ (inState 2 served).pwr.offTide ≠ some 0 := by
  decide +kernel

theorem test_unassigned_write : after (exec (.registerWrite 2 0xFF0000 1) served) (fun t => (t.regs, t.fifo[0].map (·.code), t.fifo[1].map (·.code))) =
    some ([], [], [0x101]) := by decide +kernel

theorem test_witness_CoreControlAndClaims :
    let s := served
    let ahead (x : Nat) : Nat := (x + 64 - 3) % 64
    s.wf = true ∧ s.awake = true ∧ s.domainsOff = false ∧ s.core[0].mode = .halted ∧ up.core[0].mode ≠ .halted ∧
      up.core[0].mode ≠ .stopped ∧ ahead 2 = 63 ∧ ahead 3 = 0 ∧ ahead 2 < 64 ∧ resourceOk 0x4000 = true ∧ resourceOk 0x5003 = true ∧
      resourceOk 0 = false ∧ assoc 0x4000 s.int.claims = none ∧ assoc 0x4000 [(0x4000, (0xC1 : Nat))] = some 0xC1 ∧
      (inGran [0]).disp[clusterOf 0].running = some (granule0 [0]) ∧ (0 : CoreIx) ∈ (granule0 [0]).cores := by decide +kernel

theorem test_claim_held : after (exec (.claim 0xC2 0x4000) { served with int := { served.int with claims := [(0x4000, 0xC1)] } })
    (fun t => (t.fld 0x3008 47 40, t.fld 0x3008 1 0, t.int.claims)) = some (0xC1, 1, [(0x4000, 0xC1)]) := by decide +kernel

/-- The one stop: an access pending at an address that nothing maps (R353). -/
theorem test_witness_EveryCommandCompletes :
    let s := atCore { run0 with acc := [⟨0, 2 ^ 50, .ld 1 .b false⟩] }
    s.clocked = true ∧ s.core[0].acc[0]? = some ⟨0, 2 ^ 50, .ld 1 .b false⟩ ∧ s.region (s.forward (2 ^ 50)) = none ∧
      (match exec (.accessPerformed 0 0 ⟨0, 0⟩) s with
        | .fault (.noSuchAddress pa) => pa == 2 ^ 50
        | _ => false) = true := by decide +kernel

/-! Check values of the polynomials, of the ASCII digits 1 to 9. -/

def digits : List Byte := (List.range 9).map (fun i => BitVec.ofNat 8 (0x31 + i))

theorem test_crc32c_digits : crc32c digits = 0xE3069283 := by decide +kernel

theorem test_crc64_digits : crc64 digits = 0x6C40DF5F0B497347#64 := by decide +kernel

/-! The worked examples of the chapters. -/

/-- The MXFP8 block after R70: 1000, 0.3 and 0.001. -/
theorem test_mxfp8_block :
    writeBlock ⟨.e4m3, 32, false⟩
      [(vNat 1000, .rne), (.fin false 3 10 0, .rne), (.fin false 1 1000 0, .rne)] = (0x81, [0x78, 0x1A, 0], 0) := by
  decide +kernel

/-- The element with K = 96 after R78: 2^24 and not 2^24 + 2. -/
theorem test_reference_order :
    let z (n : Nat) : List Val := List.replicate n (vZero false)
    refDot ([vPow2 24, vInt (-2 ^ 24), vPow2 24, vNat 1] ++ z 28 ++ [vNat 1] ++ z 31 ++ [vNat 1] ++ z 31) none = r32 (vPow2 24) := by
  decide +kernel

/-- Step 6 after R88: 1.0 + 144 units of 2^−15 rounds to 1.0078125 and leaves −112. -/
theorem test_bittern_step6 : bitternSplit (.fin false (2 ^ 15 + 144) 1 (-15)) 8 = (0x3F81, -112) := by decide +kernel

/-- The heavy-ball element after R187: w 0.99609375, m 0.6875, b 64, w_x 1. -/
theorem test_heavy_ball :
    let q : XtlStep := ⟨⟨false, 0, false, 1, 1, 0, 0x30, 0x3F600000, 0x3F800000, 0x3F600000, 0x3F800000, 0, 0, 0, 0, 0⟩,
      r32 (vPow2 (-10)), r32 (vPow2 (-8)), r32 (vPow2 (-4)), 0x3F800000⟩
    (q.update 1 1 ⟨0x3F80, 0x3F00, 0⟩ (vNat 256)).elem = ⟨0x3F7F, 0x3F30, 64⟩ := by decide +kernel

/-- The block pressed at one half after R234. -/
theorem test_press_block :
    let p := (pressBlock ([vNat 3, .fin true 13 1 (-5), .fin false 205 1 (-11), vZero false] ++ List.replicate 124 (vZero false)) 7 (-126)).1
    p % 256 = 0x80 ∧ p / 2 ^ 128 % 128 = 0x30 ∧ p / 2 ^ 135 % 128 = 0x46 ∧ p / 2 ^ 142 % 128 = 2 ∧
      expandVal p 7 1 = .fin true 6 1 (-4) := by decide +kernel

def weight : Desc :=
  ⟨0, 0x74, ⟨.e2m1, 32, false⟩, 0, false, false, false, 0, 0, 0x4000000000, 0x4000200000, [4096, 1024], [1, 4096], 0, 0⟩

/-- The MXFP4 weight after R328: element (100, 3). -/
theorem test_mxfp4_address :
    weight.address [100, 3] = (0x4000001832, 0) ∧ weight.blockOf [100, 3] = 387 := by decide +kernel

/-- The line after R355: pseudo-channel and home slice of PA 0x8001237A40. -/
theorem test_home_slice : pcOf 4774464 = 3 ∧ served.homeOf 0x8001237A40 = some 2 ∧ served.stackOf 0x8001237A40 = some (7, 4774464) := by
  decide +kernel

/-- The grants after R541: 860 W, 1740 W and 3300 W of a budget of 5900 W. -/
theorem test_grants : grants 5900000 [500000, 600000, 500000] [860000, 1740000, 4390000] [0, 1, 2] = [860000, 1740000, 3300000] := by
  decide +kernel

theorem test_cluster_bases : sluBase 5 = 0x3700000 ∧ clusterOf 77 = 4 := by decide +kernel

/-- The example of FIPS 180-4: the digest of "abc", first four bytes. -/
theorem test_sha384_abc : (sha384 [0x61, 0x62, 0x63]).take 4 = [0xCB, 0x00, 0x75, 0x3F] := by decide +kernel

/-- e = 2.718281828459045…, whose nearest FP32 number is 0x402DF854: 2 ulp on either side (R235). -/
theorem test_exp_one : nearCodes (encSf 0 (vNat 1)) = [0x402DF853, 0x402DF854, 0x402DF855, 0x402DF856] ∨
    nearCodes (encSf 0 (vNat 1)) = [0x402DF852, 0x402DF853, 0x402DF854, 0x402DF855] := by decide +kernel

/-- sin of the FP32 number nearest π is −8.7422777e−8, 0xB3BBBD2E to nearest. -/
theorem test_sin_pi : nearCodes (encSf 7 (d32 0x40490FDB)) = [0xB3BBBD30, 0xB3BBBD2F, 0xB3BBBD2E, 0xB3BBBD2D] ∨
    nearCodes (encSf 7 (d32 0x40490FDB)) = [0xB3BBBD2F, 0xB3BBBD2E, 0xB3BBBD2D, 0xB3BBBD2C] := by decide +kernel

/-- exp(−∞) is 0 and exp(0) is 1 in the soft-maximum stage. -/
theorem test_rake_exp : rakeExp 0xFF800000 = 0 ∧
    (let e := encExp (encVal (d32 0)); (fFP32.ieee (.fin (decide (e.lo < 0)) e.lo.natAbs 1 (-640))).1 = 0x3F800000 ∧
      (fFP32.ieee (.fin (decide (e.hi < 0)) e.hi.natAbs 1 (-640))).1 = 0x3F800000) := by decide +kernel

/-- The example after R159: two blocks of 1024 rows, K_t = N_t = 1024: the cross side holds row entry 8 pan-cycles. -/
theorem test_twin_hold : twinHolds 1024 1024 [1024, 1024] 0 4 = 8 := by decide +kernel

/-- R317: positions 0 and 1 of one line are one update; position 1 again starts another. -/
theorem test_line_updates :
    let x := (((served.recvCtx 0 0).contribute 0x8000000000).contribute 0x8000000004).contribute 0x8000000004
    x.s.ctrAt (cacheBase 2 + 0x440) = 2 := by decide +kernel

end Sys2Proof.Tests
end

section
/-! SUPPORT AND SETTLEMENT. The tide's registers, the warnings that a stall or a wait has lasted, and the discipline to
PPS_IN (R33, R39 to R41, R49 to R51, R247, R312, R594, R628). -/

namespace Sys2Proof.Machine

/-! Payloads. -/

/-- The payload of event 0x0107: the two bits of the period asked for (R33). -/
theorem pack_period (v : BitVec 64) : pack [(bitsOf v 1 0, 0)] = v &&& 3 := by
  apply BitVec.eq_of_toNat_eq
  have low_two : v.toNat &&& 3 = v.toNat % 4 := Nat.and_two_pow_sub_one_eq_mod v.toNat 2
  have small : v.toNat % 4 < 2 ^ 64 := by omega
  simpa [pack, bitsOf, low_two] using small

/-- A byte and a number above it do not overlap: their payload is their sum. -/
theorem pack_byte (x y : Nat) (hx : x < 256) : pack [(x, 0), (y, 8)] = BitVec.ofNat 64 (x + 256 * y) := by
  have disjoint : x ||| y * 256 = x + 256 * y := by
    rw [Nat.or_comm, Nat.mul_comm, Nat.add_comm]
    exact (Nat.two_pow_add_eq_or_of_lt (i := 8) hx y).symm
  simp [pack, ← BitVec.ofNat_or, disjoint]

/-! SNAP_REQ and TIDE_PERIOD. -/

theorem exec_tidePeriodWrite (v : BitVec 64) (s : State) :
    exec (.tidePeriodWrite v) s = .next (if s.fld 0x1030 0 0 = 1 then s.raiseMod 0 0x107 (v &&& 3)
      else { s with staged := assocPut 0x1000 (v &&& 3) s.staged }) := by
  show Host.Outcome.next (s.periodWrite v) = _
  rw [State.periodWrite, pack_period]

/-- What an armed snapshot leaves once its edge has come (R49, R628). -/
def State.snapped (s : State) : State :=
  (({ s with shadow := s.edgeCtr, tide := { s.tide with snapSeen := some [] } } : State).setReg 0x1010 s.tide.num).setReg 0x1048
    (setBits (setBits (s.reg 0x1048) 0 0 0) 1 1 1)

theorem exec_snapshotTaken_due {s : State} (armed : s.fld 0x1048 0 0 = 1) (due : (s.reg 0x1040).toNat ≤ s.tide.num.toNat) :
    exec .snapshotTaken s = .next s.snapped :=
  congrArg Host.Outcome.next (if_pos ⟨armed, due⟩)

theorem State.snapped_reg {s : State} (h : s.wf = true) (off : Nat) : s.snapped.reg off =
    if off = 0x1048 then setBits (setBits (s.reg 0x1048) 0 0 0) 1 1 1
    else if off = 0x1010 then s.tide.num else s.reg off := by
  unfold State.snapped
  rw [State.reg_setReg (mapWf_put (State.wf_regs h) _ _)]
  exact ite_congr rfl (fun _ => rfl) (fun _ => mapGet_put (State.wf_regs h) _ _ _)

theorem State.snapped_status {s : State} (h : s.wf = true) :
    s.snapped.reg 0x1048 = setBits (setBits (s.reg 0x1048) 0 0 0) 1 1 1 :=
  (State.snapped_reg h 0x1048).trans (if_pos rfl)

theorem State.snapped_armed {s : State} (h : s.wf = true) : s.snapped.fld 0x1048 0 0 = 0 := by
  unfold State.fld
  rw [State.snapped_status h]
  exact (bitsOf_setBits_other _ 1 1 1 0 0 (by decide) (by decide) (.inl (by decide))).trans
    (bitsOf_setBits_same _ 0 0 0 (by decide) (by decide))

theorem State.snapped_taken {s : State} (h : s.wf = true) : s.snapped.fld 0x1048 1 1 = 1 := by
  unfold State.fld
  rw [State.snapped_status h]
  exact bitsOf_setBits_same _ 1 1 1 (by decide) (by decide)

/-! Warnings. -/

/-- The warned form is the one branch that raises: the guard of R247 and R312 and its refusal, turned about. -/
theorem ite_warn {α : Type} (w a n : Nat) (b : Bool) (x y : α) :
    (if w = 0 ∨ b = true ∨ n < a + w then x else y) = if w ≠ 0 ∧ b = false ∧ a + w ≤ n then y else x := by
  have turned : (w ≠ 0 ∧ b = false ∧ a + w ≤ n) ↔ ¬ (w = 0 ∨ b = true ∨ n < a + w) := by
    simp only [not_or, Nat.not_lt, Bool.not_eq_true, ne_eq]
  by_cases quiet : w = 0 ∨ b = true ∨ n < a + w
  · rw [if_pos quiet, if_neg (fun warns => turned.mp warns quiet)]
  · rw [if_neg quiet, if_pos (turned.mpr quiet)]

/-- The code of a stall in event 0x1112 (R247). -/
def Stall.code (st : Stall) : Nat := if st.token then 7 else match st.target with
  | .pan => 3
  | .slu => 4
  | .brn => 5
  | .xtl => 6

theorem Stall.code_lt (st : Stall) : st.code < 256 := by
  unfold Stall.code
  split
  · decide
  · cases st.target <;> decide

/-- What ISSUE_STALL_WARN does to a core that stands in a stall (R247). -/
theorem exec_issueStallWarn {s : State} {c : CoreIx} {st : Stall} (h : s.core[c].stall = some st) :
    exec (.issueStallWarn c) s = .next (
      if s.fld (dispReg (c.val / 16) 0) 31 0 ≠ 0 ∧ st.warned = false ∧
          st.since.toNat + s.fld (dispReg (c.val / 16) 0) 31 0 ≤ s.tide.num.toNat then
        (s.setCore c { s.core[c] with stall := some { st with warned := true } }).raise (s.coreSrc c.val) 0x1112
          (BitVec.ofNat 64 (st.code + 256 * c.val))
      else s) := by
  rw [← ite_warn, ← pack_byte _ _ st.code_lt]
  show execIssueStallWarn c s = _
  unfold execIssueStallWarn
  rw [h]
  rfl

/-- What SYNC_WAIT_WARN does to a core in a wait that event 0x1240 codes (R312). -/
theorem exec_syncWaitWarn {s : State} {c : CoreIx} {w : Wait} {a b : Nat} (h : s.core[c].wait = some w)
    (coded : w.kind.code = some (a, b)) :
    exec (.syncWaitWarn c) s = .next (
      if s.fld (cacheBase (c.val / 16) + 8) 31 0 ≠ 0 ∧ w.warned = false ∧
          w.since.toNat + s.fld (cacheBase (c.val / 16) + 8) 31 0 ≤ s.tide.num.toNat then
        (s.setCore c { s.core[c] with wait := some { w with warned := true } }).raise (s.coreSrc c.val) 0x1240
          (pack [(a, 0), (b, 4), (c.val, 8)])
      else s) := by
  rw [← ite_warn]
  show execSyncWaitWarn c s = _
  unfold execSyncWaitWarn
  simp only [h, coded]
  rfl

/-! PPS: where the phase and the number of a step stand. -/

theorem State.tidesPerSecond_pos (s : State) : 0 < s.tidesPerSecond := by
  unfold State.tidesPerSecond State.periodUs
  split <;> decide

/-- The least whole second not below `n` is a whole second, and less than a second ahead (R41). -/
theorem State.wholeSecond_spec (s : State) (n : Nat) : s.wholeSecond n % s.tidesPerSecond = 0 ∧ n ≤ s.wholeSecond n ∧
    s.wholeSecond n < n + s.tidesPerSecond := by
  have pos := s.tidesPerSecond_pos
  have division := Nat.div_add_mod' (n + s.tidesPerSecond - 1) s.tidesPerSecond
  have rest := Nat.mod_lt (n + s.tidesPerSecond - 1) pos
  unfold State.wholeSecond
  exact ⟨Nat.mul_mod_left _ _, by omega, by omega⟩

/-- Looking at the cores' waits again leaves the tide unit as it was. -/
theorem State.settleAll_tide (s : State) : s.settleAll.tide = s.tide := by
  have each (l : List CoreIx) : ∀ t : State, (l.foldl (fun s c => s.settle c) t).tide = t.tide := by
    induction l with
    | nil => exact fun _ => rfl
    | cons c l ih => exact fun t => ih (t.settle c)
  unfold State.settleAll
  split
  · exact each _ s
  · rfl

/-- Setting the number takes a whole second and ends the step (R41). -/
theorem State.ppsNumber_tide (s : State) (phase : Int) (n : Nat) : (s.ppsNumber phase n).tide =
    { s.tide with num := BitVec.ofNat 64 (s.wholeSecond n), ppsSet := false, ppsAwait := none } := by
  simp only [State.ppsNumber, State.ppsEvent, State.setFld_tide, State.raiseMod_tide]

/-! PPS_EDGE, by the branches of R40 and R41. -/

/-- The tide edge nearest to an accepted PPS edge. -/
def State.ppsNearest (s : State) (e : Int) : Nat := if 0 < e then s.tide.num.toNat + 1 else s.tide.num.toNat

/-- The error of an accepted edge is to be slewed away (R39). -/
def State.ppsSlewed (s : State) (e : Int) : State := { s with tide := { s.tide with ppsLast := s.tide.num, slew := 16 * e } }

/-- A step of the phase (R41). -/
def State.ppsStep (s : State) (e : Int) : State :=
  { s with tide := { s.tide with ppsLast := s.tide.num, slew := 0, ppsPhase := some e, ppsAwait := some e, ppsSet := false } }

/-- PPS_LOCKED as an edge leaves it: set within 25 ns and on a whole second (R40). -/
def State.ppsLock (s q : State) (e : Int) : State :=
  q.setFld 0x1020 7 7 (if -25 ≤ e ∧ e ≤ 25 ∧ s.ppsNearest e % s.tidesPerSecond = 0 then 1 else 0)

theorem b2n_lock (e : Int) (whole : Prop) [Decidable whole] :
    b2n (decide (-25 ≤ e ∧ e ≤ 25) && decide whole) = if -25 ≤ e ∧ e ≤ 25 ∧ whole then 1 else 0 := by
  simp only [b2n, Bool.and_eq_true, decide_eq_true_eq, and_assoc]

theorem exec_pps_off {s : State} (off : s.ppsOn = false) (err : BitVec 32) :
    exec (.ppsEdge err) s = .next s ∧ exec .ppsAbsent s = .next s :=
  ⟨congrArg Host.Outcome.next (if_pos (by rw [off]; rfl)), congrArg Host.Outcome.next (if_neg (by simp [off]))⟩

theorem exec_ppsAbsent_on {s : State} (on : s.ppsOn = true) : exec .ppsAbsent s =
    .next ((({ s with tide := { s.tide with slew := 0 } } : State).setFld 0x1020 7 7 0).raiseMod 0 0x105 s.tide.ppsLast) :=
  congrArg Host.Outcome.next (if_pos on)

section
variable {s : State} {err : BitVec 32}

/-- Under JOB_LOCK an edge slews, and a step in progress is given up (R41). -/
theorem exec_ppsEdge_locked (on : s.ppsOn = true) (locked : s.fld 0x1030 0 0 = 1) :
    exec (.ppsEdge err) s = .next (s.ppsLock { s with tide := { (s.ppsSlewed err.toInt).tide with
      ppsPhase := none, ppsAwait := none, ppsSet := false } } err.toInt) := by
  refine congrArg Host.Outcome.next ((if_neg (by simp [on])).trans ((if_pos locked).trans ?_))
  rw [b2n_lock]; rfl

/-- With no step in progress an edge begins one, or slews and sets PPS_LOCKED (R40, R41). -/
theorem exec_ppsEdge_free (on : s.ppsOn = true) (unlocked : s.fld 0x1030 0 0 ≠ 1) (free : s.tide.ppsAwait = none) :
    exec (.ppsEdge err) s = .next (
      if s.fld 0x1020 7 7 = 0 ∧
          ((err.toInt < -1000 ∨ 1000 < err.toInt) ∨ s.ppsNearest err.toInt % s.tidesPerSecond ≠ 0) then
        s.ppsStep err.toInt
      else s.ppsLock (s.ppsSlewed err.toInt) err.toInt) := by
  refine congrArg Host.Outcome.next ((if_neg (by simp [on])).trans ((if_neg unlocked).trans ?_))
  simp only [free, State.ppsStep, State.ppsLock, State.ppsSlewed, b2n_lock, Bool.or_eq_true,
    Bool.not_eq_true', decide_eq_true_eq, decide_eq_false_iff_not]
  rfl

/-- While a step waits for its number: another step, a slew alone, the number at the next edge, or the number at the edge
that has just fallen (R41). -/
theorem exec_ppsEdge_stepping (on : s.ppsOn = true) (unlocked : s.fld 0x1030 0 0 ≠ 1) {phase : Int}
    (awaits : s.tide.ppsAwait = some phase) :
    exec (.ppsEdge err) s = .next (
      if err.toInt < -1000 ∨ 1000 < err.toInt then s.ppsStep err.toInt
      else if ¬ (-25 ≤ err.toInt ∧ err.toInt ≤ 25) then s.ppsSlewed err.toInt
      else if 0 < err.toInt then { s with tide := { (s.ppsSlewed err.toInt).tide with ppsSet := true } }
      else ((s.ppsSlewed err.toInt).ppsNumber phase (s.ppsNearest err.toInt)).settleAll) := by
  refine congrArg Host.Outcome.next ((if_neg (by simp [on])).trans ((if_neg unlocked).trans ?_))
  simp only [awaits, State.ppsStep, State.ppsSlewed, Bool.not_eq_true', decide_eq_true_eq, decide_eq_false_iff_not]
  rfl

/-- An edge that falls on a tide edge sets the number of that tide to a whole second and ends the step (R41). -/
theorem exec_ppsEdge_numbers (on : s.ppsOn = true) (unlocked : s.fld 0x1030 0 0 ≠ 1) {phase : Int}
    (awaits : s.tide.ppsAwait = some phase) (close : -25 ≤ err.toInt ∧ err.toInt ≤ 25) (early : err.toInt ≤ 0) :
    ∃ t m, exec (.ppsEdge err) s = .next t ∧ t.tide.num = BitVec.ofNat 64 m ∧ m % s.tidesPerSecond = 0 ∧
      s.tide.num.toNat ≤ m ∧ m < s.tide.num.toNat + s.tidesPerSecond ∧ t.tide.ppsAwait = none := by
  have near : s.ppsNearest err.toInt = s.tide.num.toNat := if_neg (by omega)
  obtain ⟨whole, lower, upper⟩ := (s.ppsSlewed err.toInt).wholeSecond_spec s.tide.num.toNat
  refine ⟨((s.ppsSlewed err.toInt).ppsNumber phase s.tide.num.toNat).settleAll,
    (s.ppsSlewed err.toInt).wholeSecond s.tide.num.toNat, ?_, ?_, whole, lower, upper, ?_⟩
  · rw [exec_ppsEdge_stepping on unlocked awaits, if_neg (by omega), if_neg (fun apart => apart close), if_neg (by omega), near]
  · rw [State.settleAll_tide, State.ppsNumber_tide]
  · rw [State.settleAll_tide, State.ppsNumber_tide]

end

/-- Settles O30: each command by its equation above, PPS_EDGE by the branches of R40 and R41. -/
theorem tideRegistersAndPps : Obligations.TideRegistersAndPps := by
  unfold Obligations.TideRegistersAndPps
  refine ⟨⟨fun s t v => ⟨rfl, rfl, exec_tidePeriodWrite v s, fun wf armed due => ?snapshot⟩,
    fun s c => ⟨fun st stalled => exec_issueStallWarn stalled, fun w a b waits coded => exec_syncWaitWarn waits coded⟩⟩,
    fun s err => ⟨fun off => exec_pps_off off err, fun on => ⟨exec_ppsAbsent_on on, fun locked => exec_ppsEdge_locked on locked,
      fun unlocked free => ?free, fun unlocked awaits => ?stepping⟩⟩⟩
  case snapshot =>
    refine ⟨s.snapped, exec_snapshotTaken_due armed due, rfl, rfl, ?_, State.snapped_armed wf, State.snapped_taken wf, rfl,
      fun off notLast notStatus => ?_⟩
    · rw [State.snapped_reg wf, if_neg (by decide), if_pos rfl]
    · rw [State.snapped_reg wf, if_neg notStatus, if_neg notLast]
  case free =>
    rw [exec_ppsEdge_free on unlocked free]
    exact ⟨fun lost off => congrArg Host.Outcome.next (if_pos ⟨lost, off⟩), fun keeps => congrArg Host.Outcome.next (if_neg keeps)⟩
  case stepping =>
    obtain ⟨phase, awaits⟩ := Option.isSome_iff_exists.mp awaits
    refine ⟨?_, ?_, ?_, exec_ppsEdge_numbers on unlocked awaits⟩ <;> rw [exec_ppsEdge_stepping on unlocked awaits]
    · exact fun far => congrArg Host.Outcome.next (if_pos far)
    · exact fun notFar apart => by rw [if_neg notFar, if_pos apart]; rfl
    · exact fun close late => by rw [if_neg (by omega), if_neg (fun apart => apart close), if_pos late]; rfl

end Sys2Proof.Machine
end

section
/-! SUPPORT AND SETTLEMENT. The scalar instructions (R264 to R266): the words they write as the rules give them, in the
arithmetic of Nat and Int, and the one effect that all of them share. -/

namespace Sys2Proof.Machine

/-! The words, as R264 to R266 give them. -/

section
variable (x y : BitVec 64)

theorem sub_eq_ofInt : x - y = BitVec.ofInt 64 (x.toInt - y.toInt) :=
  BitVec.eq_of_toInt_eq (by rw [BitVec.toInt_sub, BitVec.toInt_ofInt])

theorem mul_eq_ofInt : x * y = BitVec.ofInt 64 (x.toInt * y.toInt) := by
  rw [BitVec.ofInt_mul, BitVec.ofInt_toInt, BitVec.ofInt_toInt]

theorem ite_slt (v w : BitVec 64) : (if x.slt y then v else w) = if x.toInt < y.toInt then v else w := by
  simp only [BitVec.slt_iff_toInt_lt]

theorem ite_ult (v w : BitVec 64) : (if x.ult y then v else w) = if x.toNat < y.toNat then v else w := by
  simp only [BitVec.ult_iff_lt, BitVec.lt_def]

theorem shiftLeft_eq_ofNat (n : Nat) : x <<< n = BitVec.ofNat 64 (x.toNat * 2 ^ n) := by
  rw [← Nat.shiftLeft_eq]; rfl

theorem ushiftRight_eq_ofNat (n : Nat) : x >>> n = BitVec.ofNat 64 (x.toNat / 2 ^ n) := by
  rw [← Nat.shiftRight_eq_div_pow, ← BitVec.toNat_ushiftRight, BitVec.ofNat_toNat, BitVec.setWidth_eq]

theorem sshiftRight_eq_ofInt (n : Nat) : x.sshiftRight n = BitVec.ofInt 64 (x.toInt / 2 ^ n) := by
  rw [BitVec.sshiftRight, Int.shiftRight_eq_div_pow]; norm_cast

/-- LIH's word: bits [47:0] stand below the immediate (R266). -/
theorem setBits_high (h : BitVec 16) : setBits x 63 48 h.toNat = BitVec.ofNat 64 (h.toNat * 2 ^ 48 + x.toNat % 2 ^ 48) := by
  refine BitVec.eq_of_getLsbD_eq fun i inside => ?_
  have below : x.toNat % 2 ^ 48 < 2 ^ 48 := Nat.mod_lt _ (by decide)
  rw [setBits_getLsbD x 63 48 h.toNat i (by decide) (by decide), BitVec.getLsbD_ofNat, Nat.mul_comm,
    Nat.testBit_two_pow_mul_add _ below, Nat.testBit_mod_two_pow]
  by_cases high : 48 ≤ i
  · simp [high, inside, show i ≤ 63 by omega, show ¬ i < 48 by omega]
  · simp [high, inside, show i < 48 by omega, BitVec.getLsbD]

end

/-! The effect. -/

section
variable {s : State} {c : CoreIx} {rd ra rb : RegIx} {v : BitVec 64}

/-- An issued scalar operation writes its word to RD and goes on. -/
theorem scalar2_gives {b : SOp} {f : BitVec 64 → BitVec 64 → BitVec 64} (can : s.canIssue c (rd :: ra :: b.regs) [] = true)
    (word : f (s.core[c].sget ra) (b.value s.core[c]) = v) : scalar2 c rd ra b f s = .next (s.done c (s.core[c].sput rd v)) :=
  word ▸ issueReg_can can

theorem shift2_gives {b : ShOp} {f : BitVec 64 → Nat → BitVec 64} (can : s.canIssue c (rd :: ra :: b.regs) [] = true)
    (word : f (s.core[c].sget ra) (b.amount s.core[c]) = v) : shift2 c rd ra b f s = .next (s.done c (s.core[c].sput rd v)) :=
  word ▸ issueReg_can can

theorem mul2_gives {f : BitVec 64 → BitVec 64 → BitVec 64} (can : s.canIssue c [rd, ra, rb] [] = true)
    (word : f (s.core[c].sget ra) (s.core[c].sget rb) = v) : mul2 c rd ra rb f s = .next (s.done c (s.core[c].sput rd v)) :=
  word ▸ issueReg_can can

end

/-- Settles O5: each instruction is the shared effect with its own word. -/
theorem scalarResults : Obligations.ScalarResults := by
  unfold Obligations.ScalarResults
  refine ⟨fun s c rd ra b can => ?arithmetic, fun s c rd ra b can => ?shift, fun s c rd ra rb can => ?multiply,
    fun s c rd v h can => ?immediate⟩
  case arithmetic =>
    exact ⟨scalar2_gives (f := (· + ·)) can (BitVec.add_def ..),
      scalar2_gives (f := (· - ·)) can (sub_eq_ofInt ..),
      scalar2_gives (f := (· &&& ·)) can rfl,
      scalar2_gives (f := (· ||| ·)) can rfl,
      scalar2_gives (f := (· ^^^ ·)) can rfl,
      scalar2_gives (f := fun x y => bitWord (x.slt y)) can (ite_slt ..),
      scalar2_gives (f := fun x y => bitWord (x.ult y)) can (ite_ult ..),
      scalar2_gives (f := fun x y => if x.slt y then x else y) can (ite_slt ..),
      scalar2_gives (f := fun x y => if x.slt y then y else x) can (ite_slt ..),
      scalar2_gives (f := fun x y => if x.ult y then x else y) can (ite_ult ..),
      scalar2_gives (f := fun x y => if x.ult y then y else x) can (ite_ult ..)⟩
  case shift =>
    cases b <;> exact ⟨shift2_gives (f := (· <<< ·)) can (shiftLeft_eq_ofNat ..),
      shift2_gives (f := (· >>> ·)) can (ushiftRight_eq_ofNat ..),
      shift2_gives (f := BitVec.sshiftRight) can (sshiftRight_eq_ofInt ..)⟩
  case multiply =>
    exact ⟨mul2_gives (f := (· * ·)) can (mul_eq_ofInt ..), mul2_gives (f := mulhS) can rfl, mul2_gives (f := mulhU) can rfl,
      mul2_gives (f := sdiv) can rfl, mul2_gives (f := udiv) can rfl, mul2_gives (f := srem) can rfl,
      mul2_gives (f := urem) can rfl⟩
  case immediate =>
    refine ⟨issueReg_can (f := fun k => k.sput rd (v.signExtend 64)) can, ?_⟩
    rw [← setBits_high]
    exact issueReg_can (f := fun k => k.sput rd (setBits (k.sget rd) 63 48 h.toNat)) can

end Sys2Proof.Machine
end

section
/-! SUPPORT AND SETTLEMENT. The waits of a core: what an instruction that waits leaves, what a completion ends, staged
blocks before a fence, and barriers (R241, R276, R285 to R288, R307 to R310). -/

namespace Sys2Proof.Machine

/-! One core. -/

theorem State.onCore_at_same (s : State) (c : CoreIx) (f : CoreSt → CoreSt) : (s.onCore c f).core[c] = f s.core[c] :=
  Vector.getElem_set_self _

theorem State.onCore_at_other (s : State) {c d : CoreIx} (f : CoreSt → CoreSt) (other : d ≠ c) :
    (s.onCore c f).core[d] = s.core[d] :=
  Vector.getElem_set_ne c.isLt d.isLt (fun same => other (Fin.ext same.symm))

theorem State.setCore_at_same (s : State) (c : CoreIx) (k : CoreSt) : (s.setCore c k).core[c] = k :=
  Vector.getElem_set_self _

theorem State.setCore_setCore (s : State) (c : CoreIx) (k q : CoreSt) : (s.setCore c k).setCore c q = s.setCore c q := by
  unfold State.setCore
  rw [Vector.set_set]

theorem State.canIssue_idle {s : State} {c : CoreIx} {ss vs : List RegIx} (can : s.canIssue c ss vs = true) :
    s.core[c].wait = none ∧ s.core[c].kill = false := by
  simp only [State.canIssue, CoreSt.ready, Bool.and_eq_true, Option.isNone_iff_eq_none, Bool.not_eq_true'] at can
  obtain ⟨⟨⟨_, ⟨⟨⟨⟨_, idle⟩, alive⟩, _⟩, _⟩⟩, _⟩, _⟩ := can
  exact ⟨idle, alive⟩

/-! How a wait ends. -/

/-- The core begins to wait. -/
def CoreSt.waits (k : CoreSt) (w : WaitKind) (since : BitVec 64) : CoreSt := { k with wait := some ⟨w, since, false⟩ }

/-- The core goes on behind the word at `pc`, which waited. -/
def CoreSt.goesOn (k : CoreSt) (pc : BitVec 64) : CoreSt := { k with wait := none, pc := pc + 8 }

/-- The core halts (R310). -/
def CoreSt.halts (k : CoreSt) : CoreSt := { k with mode := .halted }

@[simp] theorem CoreSt.waits_wait (k : CoreSt) (w : WaitKind) (since : BitVec 64) :
    (k.waits w since).wait = some ⟨w, since, false⟩ := rfl
@[simp] theorem CoreSt.waits_pc (k : CoreSt) (w : WaitKind) (since : BitVec 64) : (k.waits w since).pc = k.pc := rfl
@[simp] theorem CoreSt.halts_wait (k : CoreSt) : k.halts.wait = k.wait := rfl

theorem CoreSt.sput_waits_goesOn (k : CoreSt) (w : WaitKind) (since pc : BitVec 64) (r : RegIx) (v : BitVec 64) :
    ((k.waits w since).sput r v).goesOn pc = (k.sput r v).goesOn pc := by
  unfold CoreSt.sput
  split <;> rfl

theorem CoreSt.endWait_tokenWait (k : CoreSt) (t : BitVec 64) (j : TokIx) (rd : RegIx) :
    k.endWait t (.tokenWait j rd) = (k.sput rd (if k.tok[j].err then 1 else 0)).goesOn k.pc := by
  have err : BitVec.ofNat 64 (b2n k.tok[j].err) = if k.tok[j].err then 1 else 0 := by cases k.tok[j].err <;> rfl
  rw [← err]
  rfl

theorem CoreSt.endWait_tide (k : CoreSt) (t target : BitVec 64) (rd : RegIx) :
    k.endWait t (.tide target rd) = (k.sput rd t).goesOn k.pc := rfl

theorem CoreSt.endWait_halt {k : CoreSt} (clear : k.trapDue = false) (t : BitVec 64) :
    k.endWait t .halt = k.halts.goesOn k.pc := by
  unfold CoreSt.endWait
  rw [clear]
  rfl

/-- Whether a wait can end does not depend on the wait the core is in. -/
theorem CoreSt.waitDone_waits (k : CoreSt) (v w : WaitKind) (since t : BitVec 64) :
    (k.waits v since).waitDone t w = k.waitDone t w := by
  cases w <;> rfl

/-- The end of a wait clears it, and reads nothing of it. -/
theorem CoreSt.endWait_waits (k : CoreSt) (v w : WaitKind) (since t : BitVec 64) :
    (k.waits v since).endWait t w = k.endWait t w := by
  cases w with
  | tokenWait j rd => exact k.sput_waits_goesOn v since k.pc rd _
  | tide target rd => exact k.sput_waits_goesOn v since k.pc rd t
  | _ => rfl

theorem CoreSt.endWait_kill (k : CoreSt) (t : BitVec 64) (w : WaitKind) : (k.endWait t w).kill = k.kill := by
  cases w with
  | tokenWait j rd => exact k.sput_kill rd _
  | tide target rd => exact k.sput_kill rd t
  | halt => unfold CoreSt.endWait; cases k.trapDue <;> rfl
  | _ => rfl

/-- A waiting core that is not being killed goes on where the condition holds, and stands where it does not. -/
theorem CoreSt.settle_waiting {k : CoreSt} {w : Wait} (waiting : k.wait = some w) (alive : k.kill = false) (t : BitVec 64) :
    (k.settle t).settleKill = if k.waitDone t w.kind then k.endWait t w.kind else k := by
  have settled : k.settle t = if k.waitDone t w.kind then k.endWait t w.kind else k := by
    unfold CoreSt.settle
    rw [waiting]
  have spared : (k.settle t).kill = false := by
    rw [settled, apply_ite CoreSt.kill, CoreSt.endWait_kill, ite_self, alive]
  rw [← settled]
  exact if_neg (by rw [spared]; exact Bool.false_ne_true)

theorem State.setCore_settle (s : State) (c : CoreIx) (k : CoreSt) :
    (s.setCore c k).settle c = s.setCore c (k.settle s.tide.num).settleKill := by
  calc (s.setCore c k).settle c
    _ = (s.setCore c k).setCore c ((s.setCore c k).core[c].settle s.tide.num).settleKill := rfl
    _ = s.setCore c (k.settle s.tide.num).settleKill := by rw [State.setCore_at_same, State.setCore_setCore]

/-! The beginning of a wait (R241, R285). -/

/-- Where the condition holds an instruction that waits completes at once, as `k`; otherwise its core waits. -/
theorem State.beginWait_eq {s : State} {c : CoreIx} {w : WaitKind} {k : CoreSt} (alive : s.core[c].kill = false)
    (idle : k.wait = none) (ends : s.core[c].endWait s.tide.num w = k.goesOn s.core[c].pc) :
    s.beginWait c w = if s.core[c].waitDone s.tide.num w then s.done c k else s.waiting c w := by
  have done : (s.count (coreCtr c 0x400) 1).setCore c (k.goesOn s.core[c].pc) = s.done c k := by
    rw [CoreSt.goesOn, ← idle]
    rfl
  calc s.beginWait c w
    _ = ((s.count (coreCtr c 0x400) 1).setCore c (s.core[c].waits w s.tide.num)).settle c := rfl
    _ = (s.count (coreCtr c 0x400) 1).setCore c (((s.core[c].waits w s.tide.num).settle s.tide.num).settleKill) :=
      State.setCore_settle ..
    _ = _ := by
      rw [CoreSt.settle_waiting (k := s.core[c].waits w s.tide.num) rfl alive, CoreSt.waitDone_waits,
        CoreSt.endWait_waits, ends, apply_ite (State.setCore _ c), done]
      rfl

section
variable {s u : State} {c : CoreIx} {ss vs : List RegIx} {f : State → State} {w : WaitKind} {k : CoreSt}
variable {p : Prop} [Decidable p]

/-- An instruction that waits for `p`, on the state `u` that it has prepared. -/
theorem issueWhen_waits_for (can : s.canIssue c ss vs = true) (begins : f s = u.beginWait c w)
    (alive : u.core[c].kill = false) (idle : k.wait = none) (ends : u.core[c].endWait u.tide.num w = k.goesOn u.core[c].pc)
    (holds : u.core[c].waitDone u.tide.num w = true ↔ p) :
    issueWhen c ss vs f s = .next (if p then u.done c k else u.waiting c w) := by
  rw [issueWhen_can can, begins, State.beginWait_eq alive idle ends]
  simp only [holds]

/-- An instruction that waits while `p`. -/
theorem issueWhen_waits_while (can : s.canIssue c ss vs = true) (begins : f s = u.beginWait c w)
    (alive : u.core[c].kill = false) (idle : k.wait = none) (ends : u.core[c].endWait u.tide.num w = k.goesOn u.core[c].pc)
    (holds : u.core[c].waitDone u.tide.num w = true ↔ ¬ p) :
    issueWhen c ss vs f s = .next (if p then u.waiting c w else u.done c k) := by
  rw [issueWhen_waits_for can begins alive idle ends holds, ite_not]

end

/-! Completions on their way to a token (R241, R242, R288). -/

/-- The core as it takes the completion `(j, err)` from the front of those on their way, `l` behind it. -/
def CoreSt.takesToken (k : CoreSt) (j : TokIx) (err : Bool) (l : List (TokIx × Bool)) : CoreSt :=
  { k with toksIn := l, tok := k.tok.set j ⟨k.tok[j].count - 1, k.tok[j].err || err⟩ }

theorem CoreSt.takesToken_tok (k : CoreSt) (j : TokIx) (err : Bool) (l : List (TokIx × Bool)) :
    (k.takesToken j err l).tok[j] = ⟨k.tok[j].count - 1, k.tok[j].err || err⟩ :=
  Vector.getElem_set_self _

/-- A completion that arrives while its core waits ends the wait, or leaves it. -/
theorem exec_tokenCompletion_waiting {s : State} {c : CoreIx} {j : TokIx} {err : Bool} {l : List (TokIx × Bool)} {w : Wait}
    (arrives : s.core[c].toksIn = (j, err) :: l) (waiting : s.core[c].wait = some w) (alive : s.core[c].kill = false) :
    exec (.tokenCompletion c) s = .next (s.setCore c (
      if (s.core[c].takesToken j err l).waitDone s.tide.num w.kind then
        (s.core[c].takesToken j err l).endWait s.tide.num w.kind
      else s.core[c].takesToken j err l)) := by
  have taken : exec (.tokenCompletion c) s = .next ((s.setCore c (s.core[c].takesToken j err l)).settle c) := by
    show execTokenCompletion c s = _
    unfold execTokenCompletion
    rw [arrives]
    rfl
  rw [taken, State.setCore_settle, CoreSt.settle_waiting (k := s.core[c].takesToken j err l) waiting alive]

/-! Staged blocks (R239, R276). -/

/-- A core whose handles hold no staged block and no clamped access has nothing to write. -/
theorem State.flushHandles_clean {s : State} {c : CoreIx}
    (clean : ∀ h : HndIx, (s.core[c].hnd[h]).all (fun q => q.staged.isNone && q.oob == 0) = true) :
    s.flushHandles c = s := by
  have unclamped (h : HndIx) : s.handleOob c h = s := by
    have holds := clean h
    unfold State.handleOob
    split
    · rfl
    · rename_i q loaded
      rw [loaded, Option.all_some, Bool.and_eq_true, beq_iff_eq] at holds
      obtain ⟨_, none_held⟩ := holds
      exact if_pos none_held
  have each (h : HndIx) : s.flushHandle c h = s := by
    have holds := clean h
    unfold State.flushHandle
    split
    · rfl
    · rename_i q loaded
      rw [loaded, Option.all_some, Bool.and_eq_true, Option.isNone_iff_eq_none] at holds
      obtain ⟨unstaged, _⟩ := holds
      split
      · rename_i staged
        exact absurd (unstaged.symm.trans staged) nofun
      · exact unclamped h
  have all (l : List Nat) : l.foldl (fun s h => s.flushHandle c (Fin.ofNat 16 h)) s = s := by
    induction l with
    | nil => rfl
    | cons h l ih => rw [List.foldl_cons, each, ih]
  exact all (List.range 16)

/-! Barriers (R287, R309). -/

/-- The cores of a barrier go on. -/
def State.release (s : State) (l : List CoreIx) : State := l.foldl (fun s c => s.onCore c (fun k => k.goesOn k.pc)) s

theorem State.release_eq (s : State) (l : List CoreIx) : s.release l = { s with core := (s.release l).core } := by
  induction l generalizing s with
  | nil => rfl
  | cons c l ih => exact ih _

theorem State.release_at_other (s : State) {l : List CoreIx} {d : CoreIx} (out : d ∉ l) :
    (s.release l).core[d] = s.core[d] := by
  induction l generalizing s with
  | nil => rfl
  | cons c l ih =>
    obtain ⟨other, out⟩ := not_or.mp (mt List.mem_cons.mpr out)
    exact (ih _ out).trans (s.onCore_at_other _ other)

theorem State.release_at_member (s : State) {l : List CoreIx} (once : l.Nodup) {d : CoreIx} (member : d ∈ l) :
    (s.release l).core[d] = s.core[d].goesOn s.core[d].pc := by
  induction l generalizing s with
  | nil => cases member
  | cons c l ih =>
    obtain ⟨out, once⟩ := List.nodup_cons.mp once
    by_cases first : d = c
    · subst first
      exact (State.release_at_other _ out).trans (s.onCore_at_same _ _)
    · have later := (List.mem_cons.mp member).resolve_left first
      have stands := s.onCore_at_other (fun k => k.goesOn k.pc) first
      exact (ih _ once later).trans (by rw [stands])

/-- Core `c` has arrived at barrier `id`, which has not been looked at. -/
def State.arrived (s : State) (c : CoreIx) (id : Fin 16) : State :=
  ((s.onDisp (clusterOf c) (fun d => { d with bars := assocPut id.val ((assoc id.val d.bars).getD [] ++ [c]) d.bars })).onCore c
    (fun k => k.waits (.bar id) s.tide.num)).count (coreCtr c 0x400) 1

theorem State.arrive_eq (s : State) (c : CoreIx) (id : Fin 16) :
    s.arrive c id = (s.arrived c id).settleBar (clusterOf c) id.val := rfl

section
variable (s : State) (c : CoreIx) (id : Fin 16)

theorem State.arrived_disp : (s.arrived c id).disp[clusterOf c] = { s.disp[clusterOf c] with
    bars := assocPut id.val ((assoc id.val s.disp[clusterOf c].bars).getD [] ++ [c]) s.disp[clusterOf c].bars } :=
  Vector.getElem_set_self _

theorem State.arrived_at_same : (s.arrived c id).core[c] = s.core[c].waits (.bar id) s.tide.num :=
  Vector.getElem_set_self _

theorem State.arrived_at_other {d : CoreIx} (other : d ≠ c) : (s.arrived c id).core[d] = s.core[d] :=
  Vector.getElem_set_ne c.isLt d.isLt (fun same => other (Fin.ext same.symm))

theorem State.arrived_bars : assoc id.val (s.arrived c id).disp[clusterOf c].bars =
    some ((assoc id.val s.disp[clusterOf c].bars).getD [] ++ [c]) := by
  rw [State.arrived_disp]
  exact (assoc_put _ _ _ _).trans (if_pos rfl)

/-- Arriving performs no access. -/
theorem State.arrived_virtPending (d : CoreIx) : (s.arrived c id).core[d].virtPending = s.core[d].virtPending := by
  by_cases own : d = c
  · rw [own, State.arrived_at_same]
    rfl
  · rw [State.arrived_at_other s c id own]

/-- A released core goes on the same way whether or not it arrived last. -/
theorem State.arrived_goesOn (d : CoreIx) :
    (s.arrived c id).core[d].goesOn (s.arrived c id).core[d].pc = s.core[d].goesOn s.core[d].pc := by
  by_cases own : d = c
  · rw [own, State.arrived_at_same]
    rfl
  · rw [State.arrived_at_other s c id own]

end

/-- A barrier of a running granule (R309): all of its cores go on, or none does. -/
theorem State.settleBar_running {s : State} {cl : ClusterIx} {g : Granule} (running : s.disp[cl].running = some g) (id : Nat) :
    s.settleBar cl id =
      if g.cores.all (fun d => ((assoc id s.disp[cl].bars).getD []).contains d && !s.core[d].virtPending) then
        (s.release g.cores).onDisp cl (fun d => { d with bars := assocDel id d.bars })
      else s := by
  unfold State.settleBar
  rw [running]
  rfl

/-- What the arrival of a core at a barrier of its granule leaves. -/
theorem State.arrive_running {s : State} {c : CoreIx} {id : Fin 16} {g : Granule}
    (running : s.disp[clusterOf c].running = some g) :
    s.arrive c id =
      if g.cores.all (fun d => ((assoc id.val s.disp[clusterOf c].bars).getD [] ++ [c]).contains d &&
          !s.core[d].virtPending) then
        ((s.arrived c id).release g.cores).onDisp (clusterOf c) (fun d => { d with bars := assocDel id.val d.bars })
      else s.arrived c id := by
  have runs : (s.arrived c id).disp[clusterOf c].running = some g := by rw [State.arrived_disp]; exact running
  rw [State.arrive_eq, State.settleBar_running runs, State.arrived_bars, Option.getD_some]
  simp only [State.arrived_virtPending]

theorem State.arrive_frame {s : State} {c : CoreIx} {id : Fin 16} {g : Granule}
    (running : s.disp[clusterOf c].running = some g) :
    s.arrive c id = { s with
      core := (s.arrive c id).core
      ctr := (s.arrive c id).ctr
      disp := (s.arrive c id).disp } := by
  rw [State.arrive_running running]
  split
  · rw [State.release_eq]
    rfl
  · rfl

theorem exec_bar {s : State} {c : CoreIx} {id : Fin 16} (can : s.canIssue c [] [] = true) : exec (.bar c id) s =
    .next (if s.inGranule c then (s.flushHandles c).arrive c id else s.done c s.core[c]) :=
  issueWhen_can (f := fun s => if s.inGranule c then (s.flushHandles c).arrive c id else s.retire c (fun k => k)) can

/-- Settles O18: the beginnings of waits by `issueWhen_waits_for`, their ends by `CoreSt.settle_waiting`, BAR by
`State.arrive_running`. -/
theorem waitsFencesAndBarriers : Obligations.WaitsFencesAndBarriers := by
  unfold Obligations.WaitsFencesAndBarriers
  refine ⟨fun s c u j rd ra n => ⟨fun can => ?bare, fun can => ?written, fun can => ?read⟩,
    fun s c j err x l rd t0 => ?completion, fun s c can => ?staged, fun s c id can => ?barrier⟩
  case bare =>
    obtain ⟨idle, alive⟩ := State.canIssue_idle can
    refine ⟨?_, ?_, ?_, ?_⟩
    · exact (issueWhen_waits_for (f := fun s => s.beginWait c .fenceL) can rfl alive idle rfl (iff_of_true rfl trivial)).trans
        (by rw [if_pos trivial])
    · exact issueWhen_waits_for (f := fun s => s.beginWait c (.fenceUQ u)) can rfl alive idle rfl beq_iff_eq
    · exact issueWhen_waits_for (f := fun s => s.beginWait c (.fenceUT j)) can rfl alive idle rfl beq_iff_eq
    · exact issueReg_can (f := fun q => { q with tok := q.tok.set j { q.tok[j] with err := false } }) can
  case written =>
    obtain ⟨idle, alive⟩ := State.canIssue_idle can
    refine ⟨?_, fun positive => ?_⟩
    · exact issueWhen_waits_for (f := fun s => s.beginWait c (.tokenWait j rd)) can rfl alive
        ((CoreSt.sput_wait ..).trans idle) (CoreSt.endWait_tokenWait ..) beq_iff_eq
    · exact issueWhen_waits_for (f := fun s => if n = 0 then s.precise c 1 (tideZeroWord rd)
        else s.beginWait c (.tide (s.tide.num + n.setWidth 64) rd)) can (if_neg positive) alive
        ((CoreSt.sput_wait ..).trans idle) (CoreSt.endWait_tide ..) decide_eq_true_iff
  case read =>
    obtain ⟨idle, alive⟩ := State.canIssue_idle can
    exact issueWhen_waits_for (f := fun s => s.beginWait c (.tide (s.core[c].sget ra) rd)) can rfl alive
      ((CoreSt.sput_wait ..).trans idle) (CoreSt.endWait_tide ..) decide_eq_true_iff
  case completion =>
    refine fun arrives alive => ⟨fun waits => ?_, fun waits => ?_⟩
    · rw [exec_tokenCompletion_waiting arrives waits alive]
      simp only [CoreSt.endWait_tokenWait, CoreSt.waitDone, CoreSt.takesToken_tok, beq_iff_eq]
      rfl
    · rw [exec_tokenCompletion_waiting arrives waits alive]
      simp only [CoreSt.waitDone, CoreSt.takesToken_tok, beq_iff_eq]
      rfl
  case staged =>
    refine fun idle alive => ⟨?_, ?_, fun clear => ?_, State.flushHandles_clean⟩
    · exact issueWhen_waits_while (f := fun s => (s.flushHandles c).beginWait c .fenceS) can rfl alive idle rfl
        (by simp [CoreSt.waitDone])
    · exact issueWhen_waits_while (f := fun s => (s.flushHandles c).beginWait c .fenceA) can rfl alive idle rfl
        (by simp [CoreSt.waitDone])
    · exact issueWhen_waits_while (f := fun s => (s.flushHandles c).beginWait c .halt) can rfl alive
        ((CoreSt.halts_wait _).trans idle) (CoreSt.endWait_halt clear _) (by simp [CoreSt.waitDone])
  case barrier =>
    refine ⟨fun outside => (exec_bar can).trans (congrArg _ (if_neg (ne_true_of_eq_false outside))),
      fun g inside running => ⟨_, (exec_bar can).trans (congrArg _ (if_pos inside)), State.arrive_frame running,
        fun last once => ⟨fun d member => ?_, fun d out other => ?_⟩, fun early => ?_⟩⟩
    · rw [State.arrive_running running, if_pos last, State.onDisp_core, State.release_at_member _ once member,
        State.arrived_goesOn]
      rfl
    · rw [State.arrive_running running, if_pos last, State.onDisp_core, State.release_at_other _ out,
        State.arrived_at_other _ _ _ other]
    · rw [State.arrive_running running, if_neg (ne_true_of_eq_false early), State.arrived_at_same]
      exact ⟨CoreSt.waits_wait .., CoreSt.waits_pc .., State.arrived_bars _ c id, fun d => State.arrived_at_other _ c id⟩

end Sys2Proof.Machine
end
